-- ==== Sys2Proof/Word.lean ====
section
/-!
DEFINITION. The word types, sparse tables and the plainest arithmetic on words and bytes.
-/

namespace Sys2Proof

/-- A 64-bit register word. -/
abbrev Word := BitVec 64
/-- A 32-bit register half or command word. -/
abbrev Half := BitVec 32
/-- One byte. -/
abbrev Byte := BitVec 8
/-- A sparse table: pairs of key and value, keys strictly rising, no entry at the default value. -/
abbrev Tbl (α : Type) := List (Nat × α)

end Sys2Proof
end

