-- ==== Sys2Proof/Types.lean ====
section
/-!
DEFINITION. The fixed sets of names the manual uses for states, paths and codes. The order of the constructors of
each type is the order of the manual's numeric codes, so that `ctorIdx` is the code a register reports.
-/

namespace Sys2Proof

/-- Who makes a register access or stages a value (R17, R139). -/
inductive Path where | host | debug | boot | vault
  deriving DecidableEq, Repr

/-- Clock-island states, coded as CLK_ISL_STAT_n.state (R74). -/
inductive IslState where | off | run | ramp | limit
  deriving DecidableEq, Repr

/-- Kinds of voltage and frequency loop (R55). -/
inductive LoopKind where | fixed | avs | dvfs
  deriving DecidableEq, Repr

/-- Power-domain states, coded as PWR_DOM_STAT_d.state (R103). -/
inductive DomState where | off | powering | on | draining
  deriving DecidableEq, Repr

/-- PWR_DOM_STAT_d.last_off (R103). -/
inductive LastOff where | none | completed | deferred | refused
  deriving DecidableEq, Repr

/-- NVC_BOOT_STAT.state (R133). -/
inductive BootState where
  | reset | flashInit | cal | verify | execute | running | noImage | factoryTest
  deriving DecidableEq, Repr

/-- STG_STATUS.state (R154). -/
inductive StgState where | idle | check | wait | apply
  deriving DecidableEq, Repr

/-- STG_STATUS.result (R154). -/
inductive StgResult where | none | accepted | rejected | overflow | busy
  deriving DecidableEq, Repr

/-- VLT_STATUS.state (R186). -/
inductive VltState where | init | selftest | ready | error | tampered
  deriving DecidableEq, Repr

/-- Board reference clocks (R56, R60). -/
inductive RefClk where | sys | pe | eth | ng (n : Fin 4)
  deriving DecidableEq, Repr

/-- Wake comparators by bit (R91). -/
abbrev WakeBit := Fin 8

/-- The straps as sampled at the rising edge of PORST_N (R44). -/
structure Straps where
  nvmFb : Bool := false
  imgSel : Fin 4 := 0
  dbgEn : Bool := false
  test : Fin 4 := 0
  deriving DecidableEq, Repr

/-- What a received RoCE v2 packet asks or answers (R334). -/
inductive RoceOp where | send | rdmaWrite | ack | rnrNak | cnp | other
  deriving DecidableEq, Repr

/-- The registers of configuration space that this model holds (R614, R615, R619, R620, R692); `other` is any other
register, by offset. -/
inductive CfgReg where
  | ids | command | classRev | bar (i : Fin 6) | subsystem | pmcsr | devControl | devControl2 | msixControl
  | serialLo | serialHi | other (off : Nat)
  deriving DecidableEq, Repr

/-- The status of a completion for a host read: successful, Unsupported Request or Completer Abort, or poisoned (R619). -/
inductive CplStatus where | ok | refused | poisoned
  deriving DecidableEq, Repr

/-- The protocol of a DOE object (R632). -/
inductive DoeProto where | discovery | spdm | other
  deriving DecidableEq, Repr

/-- What a memory access finds in its error code (R197). -/
inductive MemErr where | none | ce | ue
  deriving DecidableEq, Repr

/-- The shared ports at which Perihelion arbitrates (R261). -/
inductive MemPort where
  | hbm (stack channel : Nat)
  | depot (bank sub : Nat)
  | bridge (dir : Nat)
  | bay (n : Nat)
  | hif
  | ngl (port vc : Nat)
  deriving DecidableEq, Repr

end Sys2Proof
end

