-- ==== Sys2Proof/Payload.lean ====
section
/-!
DEFINITION. What the decoders of the published image and video standards find in a bit stream, as far as the manual's
own rules use it (R346 to R360).
-/

namespace Sys2Proof

/-- The header of a supported image or stream. -/
structure MediaHead where
  width : Nat := 0
  height : Nat := 0
  /-- Source bit depth, and that of the samples the decoder gives (8 for an expanded palette). -/
  depth : Nat := 8
  sampleDepth : Nat := 8
  /-- The chroma code of R364. -/
  chroma : Nat := 0
  /-- Horizontal and vertical subsampling of components 0, 1 and 2. -/
  sub : List (Nat × Nat) := []
  alpha : Bool := false
  /-- Progressive or interlaced. -/
  interlaced : Bool := false
  /-- 8 × 8 blocks over all components, and source bytes per pixel (R358). -/
  blocks : Nat := 0
  srcBytes : Nat := 0
  /-- The components are Y, Cb and Cr; else grey or R, G, B. -/
  ycc : Bool := false
  /-- matrix_coeffs and video_full_range_flag, with 2 and false where absent (R353). -/
  matrix : Nat := 2
  fullRange : Bool := false
  /-- sps_max_dec_pic_buffering. -/
  dpb : Nat := 0
  deriving DecidableEq, Repr, Inhabited

/-- One picture of a stream's index, in decoding order (R354). -/
structure HPic where
  /-- Its frame index; none where the output process outputs it never. -/
  idx : Option Nat
  irap : Bool
  rasl : Bool
  tid : Nat
  /-- A sub-layer non-reference picture. -/
  nonRef : Bool
  deriving DecidableEq, Repr, Inhabited

end Sys2Proof
end

