-- ==== Sys2Proof/Syntax.lean ====
section
/-!
DEFINITION. The commands of the block: one constructor per row of spec/opcode_table.json, in the order of the table.
The operands carry what comes from outside the block with the command: addresses, values, and for an event
what its source settles. A docstring gives the governing rule.
-/

namespace Sys2Proof

/-- The operations and events of the block, one constructor for each row of the table. -/
inductive Instr where
  /-- REGISTER_WRITE (R13). -/
  | registerWrite (p : Path) (off size v : Nat)
  /-- STAGED_WRITE (R137). -/
  | stagedWrite (p : Path) (off v : Nat)
  /-- RC_READ (R714). -/
  | rcRead (p : Path) (off size : Nat)
  /-- SPLIT_READ_LOW (R17). -/
  | splitReadLow (p : Path) (off : Nat)
  /-- PORST_N_ASSERT (R48). -/
  | porstNAssert
  /-- PORST_N_RELEASE (R119). -/
  | porstNRelease (straps : Straps)
  /-- WRST_N_ASSERT (R49). -/
  | wrstNAssert
  /-- WARM_RESET_DRAIN_END (R652). -/
  | warmResetDrainEnd (lost : List Nat) (ccLost : Nat)
  /-- PERST_N_ASSERT (R50). -/
  | perstNAssert
  /-- PCIE_TRAINING_START (R50). -/
  | pcieTrainingStart
  /-- CONFIG_REQUEST (R122). -/
  | configRequest (write : Bool) (reg : CfgReg) (v : Nat)
  /-- CONFIG_RETRY_END (R122). -/
  | configRetryEnd
  /-- REFCLK_LOSS (R60). -/
  | refclkLoss (c : RefClk)
  /-- DEMAND_DECISION (R63). -/
  | demandDecision (n demandUs : Nat) (aboveAll idleHalf : Bool)
  /-- FREQ_STEP (R64). -/
  | freqStep (n : Nat)
  /-- VOLTAGE_STEP (R64). -/
  | voltageStep (n : Nat)
  /-- VOLTAGE_TRIM (R65). -/
  | voltageTrim (n : Nat) (slack : Int)
  /-- DROOP (R66). -/
  | droop (n : Nat)
  /-- STRETCH_END (R66). -/
  | stretchEnd (n : Nat)
  /-- LIMIT_ENTRY (R68). -/
  | limitEntry (n : Nat)
  /-- LIMIT_CEILING_RISE (R68). -/
  | limitCeilingRise (n : Nat)
  /-- TIMING_LIMIT_FAULT (R68). -/
  | timingLimitFault (n : Nat)
  /-- EQ_ADAPT_UPDATE (R69). -/
  | eqAdaptUpdate (l param : Nat) (up : Bool)
  /-- SHADOW_RECAL_START (R70). -/
  | shadowRecalStart (l : Nat)
  /-- SLICE_SWAP (R70). -/
  | sliceSwap (l : Nat) (shadowEyeH shadowEyeW : Nat)
  /-- LOS_ASSERT (R71). -/
  | losAssert (l : Nat)
  /-- LOS_DEASSERT (R71). -/
  | losDeassert (l amp : Nat)
  /-- CLK_SD_FREEZE (R72). -/
  | clkSdFreeze (p : Path) (l : Nat) (freeze : Bool)
  /-- PWR_DOM_REQ (R82). -/
  | pwrDomReq (p : Path) (d : Nat) (on : Bool)
  /-- DOMAIN_POWERING_START (R82). -/
  | domainPoweringStart (d : Nat)
  /-- DOMAIN_POWER_ON_DONE (R82). -/
  | domainPowerOnDone (d : Nat)
  /-- DOMAIN_DRAIN_DONE (R83). -/
  | domainDrainDone (d : Nat)
  /-- DRAIN_LIMIT_EXPIRY (R83). -/
  | drainLimitExpiry (d : Nat)
  /-- DOMAIN_POWER_OFF_DONE (R82). -/
  | domainPowerOffDone (d : Nat)
  /-- DOMAIN_OFF_SCAN_DONE (R208). -/
  | domainOffScanDone (d : Nat)
  /-- STANDBY_RAIL_UP (R88). -/
  | standbyRailUp (vaultOk : Bool)
  /-- SBY_DETECTOR_ARM (R697). -/
  | sbyDetectorArm
  /-- STANDBY_RAIL_LOSS (R157). -/
  | standbyRailLoss
  /-- MAIN_PG_TIMEOUT (R88). -/
  | mainPgTimeout
  /-- MAIN_PG_FALL (R89). -/
  | mainPgFall
  /-- MAIN_PG_RISE (R89). -/
  | mainPgRise
  /-- AON_SLEEP (R90). -/
  | aonSleep (p : Path)
  /-- SLEEP_ENTRY_COMPLETE (R93). -/
  | sleepEntryComplete
  /-- FLASH_ABORT_AT_SLEEP (R131). -/
  | flashAbortAtSleep
  /-- WAKE_COMPARATOR_FIRE (R91). -/
  | wakeComparatorFire (b : WakeBit)
  /-- AON_RTC_SET (R94). -/
  | aonRtcSet (p : Path) (size v : Nat)
  /-- RTC_OSC_FAIL (R94). -/
  | rtcOscFail
  /-- PF_TRIP (R96). -/
  | pfTrip
  /-- PF_REARM (R97). -/
  | pfRearm
  /-- JOURNAL_FLUSH_DONE (R317). -/
  | journalFlushDone
  /-- THERMAL_TICK (R98). -/
  | thermalTick (cd0 cd1 iod : Int)
  /-- THERMAL_ALERT (R99). -/
  | thermalAlert (die : Fin 3)
  /-- THERMAL_ALERT_RELEASE (R99). -/
  | thermalAlertRelease
  /-- THERMAL_TRIP (R100). -/
  | thermalTrip (die : Fin 3)
  /-- THERMTRIP_RELEASE (R100). -/
  | thermtripRelease
  /-- POWER_CAP_TICK (R101). -/
  | powerCapTick (power : Nat) (dom : List Nat)
  /-- FLASH_INIT_DONE (R109). -/
  | flashInitDone (ok octal vaultOk : Bool) (densLog2 : Nat)
  /-- CAL_DONE (R126). -/
  | calDone
  /-- VERIFY_DONE (R115). -/
  | verifyDone
  /-- WR32 (R116). -/
  | wr32
  /-- WR64 (R116). -/
  | wr64
  /-- POLL32 (R116). -/
  | poll32
  /-- POLL32_TIMEOUT (R116). -/
  | poll32Timeout
  /-- WAIT (R116). -/
  | waitRec
  /-- LOAD (R116). -/
  | loadRec
  /-- END (R123). -/
  | endRec
  /-- FLASH_READ (R129). -/
  | flashRead (p : Path)
  /-- FLASH_PROGRAM (R129). -/
  | flashProgram (p : Path)
  /-- FLASH_ERASE (R129). -/
  | flashErase (p : Path)
  /-- FLASH_STATUS (R129). -/
  | flashStatus (p : Path)
  /-- FLASH_CMD_DONE (R129). -/
  | flashCmdDone (status : Byte)
  /-- FLASH_CMD_TIMEOUT (R129). -/
  | flashCmdTimeout
  /-- BOOT_RETRY (R132). -/
  | bootRetry (p : Path)
  /-- STG_COMMIT (R141). -/
  | stgCommit (p : Path)
  /-- STG_DISCARD (R153). -/
  | stgDiscard (p : Path)
  /-- COMMIT_CHECK_END (R141). -/
  | commitCheckEnd
  /-- COMMIT_WAIT_END (R141). -/
  | commitWaitEnd
  /-- COMMIT_WAIT_TIMEOUT (R141). -/
  | commitWaitTimeout
  /-- COMMIT_APPLY (R141). -/
  | commitApply
  /-- GET_STATUS (R167). -/
  | getStatus (dbg : Bool)
  /-- AUTH_BEGIN (R161). -/
  | authBegin (dbg : Bool)
  /-- AUTH_PROVE (R161). -/
  | authProve (dbg : Bool)
  /-- LOGOUT (R162). -/
  | logout (dbg : Bool)
  /-- KEK_IMPORT (R170). -/
  | kekImport (dbg : Bool)
  /-- KEK_DESTROY (R167). -/
  | kekDestroy (dbg : Bool)
  /-- KEY_LOAD (R171). -/
  | keyLoad (dbg : Bool)
  /-- KEY_DESTROY (R173). -/
  | keyDestroy (dbg : Bool)
  /-- KEY_QUERY (R167). -/
  | keyQuery (dbg : Bool)
  /-- GET_RANDOM (R178). -/
  | getRandom (dbg : Bool)
  /-- FUSE_IMAGE_KEY (R159). -/
  | fuseImageKey (dbg : Bool)
  /-- REVOKE_IMAGE_KEY (R159). -/
  | revokeImageKey (dbg : Bool)
  /-- ADVANCE_SVN (R159). -/
  | advanceSvn (dbg : Bool)
  /-- LOCK_DEBUG (R158). -/
  | lockDebug (dbg : Bool)
  /-- FUSE_OWNER_KEY (R159). -/
  | fuseOwnerKey (dbg : Bool)
  /-- SET_APPROVED (R159). -/
  | setApproved (dbg : Bool)
  /-- ZEROISE (R182). -/
  | zeroise (dbg : Bool)
  /-- TAMPER_CLEAR (R183). -/
  | tamperClear (dbg : Bool) (active : Nat)
  /-- DECOMMISSION (R184). -/
  | decommission (dbg : Bool)
  /-- SELF_TEST (R181). -/
  | selfTest (dbg pass : Bool)
  /-- MAILBOX_UNKNOWN_SERVICE (R165). -/
  | mailboxUnknownService (dbg : Bool)
  /-- SESSION_IDLE_TIMEOUT (R162). -/
  | sessionIdleTimeout (dbg : Bool)
  /-- AUTH_LOCKOUT_END (R163). -/
  | authLockoutEnd (dbg : Bool)
  /-- DRBG_RESEED (R178). -/
  | drbgReseed
  /-- ENTROPY_HEALTH_FAIL (R177). -/
  | entropyHealthFail
  /-- TAMPER_EVENT (R183). -/
  | tamperEvent (source : Fin 4)
  /-- SPDM_REQUEST (R180). -/
  | spdmRequest (doe : Bool)
  /-- STACK_TRAINING_DONE (R192). -/
  | stackTrainingDone (n : Nat) (ok : Bool)
  /-- HBM_ZERO_FILL_BLOCK (R193). -/
  | hbmZeroFillBlock (die block : Nat)
  /-- HBM_TRANSFER_RETRY (R201). -/
  | hbmTransferRetry (n failures : Nat)
  /-- SCRUB_READ (R202). -/
  | scrubRead (err : MemErr) (overwritten : Bool)
  /-- SRAM_SCRUB_READ (R202). -/
  | sramScrubRead (addr : Nat) (store : Bool) (err : MemErr)
  /-- REPAIR_REFETCH_DONE (R204). -/
  | repairRefetchDone (data : Option (List Byte))
  /-- GLB_Q_DB (R217). -/
  | glbQDb (p : Path) (q tail : Nat)
  /-- GLB_Q_CPLHEAD (R217). -/
  | glbQCplhead (p : Path) (q v : Nat)
  /-- QUEUE_ABORT (R221). -/
  | queueAbort (p : Path) (q : Nat)
  /-- QUEUE_RESUME (R220). -/
  | queueResume (p : Path) (q : Nat)
  /-- COMMAND_FETCH (R223). -/
  | commandFetch (q : Nat)
  /-- COMMAND_ISSUE (R224). -/
  | commandIssue (q : Nat)
  /-- NOP (R230). -/
  | nop (t : Nat)
  /-- COMMAND_COMPLETE (R240). -/
  | commandComplete (t : Nat)
  /-- COMPLETION_STALL_RELEASE (R241). -/
  | completionStallRelease (t : Nat)
  /-- IRQ_HOLDOFF_EXPIRY (R242). -/
  | irqHoldoffExpiry (q : Nat)
  /-- GLB_SEM (R238). -/
  | glbSem (p : Path) (n v : Nat)
  /-- GLB_SEM_ADD (R235). -/
  | glbSemAdd (p : Path) (n v : Nat)
  /-- TRANSFER_GRANT (R261). -/
  | transferGrant (port : MemPort)
  /-- TRANSFER_DONE (R255). -/
  | transferDone (x : Nat) (err : MemErr)
  /-- RATE_WINDOW_UPDATE (R257). -/
  | rateWindowUpdate
  /-- BUCKET_REFILL (R256). -/
  | bucketRefill
  /-- Q_RECOMPUTE (R262). -/
  | qRecompute
  /-- YIELD_SWITCH (R264). -/
  | yieldSwitch (n t : Nat)
  /-- TEL_SAT (R661). -/
  | telSat (n c : Nat)
  /-- TILE_COMPLETE (R285). -/
  | tileComplete (t k : Nat)
  /-- PARAM_LOAD_START (R292). -/
  | paramLoadStart (n t : Nat)
  /-- PARAM_LOAD_DONE (R291). -/
  | paramLoadDone (n t : Nat)
  /-- LEDGER_INIT_DONE (R300). -/
  | ledgerInitDone
  /-- BATCH_ADMIT (R306). -/
  | batchAdmit
  /-- SAMPLE_DEADLINE (R308). -/
  | sampleDeadline (slot : Nat)
  /-- PIN_SET_CREATE (R313). -/
  | pinSetCreate (p table version : Nat)
  /-- CHECKPOINT_TIMER (R316). -/
  | checkpointTimer
  /-- JOURNAL_ENTRY_WRITE (R316). -/
  | journalEntryWrite
  /-- FETCH (R327). -/
  | fetch (t k : Nat)
  /-- FETCH_WAIT_EXPIRY (R327). -/
  | fetchWaitExpiry (t : Nat)
  /-- RECORD_DONE (R329). -/
  | recordDone (t n : Nat) (data : List Byte)
  /-- HOST_FETCH_TIMEOUT (R331). -/
  | hostFetchTimeout (t n : Nat)
  /-- NVME_CONNECT (R335). -/
  | nvmeConnect (tgt port : Nat) (ok : Bool) (ns : List (Nat × Nat))
  /-- NVME_RESPONSE (R335). -/
  | nvmeResponse (tgt port cid status : Nat)
  /-- FABRIC_CMD_TIMEOUT (R336). -/
  | fabricCmdTimeout (tgt port cid : Nat)
  /-- QUARANTINE_RECONNECT (R336). -/
  | quarantineReconnect (tgt port cid : Nat)
  /-- KEEP_ALIVE (R335). -/
  | keepAlive (tgt : Nat)
  /-- ROCE_PACKET_RX (R334). -/
  | rocePacketRx (tgt port : Nat) (op : RoceOp) (psn : Nat) (ecn : Bool)
  /-- ETH_FRAME_DISCARD (R31). -/
  | ethFrameDiscard (x : Nat)
  /-- ADDR_RES_REQUEST (R333). -/
  | addrResRequest (x hop : Nat)
  /-- ADDR_RES_REPLY (R333). -/
  | addrResReply (x hop mac : Nat)
  /-- ADDR_RES_ANSWER (R333). -/
  | addrResAnswer (x ip : Nat)
  /-- ADDR_ENTRY_REFRESH (R333). -/
  | addrEntryRefresh (x hop : Nat)
  /-- ADDR_ENTRY_EXPIRY (R333). -/
  | addrEntryExpiry (x hop : Nat)
  /-- ETH_PORT_UP (R333). -/
  | ethPortUp (x : Nat)
  /-- DECODE_IMAGE (R348). -/
  | decodeImage (t k : Nat)
  /-- DECODE_VIDEO (R354). -/
  | decodeVideo (t k : Nat)
  /-- TOKENIZE (R370). -/
  | tokenize (t k : Nat)
  /-- TRANSFORM (R394). -/
  | transform (t k : Nat)
  /-- MATMUL (R423). -/
  | matmul (t k : Nat)
  /-- VQ_SEARCH (R424). -/
  | vqSearch (t k : Nat)
  /-- ROWOP (R425). -/
  | rowop (t k : Nat)
  /-- GLB_AZM_GO (R444). -/
  | glbAzmGo (p : Path)
  /-- AZM_BLOCK_READY (R444). -/
  | azmBlockReady
  /-- GATHER (R457). -/
  | gather (t k : Nat)
  /-- POOL (R462). -/
  | pool (t k : Nat)
  /-- PREFETCH (R466). -/
  | prefetch (t k : Nat)
  /-- GATHER_REQ (R461). -/
  | gatherReq
  /-- GATHER_RSP (R460). -/
  | gatherRsp
  /-- POOLED_SUM (R575). -/
  | pooledSum
  /-- REMOTE_TIMEOUT (R460). -/
  | remoteTimeout (n : Nat)
  /-- READ_SLOT_RELEASE (R460). -/
  | readSlotRelease (n : Nat)
  /-- HEAT_WINDOW_END (R465). -/
  | heatWindowEnd
  /-- VERSION_SLOT_FREE (R452). -/
  | versionSlotFree (t v : Nat)
  /-- SAMPLE (R480). -/
  | sample (t k : Nat)
  /-- SAMPLE_WAIT_EXPIRY (R480). -/
  | sampleWaitExpiry (t : Nat)
  /-- LOGIT_PAGE (R476). -/
  | logitPage
  /-- SMP_SEQ_KILL (R475). -/
  | smpSeqKill (p : Path) (id : Nat)
  /-- DEPOSIT (R494). -/
  | deposit (t k : Nat)
  /-- DEPOSIT_SEQ (R495). -/
  | depositSeq (t k : Nat)
  /-- STEP_PAGE_DROP (R495). -/
  | stepPageDrop (ep ctr : Nat)
  /-- LAYOUT_READ (R490). -/
  | layoutRead (p : Nat)
  /-- BATCH_BUILD_DONE (R497). -/
  | batchBuildDone (e : Nat)
  /-- OFFER_START (R502). -/
  | offerStart (k : Nat)
  /-- BATCH_ACK (R504). -/
  | batchAck
  /-- HOST_OFFER_DONE (R502). -/
  | hostOfferDone (p : Nat)
  /-- HOLD_TIMEOUT (R503). -/
  | holdTimeout (k : Nat)
  /-- PAK_HOST_HEAD (R502). -/
  | pakHostHead (p : Path) (n v : Nat)
  /-- FRAME_START (R513). -/
  | frameStart (port vc num : Nat)
  /-- LONG_PACKET (R514). -/
  | longPacket (port vc dt : Nat) (hdrOk crcOk : Bool) (data : List Byte)
  /-- FRAME_END (R513). -/
  | frameEnd (port vc num : Nat)
  /-- FRAME_LATCH (R516). -/
  | frameLatch (l : Nat)
  /-- PTP_SYNC (R518). -/
  | ptpSync (src : Nat) (off : Int)
  /-- SERVO_HOLDOVER (R518). -/
  | servoHoldover
  /-- TS_IN_CAPTURE (R519). -/
  | tsInCapture (n : Nat) (rising : Bool)
  /-- SEN_TS_POP (R519). -/
  | senTsPop (p : Path) (n size : Nat)
  /-- TRIG_EDGE (R520). -/
  | trigEdge (t : Nat)
  /-- FUSION_CLOSE (R522). -/
  | fusionClose (g : Nat)
  /-- CAPTURE (R527). -/
  | capture (t k : Nat)
  /-- CAPTURE_WAIT_EXPIRY (R527). -/
  | captureWaitExpiry (t : Nat)
  /-- COPY (R540). -/
  | copy (t k : Nat)
  /-- GATHER_ROWS (R547). -/
  | gatherRows (t k : Nat)
  /-- SCATTER_ROWS (R548). -/
  | scatterRows (t k : Nat)
  /-- PMD_TRAIN_DONE (R556). -/
  | pmdTrainDone (p : Nat)
  /-- FEC_LOCK_DONE (R556). -/
  | fecLockDone (p : Nat)
  /-- FLIT_SYNC_DONE (R556). -/
  | flitSyncDone (p : Nat)
  /-- INIT_FLIT (R557). -/
  | initFlit (p version kind port id count : Nat) (adv : List Nat) (seen : Bool) (ack : Option Nat) (cum : List Nat)
  /-- TRAINING_TIMEOUT (R556). -/
  | trainingTimeout (p : Nat)
  /-- RETRAIN_ATTEMPT_TIMEOUT (R556). -/
  | retrainAttemptTimeout (p : Nat)
  /-- FLIT_SLOT_TX (R566). -/
  | flitSlotTx (p : Nat)
  /-- DATA_FLIT_RX (R560). -/
  | dataFlitRx (p vc seq : Nat) (payload : List Byte) (ack : Option Nat) (cum : List Nat)
  /-- BAD_FLIT (R559). -/
  | badFlit (p : Nat)
  /-- NAK_REPEAT (R560). -/
  | nakRepeat (p : Nat)
  /-- NAK_RX (R562). -/
  | nakRx (p nak : Nat) (ack : Option Nat) (cum : List Nat)
  /-- REPLAY_TIMER (R562). -/
  | replayTimer (p : Nat)
  /-- RETRY_EXHAUSTED (R563). -/
  | retryExhausted (p : Nat)
  /-- MESSAGE_RX (R570). -/
  | messageRx (p v : Nat)
  /-- FEC_WARN (R581). -/
  | fecWarn (p uncorrectable : Nat)
  /-- ECHO_REQ (R578). -/
  | echoReq
  /-- ECHO_RSP (R604). -/
  | echoRsp
  /-- ECHO_SEND (R604). -/
  | echoSend
  /-- UNREACH_TIMEOUT (R588). -/
  | unreachTimeout (toEp : Bool) (d : Nat)
  /-- STEP_TOKEN_ISSUE (R591). -/
  | stepTokenIssue
  /-- STEP_TOKEN (R593). -/
  | stepToken
  /-- STEP_DONE (R591). -/
  | stepDone
  /-- STEP_DEADLINE (R591). -/
  | stepDeadline
  /-- ROOT_BEAT_SEND (R595). -/
  | rootBeatSend
  /-- ROOT_BEAT (R595). -/
  | rootBeat
  /-- LEASE_EXPIRY (R595). -/
  | leaseExpiry
  /-- CLAIM_SEND (R596). -/
  | claimSend
  /-- ROOT_CLAIM (R597). -/
  | rootClaim
  /-- ROOT_ACK (R596). -/
  | rootAck
  /-- ROOT_NACK (R596). -/
  | rootNack
  /-- JOIN_SEND (R601). -/
  | joinSend
  /-- JOIN (R601). -/
  | join
  /-- LEAVE (R602). -/
  | leave
  /-- MEMBER_STAT_SEND (R600). -/
  | memberStatSend
  /-- MEMBER_STAT (R600). -/
  | memberStat
  /-- NGL_FAB_PULL_GO (R608). -/
  | nglFabPullGo (p : Path) (n : Nat)
  /-- TABLE_PULL (R608). -/
  | tablePull
  /-- TABLE_CHUNK (R608). -/
  | tableChunk
  /-- TABLE_PULL_NAK (R608). -/
  | tablePullNak
  /-- PULL_TIMEOUT (R608). -/
  | pullTimeout (n : Nat)
  /-- HOT_RESET (R621). -/
  | hotReset
  /-- LINK_DOWN (R621). -/
  | linkDown
  /-- FUNCTION_LEVEL_RESET (R621). -/
  | functionLevelReset
  /-- D3HOT_ENTRY (R620). -/
  | d3hotEntry
  /-- BAR2_ACCESS (R617). -/
  | bar2Access (write : Bool) (off : Nat) (data : List Byte) (n : Nat) (poison : Bool)
  /-- CXL_MEM_REQUEST (R623). -/
  | cxlMemRequest (write : Bool) (h : Nat) (data : List Byte) (n : Nat) (poison : Bool)
  /-- HOST_READ_COMPLETION (R619). -/
  | hostReadCompletion (tag : Nat) (st : CplStatus) (data : List Byte)
  /-- COMPLETION_TIMEOUT (R619). -/
  | completionTimeout (tag : Nat)
  /-- SNPDATA (R626). -/
  | snpdata (l : Nat)
  /-- SNPINV (R626). -/
  | snpinv (l : Nat)
  /-- SNPCUR (R626). -/
  | snpcur (l : Nat)
  /-- CXL_GO (R626). -/
  | cxlGo (l : Nat) (excl : Bool) (data : List Byte)
  /-- GO_WRITEPULL (R627). -/
  | goWritepull (l : Nat)
  /-- GO_WRITEPULL_DROP (R627). -/
  | goWritepullDrop (l : Nat)
  /-- HIF_CC_FLUSH (R628). -/
  | hifCcFlush (p : Path)
  /-- CC_FLUSH_DONE (R628). -/
  | ccFlushDone
  /-- MSIX_VECTOR_UNMASK (R629). -/
  | msixVectorUnmask (v : Option (Fin 2048))
  /-- DOE_OBJECT (R632). -/
  | doeObject (proto : DoeProto) (data : List Byte)
  /-- DOE_ABORT (R632). -/
  | doeAbort
  /-- HEALTH_FAULT_CONFIRM (R637). -/
  | healthFaultConfirm (u : Nat) (pair : Fin 4) (prevGood released : Bool)
  /-- C2_RECOVERY_DONE (R647). -/
  | c2RecoveryDone
  /-- WATCHDOG_EXPIRY (R640). -/
  | watchdogExpiry (n : Nat)
  /-- RELEASE_GATE_PASS (R641). -/
  | releaseGatePass
  /-- RECOVERY_SELF_TEST_DONE (R645). -/
  | recoverySelfTestDone (u : Nat) (pass : Bool)
  /-- FLT_UNFENCE (R645). -/
  | fltUnfence (p : Path) (u : Nat)
  /-- FLT_INJECT (R658). -/
  | fltInject (p : Path) (u : Nat) (wire : Bool)
  /-- FLT_FIRST_CLR (R655). -/
  | fltFirstClr (p : Path)
  /-- INSTANCE_TEST (R669). -/
  | instanceTest (p : Path) (target : Nat)
  /-- ISLAND_TEST (R669). -/
  | islandTest (p : Path) (target : Nat)
  /-- SERDES_RECAL (R670). -/
  | serdesRecal (p : Path) (target : Nat)
  /-- BIST_DRAINED (R669). -/
  | bistDrained
  /-- BIST_DEFERRED (R669). -/
  | bistDeferred
  /-- BIST_TEST_DONE (R669). -/
  | bistTestDone (fails : List (Nat × Nat))
  /-- SERDES_RECAL_DONE (R670). -/
  | serdesRecalDone (eyeH eyeW : Nat)
  /-- TRACE_RECORD_WRITE (R665). -/
  | traceRecordWrite
  /-- TEL_TRACE_MARK (R664). -/
  | telTraceMark (p : Path) (v : Nat)
  /-- TEL_TRACE_CTL (R666). -/
  | telTraceCtl (p : Path) (run : Bool)
  /-- IDCODE (R674). -/
  | idcode (tag : Nat)
  /-- PEEK32 (R675). -/
  | peek32 (tag off : Nat)
  /-- PEEK64 (R675). -/
  | peek64 (tag off : Nat)
  /-- WRITE32 (R674). -/
  | write32 (tag off v : Nat)
  /-- WRITE64 (R674). -/
  | write64 (tag off v : Nat)
  /-- MEMPEEK (R675). -/
  | mempeek (tag a : Nat)
  /-- MEMWRITE (R674). -/
  | memwrite (tag a : Nat) (data : List Byte)
  /-- DEBUG_ANSWER_TIMEOUT (R673). -/
  | debugAnswerTimeout
  /-- DBG_HALT_INST (R677). -/
  | dbgHaltInst (p : Path) (v : Nat)
  /-- DBG_HALT_Q (R677). -/
  | dbgHaltQ (p : Path) (j v : Nat)
  /-- INSTANCE_HALTED (R677). -/
  | instanceHalted (n : Nat)
  /-- TAP_IDCODE (R676). -/
  | tapIdcode
  /-- SAMPLE_PRELOAD (R676). -/
  | samplePreload (sample preload : List Bool)
  /-- EXTEST (R676). -/
  | extest (boundary : List Bool)
  /-- CLAMP (R676). -/
  | clamp
  /-- HIGHZ (R676). -/
  | highz
  /-- BYPASS (R676). -/
  | bypass
  /-- TAP_RESET (R51). -/
  | tapReset
  /-- PCIE_LINK_UP (R50). -/
  | pcieLinkUp (rate width : Nat) (flit cache mem : Bool)
  /-- TAG_QUARANTINE_END (R619). -/
  | tagQuarantineEnd (tag : Nat)
  /-- ETH_PORT_DOWN (R333). -/
  | ethPortDown (x : Nat)
  /-- ROCE_ACK_TIMEOUT (R334). -/
  | roceAckTimeout (tgt port : Nat)
  /-- PFC_FRAME_RX (R332). -/
  | pfcFrameRx (x prio : Nat) (pause : Bool)
  /-- PTP_MESSAGE (R517). -/
  | ptpMessage (src : Nat) (off : Option Int)
  /-- IDLE_FLIT_RX (R559). -/
  | idleFlitRx (p : Nat) (ack : Option Nat) (cum : List Nat)
  /-- REPAIR_WAIT_TIMEOUT (R463). -/
  | repairWaitTimeout (t k : Nat)
  /-- DEBUG_REQUEST_INVALID (R673). -/
  | debugRequestInvalid (tag : Nat) (crcBad : Bool)
  deriving DecidableEq, Repr

end Sys2Proof
end

