-- ==== Sys2Proof/Decode.lean ====
section
/-! DEFINITION. Reading a command from the bits of spec/opcode_table.json. No row of that table gives any bit, so no
word spells a command, and every word is refused. -/

namespace Sys2Proof

/-- The command a word of the table spells: none, as the table gives its rows no bits. -/
def decodeTableWord (_nbits _w : Nat) : Option Instr := none

end Sys2Proof
end

