-- ==== Sys2Proof/Machine/Codes.lean ====
section
/-!
DEFINITION. Numbers the manual fixes: BAR0 block bases, status codes, fault units and the engine kinds.
-/

namespace Sys2Proof.Machine

/-! ### Block bases in BAR0 (R8) -/
def bGLB : Nat := 0x0000000
def bSTG : Nat := 0x0100000
def bCLK : Nat := 0x0200000
def bPWR : Nat := 0x0300000
def bFLT : Nat := 0x0400000
def bVLT : Nat := 0x0500000
def bNVC : Nat := 0x0600000
def bAON : Nat := 0x0700000
def bING : Nat := 0x0800000
def bDEC : Nat := 0x0A00000
def bLEX : Nat := 0x0C00000
def bGRT : Nat := 0x0E00000
def bORY : Nat := 0x1000000
def bGTH : Nat := 0x1200000
def bSMP : Nat := 0x1400000
def bPAK : Nat := 0x1600000
def bSEN : Nat := 0x1800000
def bXCH : Nat := 0x1A00000
def bSTR : Nat := 0x1C00000
def bLDG : Nat := 0x1E00000
def bNGL : Nat := 0x2000000
def bHIF : Nat := 0x2200000
def bETH : Nat := 0x2300000
def bMEM : Nat := 0x2400000
def bTEL : Nat := 0x2600000
def bDBG : Nat := 0x2800000

/-! ### Status codes (R243) -/
def stOK : Nat := 0x0000
def stINVALID : Nat := 0x0001
def stTILE_SHAPE : Nat := 0x0002
def stALIAS_WRITE : Nat := 0x0003
def stADDR_RANGE : Nat := 0x0004
def stFENCED : Nat := 0x0005
def stPOISON : Nat := 0x0006
def stSTALE : Nat := 0x0007
def stDEFERRED : Nat := 0x0008
def stDENIED : Nat := 0x0009
def stAUTH_FAIL : Nat := 0x000A
def stKEY_EMPTY : Nat := 0x000B
def stTIMEOUT : Nat := 0x000C
def stABORTED : Nat := 0x000D
def stFORMAT : Nat := 0x000E
def stDAMAGED : Nat := 0x000F
def stOVERFLOW : Nat := 0x0010
def stUNDELIVERED : Nat := 0x0011
def stREMOTE : Nat := 0x0012
def stMISSING : Nat := 0x0013

/-! ### Engine kinds, instances and Bays (R189, R214) -/

/-- Number of instances of a kind. -/
def kindCount (k : Nat) : Nat := [2, 2, 2, 24, 2, 8, 4, 8, 1, 1].getD k 0
/-- Bay number of instance 0 of a kind. -/
def kindBay (k : Nat) : Nat := [0, 2, 4, 6, 30, 32, 40, 44, 52, 53].getD k 54
/-- Kind of the instance with a Bay number. -/
def bayKind (n : Nat) : Nat :=
  if n < 2 then 0 else if n < 4 then 1 else if n < 6 then 2 else if n < 30 then 3 else if n < 32 then 4
  else if n < 40 then 5 else if n < 44 then 6 else if n < 52 then 7 else if n < 53 then 8 else 9
/-- Bays of a kind in ascending order. -/
def kindBays (k : Nat) : List Nat := (List.range (kindCount k)).map (kindBay k + ·)

/-- Clock island of the instance with a Bay number (R55). -/
def bayIsland (n : Nat) : Nat :=
  if n < 2 then 15 else if n < 3 then 16 else if n < 4 then 17 else if n < 6 then 18
  else if n < 18 then 19 else if n < 30 then 20 else if n < 31 then 21 else if n < 32 then 22
  else if n < 44 then 23 else if n < 52 then 24 else if n < 53 then 6 else 24

/-- Switched power domain of the instance with a Bay number (R80). -/
def bayDom (n : Nat) : Nat :=
  if n < 3 then 8 else if n < 4 then 9 else if n < 6 then 10 else if n < 18 then 11 else if n < 30 then 12
  else if n < 31 then 11 else if n < 32 then 12 else if n < 44 then 13 else if n < 52 then 14
  else if n < 53 then 3 else 14

/-- Switched power domain of a clock island; 0 where the island is not switched (R55, R80). -/
def islandDom (i : Nat) : Nat :=
  [0, 0, 0, 0, 1, 2, 3, 4, 4, 5, 5, 6, 6, 7, 7, 8, 8, 9, 10, 11, 12, 11, 12, 13, 14, 0].getD i 0

/-- Nominal frequency code of an island (R55, R61); the AON island reports 1. -/
def islandNominal (i : Nat) : Nat :=
  [0, 1, 32, 16, 80, 50, 40, 50, 50, 50, 50, 80, 80, 80, 80, 64, 80, 80, 50, 72, 72, 60, 60, 80, 80, 80].getD i 0

/-- Loop kind of an island (R55). -/
def islandKind (i : Nat) : LoopKind := if i ≤ 2 then .fixed else if i < 15 then .avs else if i < 25 then .dvfs else .avs

/-- Fault class raised at an island's timing limit (R55). -/
def islandClass (i : Nat) : Nat := if i = 3 ∨ (11 ≤ i ∧ i ≤ 14) ∨ i = 25 then 3 else 1

/-- Compute die that carries a DVFS island (R38): 0, 1, or 2 for the I/O die. -/
def islandDie (i : Nat) : Nat := if i ∈ [15, 16, 18, 19, 21] then 0 else if i ∈ [17, 20, 22, 23, 24] then 1 else 2

/-! ### Fault units (R638) -/
def uIsland (i : Nat) : Nat := 0x040 + i
def uPort (p : Nat) : Nat := 0x080 + p
def uEth (x : Nat) : Nat := 0x090 + x
def uHIF : Nat := 0x0A0
def uStack (s : Nat) : Nat := 0x0B0 + s
def uDepot (b : Nat) : Nat := 0x0C0 + b
def uLedgerStore : Nat := 0x0C2
def uLDG : Nat := 0x0D0
def uSTR : Nat := 0x0D1
def uSTG : Nat := 0x0D2
def uFLT : Nat := 0x0D3
def uTEL : Nat := 0x0D4
def uVLT : Nat := 0x0E0
def uNVC : Nat := 0x0E1
def uClocks : Nat := 0x0F0
def uThermal (d : Nat) : Nat := 0x0F1 + d
def uCal : Nat := 0x0F4
def uDomain : Nat := 0x0F5
def uSem : Nat := 0x0F6

/-- The unit IDs that R638 assigns. -/
def unitAssigned (u : Nat) : Bool :=
  u ≤ 0x35 || (0x41 ≤ u && u ≤ 0x59) || (0x80 ≤ u && u ≤ 0x91) || u = 0xA0 || (0xB0 ≤ u && u ≤ 0xB7) ||
  (0xC0 ≤ u && u ≤ 0xC2) || (0xD0 ≤ u && u ≤ 0xD4) || u = 0xE0 || u = 0xE1 || (0xF0 ≤ u && u ≤ 0xF6)

end Sys2Proof.Machine
end

