-- ==== Sys2Proof/Config.lean ====
section
/-!
DEFINITION. What one part fixes, and the values the manual leaves open. Every constant here is opaque: no proof can
see its value, so a claim holds whatever the value is. The functions of published standards, which the manual names
and does not restate, stand here as uninterpreted functions too (assumption log 3).
-/

namespace Sys2Proof.Config

/-- The fused device identity (R158, R689). -/
opaque deviceId : Word
/-- Version of the Vault ROM (R186), and its SHA-384 digest (R180). -/
opaque romVersion : Nat
opaque romDigest : List Byte
/-- Temperature grade I rather than C (R688). -/
opaque gradeI : Bool
/-- A fresh free value: the manual leaves it open, and each use takes the next number (assumption log 2). -/
opaque freeValue : Nat → Nat → Nat
/-- A byte of a Depot bank or a Bay whose contents the manual leaves undefined, by the loss of contents that left it so
and its address (R715, assumption log 5). -/
opaque freeByte : Nat → Nat → Byte
/-- A byte of host memory that Sparrato has not written (assumption log 4). -/
opaque hostByte : Nat → Byte
/-- Output bytes of the DRBG, by generate call and place (R178). -/
opaque drbg : Nat → Nat → Byte
/-- SHA-384 (FIPS 180-4). -/
opaque sha384 : List Byte → List Byte
/-- ECDSA P-384 verification of r and s over a message under an uncompressed public key (FIPS 186-5). -/
opaque ecdsaVerify : List Byte → List Byte → List Byte → List Byte → Bool
/-- A parameter that a lane's 64-byte calibration seed gives: 0 CTLE, 1 to 12 DFE taps, 13 phase (R125). -/
opaque seedParam : List Byte → Nat → Int
/-- AES-KW unwrap under a 256-bit key (SP 800-38F); none on an integrity failure. -/
opaque kwUnwrap : List Byte → List Byte → Option (List Byte)
/-- AES-256-GCM decryption of key, IV, AAD, ciphertext and tag (SP 800-38D): plaintext and whether the tag verifies. -/
opaque gcmOpen : List Byte → List Byte → List Byte → List Byte → List Byte → List Byte × Bool
/-- The SPDM answer to a request in a negotiated version, over the measurements (DMTF SPDM 1.3, R180). -/
opaque spdmAnswer : Nat → List Byte → List (List Byte) → List Byte
/-- The fixed implementation of a function on binary32 values, whose error the manual only bounds by 2 ulp (R404):
0 sqrt, 1 exp, 2 ln, 3 sin, 4 cos, 5 tanh, 6 the normal distribution function of GELU; 7 stands for RELU of a NaN and
of -0, which the manual leaves open. -/
opaque fixedFn : Nat → BitVec 32 → BitVec 32
/-- The CRC-64 of a flit over its first 248 bytes; the manual leaves its bit order open (R558). -/
opaque crc64 : List Byte → Nat
/-- Decompression by the method code of the record: plaintext, or none on a format error (RFC 1950 to 1952, 8878). -/
opaque inflate : Nat → List Byte → Option (List Byte)

/-- Entry of the heat table for a table and row; the manual leaves the hash open (R465). -/
opaque heatHash : Nat → Nat → Nat

/-- The key that a composition list gives an ABSENT slot, by batch, shard and slot; the manual names none (R311). -/
opaque absentKey : Nat → Nat → Nat → Nat

/-- The decoders of ISO/IEC 10918-1, ISO/IEC 15948 and ITU-T H.265, uninterpreted (assumption log 3). The first argument
is the mode: the format (1 JPEG, 2 PNG, 3 H.265), plus 16 for length-prefixed NAL units, plus 32 with hash_check; the
second is the field's bytes. The header; none where a header or parameter set is missing, invalid or unsupported. -/
opaque mediaHead : Nat → List Byte → Option MediaHead
/-- A decoded and concealed component sample: scale, decoded pictures, frame, component, column and row, at the
component's own resolution. Component 3 is alpha. -/
opaque mediaSample : Nat → List Byte → Nat → List Nat → Nat × Nat × Nat × Nat → Nat
/-- Number of damaged regions of a frame (R360), and whether a region covers an output pixel: scale, decoded pictures,
frame; then region, column and row. -/
opaque mediaRegions : Nat → List Byte → Nat → List Nat → Nat → Nat
opaque mediaInRegion : Nat → List Byte → Nat → List Nat → Nat × Nat × Nat × Nat → Bool
/-- IDAT CRC failures, and picture-hash mismatches over the decoded pictures. -/
opaque pngCrcBad : List Byte → Nat
opaque hashBad : Nat → List Byte → List Nat → Nat
/-- The index pass: the pictures in decoding order; none where a parameter set or every IRAP is missing (R354). -/
opaque hevcIndex : Nat → List Byte → Option (List HPic)

/-- A sample of a CSI-2 line, by data type, payload bytes, pixel and component (MIPI CSI-2): the pixel packing of
RAW10 to RAW16, and Y, Cb, Cr of YUV422 with the chroma of each pixel pair. -/
opaque csiSample : Nat → List Byte → Nat → Nat → Nat

/-- A register of configuration space that the manual leaves to PCI Express and CXL (R615). -/
opaque cfgSpace : Nat → Nat

/-- Offset of the HDM decoder capability among the CXL component registers; the manual leaves their layout to CXL 3.1
(R622, R684). -/
opaque hdmCap : Nat
/-- Reset value of a CXL component register, and the bits of it that software can write, by offset (R622, R684). -/
opaque cxlReset : Nat → Nat
opaque cxlMask : Nat → Nat

end Sys2Proof.Config
end

