-- ==== Sys2Proof/Machine/StateDevice.lean ====
section
/-!
DEFINITION. State of the Vault, device memory and the host interface.
Field defaults are the values after cold reset (R12); what a fuse or a part fixes is a constant of Config.
-/

namespace Sys2Proof.Machine

/-- The one-time-programmable fuses (R158). -/
structure Fuses where
  /-- SHA-384 hashes of image signing keys, by slot; none while the slot is unwritten. -/
  imgKey : Tbl (Option (List Byte)) := []
  imgRevoked : Tbl Bool := []
  svn : Nat := 0
  ownerKey : List Byte := []
  ownerSet : Bool := false
  debugLock : Bool := false
  approved : Bool := false
  decommissioned : Bool := false
  deriving DecidableEq, Repr

/-- A LOADED dataset key (R171). -/
structure Key where
  key : List Byte
  kek : Nat
  dataset : Nat
  epoch : Nat
  records : Nat := 0
  deriving DecidableEq, Repr

/-- A dataset key slot (R171, R173). -/
structure KeySlot where
  gen : Nat := 0
  key : Option Key := none
  deriving DecidableEq, Repr

/-- One expanded-key entry of an ING key cache and the records pinned to it (R172, R175). -/
structure CachedKey where
  slot : Nat
  gen : Nat
  key : List Byte
  pins : Nat := 0
  deriving DecidableEq, Repr

/-- Roles of a session (R160); none is the unauthenticated role. -/
inductive Role where | co | user
  deriving DecidableEq, Repr

/-- One access path as the Vault sees it: its session, nonce, failures and mailbox (R161 to R164). -/
structure VPath where
  sess : Option Role := none
  nonce : Option (List Byte) := none
  /-- Spine cycle at which the nonce was drawn (R161). -/
  nonceAt : Nat := 0
  fails : Nat := 0
  locked : Bool := false
  busy : Bool := false
  status : Nat := 0
  deriving DecidableEq, Repr

/-- The Vault (chapter 7). -/
structure Vlt where
  state : VltState := .init
  fuses : Fuses := {}
  kek : Tbl (Option (List Byte)) := []
  keys : Tbl KeySlot := []
  /-- Generations by which every slot has advanced together, at zeroisations (R173). -/
  genOff : Nat := 0
  /-- The ING key caches (R175). -/
  cache : Tbl (List CachedKey) := []
  host : VPath := {}
  dbg : VPath := {}
  /-- Mailboxes with a request, in the order of their go writes (R164): false host, true debug. -/
  order : List Bool := []
  /-- Digest of the last accepted POLICY section (R169). -/
  policyDigest : Option (List Byte) := none
  /-- The accepted POLICY section, since the last cold start (R168). -/
  policy : Option (List Byte) := none
  pinEn : Bool := false
  /-- Latched tamper causes: bit 0 pin, 1 voltage, 2 clock, 3 temperature (R187). -/
  tamper : Nat := 0
  /-- A tamper event came while the main rail was down; its C3 fault is still to be raised (R183). -/
  tamperDue : Bool := false
  /-- The DRBG is instantiated (R178). -/
  seeded : Bool := false
  /-- Generate requests since the last reseed (R178). -/
  drbgReqs : Nat := 0
  /-- The SPDM version negotiated; 0 before GET_VERSION (R180). -/
  spdm : Nat := 0
  deriving DecidableEq, Repr

/-- MEM_STACK_STAT_s.state (R211). -/
inductive StackState where | off | training | ready | failed
  deriving DecidableEq, Repr

/-- One HBM stack (R192, R211). -/
structure Stack where
  state : StackState := .off
  temp : Nat := 0
  deriving DecidableEq, Repr

/-- A repair of a poisoned table row in progress (R204). -/
structure Repair where
  table : Nat
  version : Nat
  row : Nat
  addr : Nat
  bytes : Nat
  deriving DecidableEq, Repr

/-- A range of device memory whose contents the manual leaves undefined (R715, R283). The model's own field. -/
structure Wild where
  lo : Nat
  hi : Nat
  /-- Which loss of contents; the unlisted bytes are those that Config.freeByte gives it. -/
  seed : Nat
  deriving DecidableEq, Repr

/-- Device memory: bytes, poison, stacks and the scrubber (chapter 8). -/
structure Mem where
  /-- Bytes of HBM, Depot, Bays and Ledger store by device address, in the form of Host.Cell. -/
  bytes : List Host.Cell := []
  /-- Ranges whose unlisted bytes are undefined, the newest first (R715): at reset the Depot and the Bays. -/
  wild : List Wild := [{ lo := 0x40000000000, hi := 0x4004A000000, seed := 0 }, { lo := 0x50000000000, hi := 0x5000D800000, seed := 0 }]
  /-- Poison bits by 64-byte line number (R198). -/
  poison : Tbl Bool := []
  stack : Tbl Stack := []
  /-- Zero-fill done, by die * 65,536 + 2 MiB block (R193). -/
  init : Tbl Bool := []
  scrubPos : Nat := 0
  /-- Repairs waiting for their data (R204). -/
  repairs : List Repair := []
  deriving DecidableEq, Repr

/-- CXL.cache line states (R625). -/
inductive CcState where | shared | exclusive | modified
  deriving DecidableEq, Repr

/-- One line of the coherent cache (R625). -/
structure CcLine where
  st : CcState
  data : List Byte
  deriving DecidableEq, Repr

/-- A request of the cache that awaits its GO (R626). -/
structure CcPend where
  /-- RdOwn rather than RdShared. -/
  own : Bool
  snooped : Bool := false
  /-- Bytes to merge when the line arrives: offset and data, in order. -/
  merge : List (Nat × List Byte) := []
  deriving DecidableEq, Repr

/-- One entry of the eviction buffer (R627). -/
structure CcEvict where
  line : Nat
  data : List Byte
  forwarded : Bool := false
  deriving DecidableEq, Repr

/-- An outstanding host read (R618, R619). -/
structure HostRead where
  addr : Nat
  len : Nat
  /-- The task it serves, and the record of a FETCH. -/
  task : Option Nat
  record : Option Nat := none
  /-- The granted transfer it belongs to. -/
  xfer : Option Nat := none
  deriving DecidableEq, Repr

/-- The host interface (chapter 26). -/
structure Hif where
  training : Bool := false
  linkUp : Bool := false
  flit : Bool := false
  cxlCache : Bool := false
  cxlMem : Bool := false
  rate : Nat := 0
  width : Nat := 0
  /-- Configuration space: Bus Master Enable, Memory Space Enable, D3hot, MSI-X Enable, MSI-X Function Mask. -/
  bme : Bool := false
  mse : Bool := false
  d3hot : Bool := false
  msixEn : Bool := false
  msixMask : Bool := false
  /-- Max Payload Size and Max Read Request Size in bytes (R618). -/
  mps : Nat := 128
  mrrs : Nat := 512
  /-- BAR0 and BAR2 addresses as the host programs them (R616). -/
  bar0 : Nat := 0
  bar2 : Nat := 0
  /-- log2 of BAR2's size as last taken; 0 none (R616). -/
  bar2Log2 : Nat := 0
  /-- The BAR2 size has been taken since the cold start (R616). -/
  bar2Taken : Bool := false
  hdmCommitted : Bool := false
  hdmBase : Nat := 0
  hdmSize : Nat := 0
  /-- Pending bits by vector (R629). -/
  pba : Tbl Bool := []
  reads : Tbl (Option HostRead) := []
  nextTag : Nat := 0
  /-- Tags out of use after a timeout (R619). -/
  quarantine : List Nat := []
  cc : Tbl (Option CcLine) := []
  ccPend : Tbl (Option CcPend) := []
  evict : List CcEvict := []
  flushing : Bool := false
  /-- The DOE object in progress (R632). -/
  doe : Option (List Byte) := none
  /-- CXL component registers as written (R684). -/
  cxlRegs : Tbl Nat := []
  deriving DecidableEq, Repr

end Sys2Proof.Machine
end

