-- ==== Sys2Proof/Machine/StateSpine.lean ====
section
/-!
DEFINITION. State of the pins, the clock islands, power, start-up, staging, faults, telemetry, debug and queues.
Field defaults are the values after cold reset (R12).
-/

namespace Sys2Proof.Machine

/-- Levels at the reset, power and alert balls, and the straps held since the last cold reset (R44, R48, R51). -/
structure Pins where
  /-- PORST_N is high. -/
  porst : Bool := false
  perst : Bool := false
  mainPg : Bool := true
  mainPwrEn : Bool := true
  /-- THERMTRIP_N is driven low (R100). -/
  thermTrip : Bool := false
  /-- A standby rail is in range (R88). -/
  sby : Bool := true
  straps : Option Straps := none
  /-- The warm-reset drain of write-combining buffers is running (R49, R652). -/
  warmDrain : Bool := false
  /-- Levels of TRIG_OUT[3:0] (R520). -/
  trig : Nat := 0
  /-- ALERT_N held by the thermal cause (R99). -/
  alertTherm : Bool := false
  /-- ALERT_N held by the NO_IMAGE cause (R123). -/
  alertNoImage : Bool := false
  deriving DecidableEq, Repr

/-- One clock island: its codes and the state of its loop (R61 to R68). -/
structure Island where
  state : IslState := .off
  f : Nat := 0
  v : Nat := 0
  /-- Lowest CPM slack of the last 2 µs, in 1/64 period. -/
  slack : Int := 0
  target : Nat := 0
  /-- Codes by which the limit ceiling lies below nominal (R68). -/
  limitDrop : Nat := 0
  /-- Codes by which the power-cap ceiling lies below nominal (R101). -/
  capDrop : Nat := 0
  stretch : Bool := false
  droopThis : Bool := false
  droopPrev : Bool := false
  deriving DecidableEq, Repr

/-- The equaliser parameters of one receiver slice (R69). -/
structure Slice where
  /-- CTLE peaking; the built-in seed is mid-range (R126). -/
  ctle : Int := 0
  /-- The 12 DFE taps. -/
  dfe : List Int := List.replicate 12 0
  phase : Int := 0
  eyeH : Nat := 0
  eyeW : Nat := 0
  deriving DecidableEq, Repr

/-- One SerDes receive lane: main and shadow slices and loss of signal (R69 to R72). -/
structure Lane where
  main : Slice := {}
  shadow : Slice := {}
  /-- Average amplitude A in 2 mV units (R71, R78). -/
  amp : Nat := 0
  los : Bool := true
  recal : Bool := false
  swapDue : Bool := false
  deriving DecidableEq, Repr

/-- The clock islands, lanes and board clocks. -/
structure Clk where
  /-- AON and VLT run from the standby rail (R55). -/
  isl : Tbl Island := [(1, { state := .run, f := 1, target := 1 }), (2, { state := .run, f := 32, target := 32 })]
  lane : Tbl Lane := []
  /-- The voltage-to-frequency table in force, by island * 256 + frequency code; 60 where unlisted (R57, R61). -/
  vf : Tbl Nat := []
  /-- Loss-of-signal floor and ceiling by lane, floor * 256 + ceiling, in mV (R126, R127). -/
  losB : Tbl Nat := []
  /-- Equaliser seeds by lane (R69, R126). -/
  seed : Tbl Slice := []
  /-- Board clocks declared lost: SYS 0, PE 1, ETH 2, NG n at 3 + n (R60). -/
  lost : Tbl Bool := []
  deriving DecidableEq, Repr

/-- CLK_SD_CTL of every lane in generation 0: the loss-of-signal bounds in force, every other field zero (R77, R127). -/
def sdCfg (b : Tbl Nat) : Tbl Word :=
  (List.range 24).map (fun l =>
    (0x204000 + 0x40 * l, BitVec.ofNat 64 ((match b.find? (fun e => e.1 = l) with | some e => e.2 | none => 40 * 256 + 120) * 65536)))

/-- One switched power domain (R82). -/
structure Dom where
  state : DomState := .off
  /-- Power-off in progress: clamps, clocks and switches (R82). -/
  fallingOff : Bool := false
  /-- Requested on and waiting for its turn (R82). -/
  waiting : Bool := false
  /-- The region-map scan of an off request is running (R208). -/
  scan : Bool := false
  lastOff : LastOff := .none
  /-- Estimated power in 100 mW units (R103). -/
  power : Nat := 0
  deriving DecidableEq, Repr

/-- Power domains, thermal control, the power cap and sleep entry. -/
structure Pwr where
  dom : Tbl Dom := []
  cd0Temp : Int := 0
  cd1Temp : Int := 0
  iodTemp : Int := 0
  cd0Ceil : Nat := 80
  cd1Ceil : Nat := 80
  devPower : Nat := 0
  /-- PF_SENSE is below its trip and not rearmed (R96, R97). -/
  pfTripped : Bool := false
  /-- A journal flush runs for a power-fail trip (R96). -/
  pfFlush : Bool := false
  /-- Sleep entry has begun (R90). -/
  sleepEntry : Bool := false
  /-- A thermal trip has been taken (R100). -/
  tripped : Bool := false
  deriving DecidableEq, Repr

/-- Almanac: the real-time clock and sleep (R91 to R94). These survive main-rail loss. -/
structure Aon where
  /-- Whole seconds and ticks of 1/32,768 s (R94). -/
  rtc : Nat := 0
  rtcValid : Bool := false
  /-- The crystal has stopped; the clock holds its value (R94). -/
  oscStopped : Bool := false
  /-- Half-nanoseconds times 32,768 not yet counted as a tick. -/
  rtcAcc : Nat := 0
  asleep : Bool := false
  /-- Wake comparators that fired since AON_SLEEP was written (R93). -/
  firedSince : Nat := 0
  /-- The VDD_SBY tamper detector is armed (R697). -/
  sbyArmed : Bool := false
  /-- AON_WAKE_CFG and AON_WAKE_DIR as last committed; they keep their values through sleep (R106). -/
  wakeCfg : Word := 0
  wakeDir : Word := 0
  deriving DecidableEq, Repr

/-- One start-up program record (R116). -/
structure Rec where
  op : Nat
  rsvd : Nat
  arg : Nat
  off : Nat
  data : Nat
  deriving DecidableEq, Repr

/-- One section-table entry of the copy being run (R112), with its flash address. -/
structure Section where
  kind : Nat
  flags : Nat
  len : Nat
  target : Nat
  digest : List Byte
  addr : Nat
  deriving DecidableEq, Repr

/-- A flash command in progress (R129). -/
inductive FlOp where | read | program | erase | status
  deriving DecidableEq, Repr

/-- Start-up: the boot sequencer, the flash controller and the retained program. -/
structure Boot where
  state : BootState := .reset
  /-- 0 none, 1 A, 2 B. -/
  copy : Nat := 0
  cal : Nat := 0
  nvmMode : Nat := 0
  aRes : Nat := 0
  bRes : Nat := 0
  failRec : Nat := 0
  bootUs : Nat := 0
  /-- Time of the cold start or of its last restart (R134). -/
  startT : Nat := 0
  svn : Nat := 0
  imgVer : Nat := 0
  densLog2 : Nat := 0
  nvClkMhz : Nat := 0
  /-- The PROGRAM section held by the sequencer (R116). -/
  prog : List Rec := []
  sections : List Section := []
  pc : Nat := 0
  /-- Image-key slot that the copy being run names (R159). -/
  keySlot : Nat := 0
  /-- Header of the copy being run, for measurement 2 (R180). -/
  header : List Byte := []
  /-- CRC-32 and write count of the calibration region as read (R180). -/
  calInfo : List Byte := []
  /-- A program is retained from the last cold start (R124). -/
  retained : Bool := false
  /-- The program is being replayed after a warm reset (R124). -/
  replay : Bool := false
  /-- 900 ms have passed since the cold start (R122). -/
  crsEnd : Bool := false
  flBusy : Option FlOp := none
  /-- Flash address of the command in progress. -/
  flAddr : Nat := 0
  flResult : Nat := 0
  deriving DecidableEq, Repr

/-- The staging set, the commit in progress and the generations in force (R137 to R146). -/
structure Stg where
  state : StgState := .idle
  owner : Option Path := none
  result : StgResult := .none
  /-- Staged halves by BAR0 offset (R137). -/
  set : Tbl (Option Half) := []
  overflow : Bool := false
  /-- Register of the first write discarded for overflow (R148). -/
  ovReg : Nat := 0
  waitLimit : Nat := 0
  /-- Generation number and active configuration, newest first (R146). -/
  gens : List (Nat × Tbl Word) := [(0, sdCfg [])]
  rejOff : Nat := 0
  rejId : Nat := 0
  deriving DecidableEq, Repr

/-- FLT_UNIT_u.state (R658). -/
inductive UnitState where | healthy | fenced | recovering | permanent
  deriving DecidableEq, Repr

/-- One unit as FLT sees it (R637, R658). -/
structure FUnit where
  state : UnitState := .healthy
  cls : Nat := 0
  /-- The health pair as sampled; healthy is 0b01. -/
  pair : Nat := 1
  /-- Spine cycles at which the unit was fenced, newest first (R645). -/
  times : List Nat := []
  code : Nat := 0
  /-- FLT_INJECT drives the pair; the fault is still to be confirmed (R658). -/
  inj : Bool := false
  deriving DecidableEq, Repr

/-- FLT_STAT.state (R658), DEGRADED being computed from the units. -/
inductive FltState where | normal | degraded | c2Recovery | stopped
  deriving DecidableEq, Repr

/-- A Ledger report as an engine makes it (R307). -/
structure Report where
  ticket : Nat
  stage : Nat
  /-- A fault indication, with its cause (R298). -/
  fault : Bool
  cause : Nat
  /-- damage_bp, in units of 0.01 %. -/
  damage : Nat
  deriving DecidableEq, Repr

/-- A Nguorn message before it is laid out in flits (R569). -/
structure Msg where
  /-- Device or endpoint ID of the destination. -/
  dst : Nat
  /-- The destination is an endpoint. -/
  toEp : Bool
  type : Nat
  /-- The bytes after the common header. -/
  payload : List Byte
  /-- The poisoned flag of the common header. -/
  poison : Bool := false
  deriving DecidableEq, Repr

/-- An external effect held at the release gate (R641). -/
inductive Eff where
  | report (r : Report)
  | msg (m : Msg)
  deriving DecidableEq, Repr

/-- Faults: units, the log, the release gate and the device's fault state. -/
structure Flt where
  state : FltState := .normal
  coldReq : Bool := false
  unit : Tbl FUnit := []
  /-- Fault-log entries by slot, 32 bytes each (R653). -/
  log : Tbl (List Byte) := []
  tail : Nat := 0
  /-- Unit and spine cycle of the last C1, C2 or C3 fault (R649). -/
  last : Option (Nat × Nat) := none
  /-- Log sequence number of that fault's entry, while it may still take the void flag (R650). -/
  lastSeq : Option Nat := none
  first : List Byte := []
  firstValid : Bool := false
  /-- Effects held at the release gate with their unit, oldest first (R641). -/
  gate : List (Nat × Eff) := []
  /-- TEL values are untrusted until the next reset (R639). -/
  telUntrusted : Bool := false
  deriving DecidableEq, Repr

/-- Phases of TEL_BIST_STAT (R681). -/
inductive BistPhase where | idle | wait | drain | test
  deriving DecidableEq, Repr

/-- A trace record waiting in the trace queue, before seq is given (R664, R665). -/
structure TraceRec where
  time : Nat
  type : Nat
  unit : Nat
  data : List Byte
  deriving DecidableEq, Repr

/-- Telemetry: the trace, the self-test request and the cycle accounting phase. -/
structure Tel where
  /-- Trace buffer by record slot (R666). -/
  buf : Tbl (List Byte) := []
  queue : List TraceRec := []
  seq : Nat := 0
  /-- Records written since run last rose (R666). -/
  sinceRun : Nat := 0
  /-- Records lost and not yet reported by a GAP (R665). -/
  lostRun : Nat := 0
  full : Bool := false
  frozen : Bool := false
  /-- Records still to write before the freeze takes hold (R666). -/
  postLeft : Option Nat := none
  bistBusy : Bool := false
  bistPhase : BistPhase := .idle
  bistStatus : Nat := 0
  bistPassed : Bool := false
  bistRecal : Nat := 0
  /-- Outcome of the recalibration joined by a request, once it is known (R670). -/
  recalOut : Nat := 0
  bistStep : Nat := 0
  /-- Instances in the scope of the test (R668). -/
  scope : List Nat := []
  /-- The island of an island test; 0 for an instance test. -/
  bistIsl : Nat := 0
  /-- The lane of a SERDES_RECAL request. -/
  bistLane : Option Nat := none
  /-- Instances made ineligible for issue by a drain (R669). -/
  inelig : List Nat := []
  deriving DecidableEq, Repr

/-- DBG_HALT_STAT_n.state (R682). -/
inductive HaltState where | running | halting | halted
  deriving DecidableEq, Repr

/-- TAP instructions (R676). -/
inductive TapInstr where | idcode | samplePreload | extest | clamp | highz | bypass
  deriving DecidableEq, Repr

/-- Debug: instance halts, the TAP and the access in progress. -/
structure Dbg where
  halt : Tbl HaltState := []
  tap : TapInstr := .idcode
  /-- The boundary register, one value per covered ball (R676). -/
  boundary : List Bool := []
  /-- Tag of a request whose answer is not ready (R673). -/
  waiting : Option Nat := none
  deriving DecidableEq, Repr

/-- Queue states, coded as GLB_Q_STAT_q.state (R216). -/
inductive QState where | disabled | active | stopped
  deriving DecidableEq, Repr

/-- One command queue (R216). -/
structure Queue where
  state : QState := .disabled
  head : Nat := 0
  tail : Nat := 0
  cplTail : Nat := 0
  cplHead : Nat := 0
  /-- Index of the oldest unissued command (R224). -/
  issuePt : Nat := 0
  inFlight : Nat := 0
  /-- Fetched, unissued commands from the issue point on: read poisoned, and the 16 words (R223). -/
  fetched : List (Bool × List Nat) := []
  /-- Aborted commands whose records wait for room: index, tag, irq bit (R221, R241). -/
  aborted : List (Nat × Nat × Bool) := []
  irqPend : Bool := false
  /-- The hold-off since the last message is still running (R242). -/
  holdoff : Bool := false
  deriving DecidableEq, Repr

/-- The result an engine leaves for one stage (R239, R243). -/
structure Res where
  status : Nat := 0
  detail : Nat := 0
  result : Nat := 0
  reports : List Report := []
  deriving DecidableEq, Repr

/-- One stage of an issued command: where it runs and what it was given (R231 to R233). -/
structure Stage where
  kind : Nat
  op : Nat
  /-- Bay number of the instance (R189). -/
  inst : Nat
  /-- The 16 words of the command or of the stage block. -/
  words : List Nat
  res : Option Res := none
  /-- Descriptors beyond stream descriptors that the stage copied at issue, as numbers (R248, R538). -/
  aux : List Nat := []
  /-- Key of the stage's principal output (R274). -/
  out : Nat := 0
  /-- Key of the stage's parameter stream, where it names one (R291). -/
  par : Option Nat := none
  /-- Ranges of the instance's Bay that the stage's buffers occupy: offset and length (R282). -/
  bufs : List (Nat × Nat) := []
  /-- Bay tiles of the stage and how many have completed (R275, R285). -/
  nTiles : Nat := 0
  tiles : Nat := 0
  /-- Hand-off slots toward the next stage, and whether this stage keeps the previous slot (R287, R289). -/
  slots : Nat := 0
  keepPrev : Bool := false
  /-- What the stage handed to the next one, by visit number (R287). -/
  handoff : List (List Byte) := []
  /-- Working data the stage keeps between its steps, by kind (R327, R480, R495). -/
  work : List Nat := []
  deriving DecidableEq, Repr

/-- An issued command until its record is written (R224 to R240). -/
structure Task where
  queue : Nat
  index : Nat
  tag : Nat
  words : List Nat
  gen : Nat
  stages : List Stage
  /-- Held because its completion ring is full (R241). -/
  stalled : Bool := false
  /-- Started on its first instance (R83). -/
  started : Bool := false
  /-- The wait limit of the command has passed (R327, R480, R527). -/
  waitOver : Bool := false
  /-- Deadline for streams of tte_source DEADLINE, in ns (R259). -/
  deadline : Nat := 0
  deriving DecidableEq, Repr

/-- Queues, semaphores and task tables. -/
structure Que where
  q : Tbl Queue := []
  /-- Issued, uncompleted commands by task number. -/
  tasks : Tbl (Option Task) := []
  nextTask : Nat := 0
  /-- Per kind, the queue issued last (R225). -/
  lastIssued : Tbl Nat := []
  /-- Commands that FLT took off a fenced instance and that wait for a sibling (R643). -/
  reissue : List Nat := []
  deriving DecidableEq, Repr

end Sys2Proof.Machine
end

