-- ==== Sys2Proof/Machine/StateEngines.lean ====
section
/-!
DEFINITION. State of the engine kinds: tables and their versions, sequences, delivery, sensors and the Azimuth port.
Field defaults are the values after cold reset (R12).
-/

namespace Sys2Proof.Machine

/-- State of a version slot (R470). -/
inductive VerState where | free | current | retiring
  deriving DecidableEq, Repr

/-- One version slot of a table (R450, R470). -/
structure GthVer where
  state : VerState := .free
  version : Nat := 0
  base : Nat := 0
  /-- Host copy: bit 0 valid, bits 63:1 the address (R469). -/
  host : Nat := 0
  deriving DecidableEq, Repr

/-- One remap-list entry (R463). -/
structure Remap where
  table : Nat
  version : Nat
  row : Nat
  deriving DecidableEq, Repr

/-- An outstanding GATHER_REQ (R458 to R460). -/
structure GthReq where
  task : Nat
  stage : Nat
  /-- Linear positions of the indices asked for, in order. -/
  poss : List Nat
  bag : Nat
  home : Nat
  /-- 0 ROWS, 1 POOL, 2 POOL_WEIGHTED. -/
  mode : Nat
  table : Nat
  version : Nat
  deriving DecidableEq, Repr

/-- A read slot of a GTH instance (R460). -/
structure ReadSlot where
  gen : Nat := 0
  /-- A timed-out slot waits a further remote_us (R460). -/
  quar : Bool := false
  req : Option GthReq := none
  deriving DecidableEq, Repr

/-- What a lookup obtained: a row, a substitution with its cause, or poison without repair (R456, R460, R463). -/
inductive Got where
  | row (b : List Byte)
  | sub (cause : Nat)
  | fault
  /-- The read cannot be made: its status (R253). -/
  | err (status : Nat)
  deriving DecidableEq, Repr

/-- The lookups of a gather stage (R457 to R463). -/
structure Fetch where
  task : Nat
  stage : Nat
  got : Tbl (Option Got) := []
  /-- Partials returned by owners: bag, home, sum by element (R458). -/
  parts : List (Nat × Nat × List Nat) := []
  /-- Positions that wait for a repair (R463). -/
  waits : List Nat := []
  /-- Positions served from the hot area, of remote rows, and whose partial was asked for (R468, R471). -/
  hot : List Nat := []
  remote : List Nat := []
  pooled : List Nat := []
  /-- Positions already counted in the heat table (R465). -/
  heated : List Nat := []
  deriving DecidableEq, Repr

/-- Gather (chapter 19). -/
structure Gth where
  /-- Version slots by table * 4 + slot. -/
  ver : Tbl GthVer := []
  remap : Tbl (Option Remap) := []
  /-- Read slots by instance * 4,096 + slot. -/
  slots : Tbl ReadSlot := []
  /-- Gather stages at work. -/
  fetch : List Fetch := []
  /-- Lookups per heat-table entry in the current window (R465). -/
  heat : Tbl Nat := []
  deriving DecidableEq, Repr

/-- A read of GLB_AZM_OUT held until a block is ready (R444). -/
structure HeldRead where
  /-- Blocks still to finish. -/
  left : Nat
  path : Path
  off : Nat
  size : Nat
  /-- An answer is still awaited; the debug transport gives up after 1 ms (R673). -/
  wanted : Bool := true
  deriving DecidableEq, Repr

/-- The Azimuth test port (R443, R444). -/
structure Azm where
  /-- Blocks being computed: latched key and counter words, first to finish first. -/
  jobs : List (List Nat × List Nat) := []
  out : List Nat := [0, 0, 0, 0]
  held : List HeldRead := []
  deriving DecidableEq, Repr

/-- A field of a pipeline's layout block (R488). -/
structure PakField where
  packed : Bool
  tokBytes : Nat
  maxRows : Nat
  size : Nat
  rowLen : Nat
  padId : Nat
  deriving DecidableEq, Repr

/-- A pipeline's layout as PAK read it (R490). -/
structure PakPipe where
  fields : List PakField := []
  /-- The layout has been read and passed; it did not pass; its read is due. -/
  ready : Bool := false
  bad : Bool := false
  due : Bool := false
  deriving DecidableEq, Repr

/-- A build buffer out of its pool (R491). -/
structure PakBuf where
  /-- Open-batch entry it belongs to. -/
  entry : Nat
  addr : Nat
  /-- The batch has been delivered or freed. -/
  gone : Bool := false
  /-- Commands that resolved a ticket into it and have no record yet. -/
  users : List Nat := []
  deriving DecidableEq, Repr

/-- One entry of a composition list (R311). -/
structure Comp where
  key : Nat
  status : Nat
  cause : Nat := 0
  replaced : Nat := 0
  deriving DecidableEq, Repr

/-- A closed batch until it is delivered (R496 to R503). -/
structure PakBatch where
  pipe : Nat
  id : Nat
  addr : Nat
  fields : List PakField
  batchSize : Nat
  comp : List Comp
  substituted : Nat
  masked : Nat
  dropped : Nat
  /-- Bay of the instance that builds or offers it. -/
  inst : Option Nat := none
  built : Bool := false
  /-- Offers started. -/
  offers : Nat := 0
  /-- Byte ranges of the image that belong to each entry: offset and length (R505). -/
  ranges : List (List (Nat × Nat)) := []
  deriving DecidableEq, Repr

/-- The offer a destination has in progress (R502). -/
structure Offer where
  entry : Nat
  dsn : Nat
  /-- Every page has been handed on. -/
  sent : Bool := false
  deriving DecidableEq, Repr

/-- A destination of a pipeline: an endpoint-table entry, or its host ring (R501). -/
structure Dest where
  dsn : Nat := 0
  /-- Open-batch entries waiting for an offer, first in, first out. -/
  queue : List Nat := []
  cur : Option Offer := none
  deriving DecidableEq, Repr

/-- One record of a FETCH, from the taking of its admission entry on (R327 to R330). -/
structure IngRec where
  task : Nat
  idx : Nat
  /-- Bay of the instance, and the pipeline. -/
  inst : Nat
  pipe : Nat
  /-- The 16-byte admission entry. -/
  entry : List Byte
  /-- The 64-byte manifest entry, once the record has started. -/
  man : List Byte := []
  started : Bool := false
  /-- The record waits for an entry of the key cache (R175). -/
  keyWait : Bool := false
  /-- Slot and generation of the key the record is pinned to (R172). -/
  pin : Option (Nat × Nat) := none
  /-- NVMe-oF Reads not yet sent, none before their number is known, and those without a response (R335). -/
  toSend : Option Nat := none
  left : Nat := 0
  /-- Plaintext and information entry of a finished record. -/
  done : Option (List Byte × List Byte) := none
  deriving DecidableEq, Repr

/-- Ingress (chapter 13). -/
structure Ing where
  recs : List IngRec := []
  /-- Reads sent so far, for the alternation between two connections (R341). -/
  turn : Nat := 0
  deriving DecidableEq, Repr

/-- The Packer (chapter 21). -/
structure Pak where
  pipe : Tbl PakPipe := []
  /-- Build buffers by pipeline * 4,096 + buffer. -/
  buf : Tbl (Option PakBuf) := []
  /-- Closed batches by open-batch entry. -/
  batch : Tbl (Option PakBatch) := []
  /-- Destinations by pipeline * 16,384 + endpoint-table entry. -/
  dest : Tbl Dest := []
  /-- Step pages sent so far per endpoint, and who sent the ones still held: endpoint, counter, Bay (R495, R571). -/
  stepCtr : Tbl Nat := []
  steps : List (Nat × Nat × Nat) := []
  /-- Report records written per pipeline (R506). -/
  rpt : Tbl Nat := []
  deriving DecidableEq, Repr

end Sys2Proof.Machine
end

