-- ==== Sys2Proof/Machine/StateFlow.lean ====
section
/-!
DEFINITION. State of streams, parameter banks, instances and the Sample Ledger.
Field defaults are the values after cold reset (R12).
-/

namespace Sys2Proof.Machine

/-- A stream descriptor as copied into the active stream state (R246, R248). -/
structure Desc where
  start : Nat := 0
  /-- Signed byte strides of dimensions 0 to 4. -/
  strides : List Int := []
  counts : List Nat := []
  elem : Nat := 0
  space : Nat := 0
  write : Bool := false
  subPrio : Nat := 0
  deadline : Bool := false
  noMerge : Bool := false
  acc : Nat := 0
  endpoint : Nat := 0
  rateHint : Nat := 0
  rateCap : Nat := 0
  burstKib : Nat := 0
  /-- Signed offset of the reference (R245). -/
  offset : Int := 0
  deriving DecidableEq, Repr

/-- The oldest waiting transfer of a stream, once presented for arbitration (R255, R262). -/
structure Waiting where
  q : Nat
  /-- Order of presentation. -/
  seq : Nat
  /-- Recomputations passed while waiting. -/
  windows : Nat := 0
  /-- Bridge directions on its way that have granted it (R261). -/
  bridged : Nat := 0
  deriving DecidableEq, Repr

/-- An active stream (R248, R256, R257). -/
structure Strm where
  task : Nat
  stage : Nat
  /-- Which reference of the stage it is. -/
  key : Nat
  desc : Desc
  /-- Transfers already granted. -/
  cursor : Nat := 0
  presented : Option Waiting := none
  level : Nat := 0
  /-- Rate with 16 fraction bits (R257). -/
  rate : Nat := 0
  bucket : Nat := 0
  /-- Bytes moved in the current window (R257). -/
  moved : Nat := 0
  /-- The stream has been granted every transfer it has. -/
  ended : Bool := false
  /-- Only the counts matter: a hand-off takes the place of the stream (R274). -/
  shape : Bool := false
  deriving DecidableEq, Repr

/-- A granted transfer that has not yet ended (R255). -/
structure Xfer where
  stream : Nat
  queue : Nat
  addr : Int
  len : Nat
  deriving DecidableEq, Repr

/-- One parameter bank of an instance (R291). -/
structure Bank where
  addr : Int
  bytes : Nat
  /-- Offset of the bank in the instance's Bay (R282). -/
  off : Nat
  /-- The load met no error, so that the set may be reused (R293). -/
  good : Bool := false
  loaded : Bool := false
  /-- Tasks using the set. -/
  users : List Nat := []
  deriving DecidableEq, Repr

/-- One engine instance: its current task, late-data state and parameter banks (R264, R291). -/
structure Inst where
  cur : Option Nat := none
  banks : List (Option Bank) := [none, none]
  /-- Tasks waiting for a parameter bank, in issue order (R292). -/
  waitBank : List Nat := []
  /-- Cycles of the island not yet counted, in units of 25 MHz (R663). -/
  phase : Nat := 0
  /-- A YIELD switch is in progress: instance cycles left (R264). -/
  switching : Nat := 0
  deriving DecidableEq, Repr

/-- Streams, transfers and instances (chapters 10 and 11). -/
structure Str where
  strm : Tbl (Option Strm) := []
  nextStrm : Nat := 0
  xfer : Tbl (Option Xfer) := []
  nextXfer : Nat := 0
  seq : Nat := 0
  inst : Tbl Inst := []
  deriving DecidableEq, Repr

/-- Context states, coded as gen_state bits 14:11 (R298, R299). -/
inductive CtxState where | free | active | complete | corrupt | packed
  deriving DecidableEq, Repr

/-- A Ledger context (R298). -/
structure Ctx where
  key : Nat := 0
  gen : Nat := 0
  state : CtxState := .free
  reserve : Bool := false
  pipe : Nat := 0
  done : Nat := 0
  batchRef : Nat := 0
  slot : Nat := 0
  pin : Nat := 0xFFFF
  damage : Nat := 0
  cause : Nat := 0
  stage : Nat := 0
  admitUs : Nat := 0
  link : Option Nat := none
  deriving DecidableEq, Repr

/-- Pipeline states, coded as LDG_PIPE_STAT_p.state (R320). -/
inductive PipeState where | disabled | running | epochEnd
  deriving DecidableEq, Repr

/-- A pipeline's run state (R306, R320). -/
structure Pipe where
  state : PipeState := .disabled
  epoch : Nat := 0
  next : Nat := 0
  curPin : Nat := 0xFFFF
  /-- Admission entries written and taken, free-running (R306, R326). -/
  admTail : Nat := 0
  admHead : Nat := 0
  /-- Entries taken by FETCH commands and not yet given up (R327, R330). -/
  admOut : Nat := 0
  /-- The next batch waits for contexts, and that wait has been counted (R306). -/
  ctxWait : Bool := false
  /-- The journal does not yet name the epoch (R315). -/
  epochDue : Bool := true
  /-- A version switch waits for a free pin set (R313). -/
  pinWait : List (Nat × Nat) := []
  deriving DecidableEq, Repr

/-- An open batch: its slots with their contexts, none where the entry is exhausted (R305, R306, R310). -/
structure Batch where
  pipe : Nat
  epoch : Nat
  num : Nat
  /-- Main slots in order: shard and context. -/
  mains : List (Nat × Option Nat)
  /-- Reserves in order: shard and context. -/
  reserves : List (Nat × Option Nat)
  sampleMs : Nat
  closed : Bool := false
  /-- Main slots that found no reserve left (R309). -/
  missed : List Nat := []
  deriving DecidableEq, Repr

/-- A pin set: tables with versions, and the contexts that name it (R313). -/
structure PinSet where
  tables : List (Nat × Nat) := []
  count : Nat := 0
  deriving DecidableEq, Repr

/-- Why a journal flush runs (R317). -/
inductive FlushCause where | powerFail | sleep | thermal | warm | c2 | c3
  deriving DecidableEq, Repr

/-- The Sample Ledger (chapter 12). -/
structure Ldg where
  /-- Every context is FREE and admission may begin (R300). -/
  initDone : Bool := false
  ctx : Tbl Ctx := []
  /-- Free list: every slot from here up is free, in order, ahead of the slots freed since the last rebuild. -/
  freeLo : Nat := 0
  freed : List Nat := []
  pipe : Tbl Pipe := []
  lastAdmit : Nat := 255
  batch : Tbl (Option Batch) := []
  pins : Tbl PinSet := []
  seq : Nat := 0
  /-- Journal entries not yet written (R316). -/
  queue : List (List Byte) := []
  /-- Entries written to the ring since it was configured. -/
  ringIdx : Nat := 0
  /-- Retention buffer by entry, on the standby rail (R316). -/
  ret : Tbl (List Byte) := []
  retValid : Bool := true
  flush : Option FlushCause := none
  /-- Admission is stopped by sleep entry, C2 or C3. -/
  stopped : Bool := false
  deriving DecidableEq, Repr

end Sys2Proof.Machine
end

