-- ==== Sys2Proof/Machine/StateLinks.lean ====
section
/-!
DEFINITION. State of the Nguorn ports, the shuffle domain, the Ethernet ports and NVMe-oF connections.
Field defaults are the values after cold reset (R12).
-/

namespace Sys2Proof.Machine

/-- NGL_PORT_STAT_p.state (R583). -/
inductive PortState where
  | disabled | detect | pmdTrain | fecLock | flitSync | param | active | retrain
  deriving DecidableEq, Repr

/-- A flit kept for retry: sequence number, channel and payload bytes (R560, R562). -/
structure Flit where
  seq : Nat
  vc : Nat
  data : List Byte
  sends : Nat := 1
  deriving DecidableEq, Repr

/-- What a partner announced in its INIT flits (R557). -/
structure Peer where
  kind : Nat
  id : Nat
  port : Nat
  /-- Endpoints of a trainer. -/
  count : Nat
  deriving DecidableEq, Repr

/-- One Nguorn port (chapter 24). -/
structure Port where
  state : PortState := .disabled
  cause : Nat := 0
  /-- RETRAIN attempts failed (R556). -/
  attempts : Nat := 0
  /-- The state RETRAIN has reached: FEC_LOCK 0, FLIT_SYNC 1, PARAM 2. -/
  sub : Nat := 0
  peer : Option Peer := none
  /-- The peer's INIT has been received since PARAM began; its seen bit was set; an INIT with seen set was sent. -/
  gotInit : Bool := false
  peerSeen : Bool := false
  sentSeen : Bool := false
  /-- Slots since PARAM began (R556). -/
  slot : Nat := 0
  /-- Flits sent and not yet acknowledged, oldest first (R562). -/
  retry : List Flit := []
  nextSeq : Nat := 0
  /-- Sequence number expected next, and whether one was accepted (R560, R561). -/
  expected : Nat := 0
  ackValid : Bool := false
  /-- A NAK is to be sent in the next free slot; the expected number it was first sent for (R560). -/
  nakDue : Bool := false
  nakFor : Option Nat := none
  /-- Index in the retry buffer from which a replay runs (R562). -/
  replay : Option Nat := none
  /-- DATA flits first sent per virtual channel since ACTIVE (R567). -/
  sent : List Nat := [0, 0, 0, 0]
  /-- Credits the peer advertised, and the latest cumulative count it freed, per channel (R567). -/
  adv : List Nat := [0, 0, 0, 0]
  freed : List Nat := [0, 0, 0, 0]
  /-- Messages waiting for transmission per virtual channel; the first may be partly sent (R565). -/
  tx : List (List (List Byte)) := [[], [], [], []]
  /-- CTRL messages not known delivered, with the number of their last flit once wholly sent (R564). -/
  ctrl : List (List Byte × Option Nat) := []
  /-- Bytes accepted and not yet consumed, and bytes consumed since ACTIVE, per channel (R567, R568). -/
  rx : List (List Byte) := [[], [], [], []]
  eaten : List Nat := [0, 0, 0, 0]
  /-- Weighted round robin: channel being served and slots left in its turn (R566). -/
  rrVc : Nat := 3
  rrLeft : Nat := 0
  deriving DecidableEq, Repr

/-- A message taken off a port and not yet acted on (R570). -/
structure RxMsg where
  port : Nat
  type : Nat
  poison : Bool
  /-- Source: an endpoint or a device, and its ID. -/
  srcEp : Bool
  src : Nat
  /-- The bytes after the common header. -/
  body : List Byte
  deriving DecidableEq, Repr

/-- A message that waits for an ACTIVE member of its trunk (R580, R588). -/
structure WaitMsg where
  unit : Nat
  msg : Msg
  deriving DecidableEq, Repr

/-- NGL_DOM_STAT.state (R612). -/
inductive DomRole where | out | joining | isIn | claiming | root | deposed
  deriving DecidableEq, Repr

/-- NGL_FAB_PULL_STAT_s (R612). -/
inductive PullState where | idle | busy | done | failed
  deriving DecidableEq, Repr

/-- One table pull (R608). -/
structure Pull where
  state : PullState := .idle
  reason : Nat := 0
  /-- What the pull asks: device, table, version, first row, count, destination; and the row stride once a chunk told. -/
  dev : Nat := 0
  table : Nat := 0
  version : Nat := 0
  first : Nat := 0
  count : Nat := 0
  dest : Nat := 0
  /-- Rows written so far. -/
  rows : Nat := 0
  deriving DecidableEq, Repr

/-- The shuffle domain and its services (chapter 25). -/
structure Domn where
  state : DomRole := .out
  heldRoot : Nat := 0
  heldTerm : Nat := 0
  rootHeld : Bool := false
  lease : Bool := false
  /-- Current token: epoch and step; none before one is held (R591, R593). -/
  token : Option (Nat × Nat) := none
  /-- Issue time and deadline of the token this root issued, in ns (R591). -/
  tokenT : Nat := 0
  deadline : Nat := 0
  /-- The deadline of the current step has been counted (R591). -/
  late : Bool := false
  lateEp : Nat := 0
  /-- Endpoint-table entries whose STEP_DONE for the current step has arrived (R591). -/
  doneEps : List Nat := []
  /-- Members that acknowledged the claim, and the latest step they reported (R596). -/
  acks : List Nat := []
  best : Option (Nat × Nat) := none
  /-- A claim has been sent for the current term (R596). -/
  claimed : Bool := false
  /-- Members known to have left (R602). -/
  left : List Nat := []
  pull : Tbl Pull := []
  /-- Destinations found unreachable: a device ID, or 2,048 + an endpoint ID (R588). -/
  unreach : List Nat := []
  /-- Round-trip times of the latest echoes in ns, newest first (R604). -/
  rtts : List Nat := []
  echoTok : Nat := 0
  /-- Echo awaiting its answer: token and time sent. -/
  echoSent : Option (Nat × Nat) := none
  deriving DecidableEq, Repr

/-- One address-resolution entry (R333). -/
structure ArpEntry where
  mac : Option Nat := none
  /-- Requests sent for it without a reply. -/
  tries : Nat := 0
  deriving DecidableEq, Repr

/-- One Ethernet port (R332, R333). -/
structure EthPort where
  up : Bool := false
  /-- Priority flow control holds the port's priority; the frames held with it, oldest first (R332). -/
  paused : Bool := false
  held : List (String × List Byte) := []
  /-- Resolution entries by next-hop address. -/
  arp : Tbl (Option ArpEntry) := []
  deriving DecidableEq, Repr

/-- State of an NVMe-oF connection over one port (R335). -/
inductive ConnState where | none | resolving | connecting | ready
  deriving DecidableEq, Repr

/-- An outstanding NVMe-oF Read (R335, R336). -/
structure NvmeRead where
  task : Nat
  record : Nat
  /-- Timed out: its chunk and identifier are quarantined (R336). -/
  quar : Bool := false
  deriving DecidableEq, Repr

/-- One NVMe-oF connection with its RoCE v2 queue pair (R334 to R336). -/
structure Conn where
  state : ConnState := .none
  /-- Outstanding Reads by command identifier. -/
  reads : Tbl (Option NvmeRead) := []
  /-- LBA sizes of the namespaces the target identified (R335). -/
  ns : List (Nat × Nat) := []
  /-- Expected packet sequence number, the next one to send, and requests sent unacknowledged (R334). -/
  rxPsn : Nat := 0
  txPsn : Nat := 0
  unacked : Nat := 0
  /-- Transport retries and receiver-not-ready retries since the last acknowledgement. -/
  retries : Nat := 0
  rnrs : Nat := 0
  /-- Fabric time of the last congestion notification, in ns. -/
  lastCnp : Option Nat := .none
  deriving DecidableEq, Repr

/-- Ethernet ports and NVMe-oF connections, by target * 2 + port. -/
structure Eth where
  port : Tbl EthPort := []
  conn : Tbl Conn := []
  deriving DecidableEq, Repr

/-- Nguorn ports and the fabric. -/
structure Ngl where
  port : Tbl Port := []
  /-- Messages received and not yet acted on, oldest first (R570). -/
  inbox : List RxMsg := []
  wait : List WaitMsg := []
  dom : Domn := {}
  deriving DecidableEq, Repr

end Sys2Proof.Machine
end

