-- ==== Sys2Proof/Machine/StateSen.lean ====
section
/-!
DEFINITION. State of fabric time and of live sensor ingress (chapter 22).
Field defaults are the values after cold reset (R12).
-/

namespace Sys2Proof.Machine

/-- SEN_TIME_STAT.state (R530). -/
inductive ServoState where | freeRun | locking | locked | holdover
  deriving DecidableEq, Repr

/-- The servo that disciplines fabric time (R518). -/
structure Servo where
  state : ServoState := .freeRun
  blocked : Bool := false
  /-- Spine cycles spent in HOLDOVER. -/
  holdC : Nat := 0
  /-- Last offset in ns. -/
  offset : Int := 0
  /-- Consecutive Sync messages with an offset below 1 µs. -/
  good : Nat := 0
  /-- What is left to slew, in half nanoseconds, and cycles since the last half nanosecond was slewed. -/
  slew : Int := 0
  slewC : Nat := 0
  deriving DecidableEq, Repr

/-- A ring configuration of a layer (R516). -/
structure Ring where
  base : Nat
  slots : Nat
  slotBytes : Nat
  latch : Nat
  deriving DecidableEq, Repr

/-- A layer frame, open or closed (R513, R514). -/
structure SFrame where
  layer : Nat
  /-- Number of the frame: frames started on the layer, itself included. -/
  no : Nat
  /-- The frame number of its Frame Start packet. -/
  csi : Nat := 0
  ring : Ring
  slot : Nat
  ts : Nat
  fallback : Bool
  /-- Lines taken so far, and those that are damaged. -/
  lines : Nat := 0
  bad : Nat := 0
  /-- The last good line taken. -/
  good : Option Nat := none
  latched : Bool := false
  deriving DecidableEq, Repr

/-- One layer (R512 to R516). -/
structure Layer where
  openF : Option SFrame := none
  /-- The ring in use, and the ring taken at the latest latch with its late mark. -/
  ring : Option Ring := none
  next : Option (Ring × Bool) := none
  /-- The latest commit of the ring came at or after the latch of the latest frame. -/
  late : Bool := false
  ptr : Nat := 0
  frames : Nat := 0
  ringFrame : Nat := 0
  ringLate : Bool := false
  deriving DecidableEq, Repr

/-- One member of a fused frame (R522). -/
structure Member where
  frame : Option SFrame := none
  stale : Bool := false
  age : Nat := 0
  deriving DecidableEq, Repr

/-- A fused frame in its group's ring (R523, R524). -/
structure Fused where
  seq : Nat
  ticket : Nat
  /-- B_k in ns. -/
  at' : Int
  members : List Member
  /-- Members whose consumed bit is set. -/
  consumed : List Nat := []
  deriving DecidableEq, Repr

/-- One fusion group (R521 to R524). -/
structure Group where
  /-- Next boundary number k; none until the group is enabled. -/
  next : Option Int := none
  seq : Nat := 0
  /-- Closed frames waiting for the close of their window. -/
  cands : List SFrame := []
  /-- HOLD_LAST source of each member. -/
  src : Tbl (Option SFrame) := []
  ring : List Fused := []
  deriving DecidableEq, Repr

/-- Fused frames that a CAPTURE took and has no record for (R515, R527). -/
structure Taken where
  task : Nat
  group : Nat
  member : Nat
  seq : Nat
  frame : Option SFrame
  deriving DecidableEq, Repr

/-- One trigger output (R520). -/
structure Trig where
  /-- Fabric time from which its schedule counts: the apply instant of its configuration. -/
  since : Nat := 0
  /-- Width and polarity of the pulse in progress. -/
  pulse : Option (Nat × Bool) := none
  deriving DecidableEq, Repr

/-- Live sensor ingress. -/
structure Sen where
  layer : Tbl Layer := []
  group : Tbl Group := []
  taken : List Taken := []
  /-- Captures of each timestamp input, oldest first (R519). -/
  ts : Tbl (List Nat) := []
  /-- The latest capture of each input, kept after it is popped (R513). -/
  lastTs : Tbl (Option Nat) := []
  trig : Tbl Trig := []
  deriving DecidableEq, Repr

end Sys2Proof.Machine
end

