-- ==== Sys2Proof/Machine/State.lean ====
section
/-!
DEFINITION. The state of the block as plain data, the reasons a step can stop, and the state after reset.
-/

namespace Sys2Proof.Machine

/-- What leaves the block: the answer to an access or a message on one of its interfaces. -/
inductive Out where
  /-- Data of a register read on a path (R13). -/
  | read (p : Path) (size v : Nat)
  /-- Completer Abort (R9). -/
  | abort
  /-- Unsupported Request (R620). -/
  | unsupported
  /-- Configuration Request Retry Status (R122). -/
  | retryStatus
  /-- A Configuration Request completed normally, with its data. -/
  | config (v : Nat)
  /-- A posted write to host memory (R618). -/
  | hostWrite (addr : Nat) (data : List Byte)
  /-- A read request to host memory (R618). -/
  | hostRead (tag addr len : Nat)
  /-- An MSI-X message: vector (R629). -/
  | msix (vector : Nat)
  /-- BAR2 or CXL.mem read data with the poison mark (R617). -/
  | window (data : List Byte) (poisoned : Bool)
  /-- A CXL.cache request or answer for a line: name and data (R624 to R627). -/
  | cxl (op : String) (line : Nat) (data : List Byte)
  /-- A DOE response (R632). -/
  | doe (data : List Byte)
  /-- A flit sent by a Nguorn port: port, kind, sequence number, bytes (R566). -/
  | flit (port kind seq : Nat) (data : List Byte)
  /-- A Nguorn message handed to a port's transmit queue (R569). -/
  | msg (port : Nat) (m : Msg)
  /-- An Ethernet frame: port, kind and bytes (R331 to R335). -/
  | eth (port : Nat) (kind : String) (data : List Byte)
  /-- The answer of the debug transport: tag, status, data (R673). -/
  | debug (tag status : Nat) (data : List Byte)
  /-- An edge at a trigger output: output, level, fabric time (R520). -/
  | trig (n : Nat) (high : Bool) (time : Nat)
  /-- Data shifted out of the TAP: the register an instruction selects (R676). -/
  | tap (data : Nat)
  deriving DecidableEq, Repr

/-- The whole state of Sparrato. -/
structure State where
  pins : Pins := {}
  clk : Clk := {}
  pwr : Pwr := {}
  aon : Aon := {}
  boot : Boot := {}
  stg : Stg := {}
  flt : Flt := {}
  tel : Tel := {}
  dbg : Dbg := {}
  que : Que := {}
  vlt : Vlt := {}
  mem : Mem := {}
  hif : Hif := {}
  str : Str := {}
  ldg : Ldg := {}
  eth : Eth := {}
  ngl : Ngl := {}
  gth : Gth := {}
  azm : Azm := {}
  ing : Ing := {}
  pak : Pak := {}
  sen : Sen := {}
  /-- The fabric-time servo on SPINE. -/
  servo : Servo := {}
  /-- Registers that hold a value of their own, by BAR0 offset (R13). -/
  regs : Tbl Word := []
  /-- The split-read shadows of the three paths: register and high half (R17). -/
  shHost : Option (Nat × Half) := none
  shDbg : Option (Nat × Half) := none
  shVlt : Option (Nat × Half) := none
  /-- Host memory as far as Sparrato has written it. The model's own field (assumption log 4). -/
  host : List Host.Cell := []
  /-- The boot flash, 0xFF where unlisted (R108). -/
  flash : Tbl Byte := []
  /-- Fabric time in half nanoseconds (R517). -/
  time : Nat := 0
  /-- Spine cycles of 0.5 ns since the cold reset. -/
  spine : Nat := 0
  /-- The next free value (assumption log 2). The model's own field. -/
  free : Nat := 0
  /-- What has left the block, newest first. The model's own field. -/
  outs : List Out := []
  /-- Commands waiting, first in, first out. -/
  pending : List Instr := []
  deriving DecidableEq, Repr

/-- Reasons a step ends in a fault. No meaning of this model raises one: Sparrato reports every error it defines by a
status, a flag or a fault-log entry and goes on, which the meanings model as next states. -/
inductive Fault where
  /-- Raised by nothing; the type needs a constructor. Safe. -/
  | none
  deriving DecidableEq, Repr

/-- Reasons a step is refused. -/
inductive Refusal where
  /-- Raised by an arm of exec whose command has no meaning yet. Safe: nothing can be proved about its effect. -/
  | notModelled (mnemonic : String)
  deriving DecidableEq, Repr

/-- Reset values of the registers that do not reset to 0 (R12), by BAR0 offset. -/
def regReset (a : Nat) : Word :=
  if a = 0x0100030 then 1000                       -- STG_CFG.commit_wait_us (R153)
  else if a = 0x0300100 then 1                     -- PWR_DOM_REQ_1.on (R102)
  else if 0x2210000 ≤ a ∧ a < 0x2218000 ∧ a % 16 = 8 then 0x100000000  -- MSI-X vector control: masked (R621)
  else 0

/-- The state right after a cold reset: PORST_N low, main and standby rails in range (R12, R48, R51). -/
def State.reset : State := {}

end Sys2Proof.Machine
end

