-- ==== Sys2Proof/Machine/Table.lean ====
section
/-!
DEFINITION. Operations on sparse tables. Every indexed piece of state (registers, memory bytes, contexts, ports)
is a table in one canonical form: keys strictly rising and no entry equal to what an unlisted key reads as.
-/

namespace Sys2Proof.Machine

/-- The value at a key; an unlisted key reads as `d`. -/
def tget {α : Type} (d : α) : Tbl α → Nat → α
  | [], _ => d
  | (k, v) :: t, i => if k = i then v else tget d t i

/-- The table without the key. -/
def tdel {α : Type} : Tbl α → Nat → Tbl α
  | [], _ => []
  | (k, v) :: t, i => if k = i then t else if i < k then (k, v) :: t else (k, v) :: tdel t i

/-- The table with the key set to a value, in key order. -/
def tins {α : Type} : Tbl α → Nat → α → Tbl α
  | [], i, x => [(i, x)]
  | (k, v) :: t, i, x =>
    if k = i then (i, x) :: t else if i < k then (i, x) :: (k, v) :: t else (k, v) :: tins t i x

/-- Set a key; setting the default removes the entry, so that equal tables are equal data. -/
def tset {α : Type} [DecidableEq α] (d : α) (t : Tbl α) (i : Nat) (x : α) : Tbl α :=
  if x = d then tdel t i else tins t i x

/-- Every key of the table lies above `b`, and keys rise strictly. -/
def tsorted {α : Type} : Option Nat → Tbl α → Bool
  | _, [] => true
  | none, (k, _) :: t => tsorted (some k) t
  | some b, (k, _) :: t => decide (b < k) && tsorted (some k) t

/-- The canonical form: strictly rising keys, no entry at the default. -/
def twf {α : Type} [DecidableEq α] (d : α) (t : Tbl α) : Bool :=
  tsorted none t && t.all (fun e => decide (e.2 ≠ d))

/-- The keys whose value satisfies a test, in rising order. -/
def tkeys {α : Type} (p : α → Bool) (t : Tbl α) : List Nat :=
  (t.filter (fun e => p e.2)).map Prod.fst

/-- Change the value at a key. -/
def tmod {α : Type} [DecidableEq α] (d : α) (t : Tbl α) (i : Nat) (f : α → α) : Tbl α :=
  tset d t i (f (tget d t i))

/-- Change every listed value; an entry that becomes the default is removed. -/
def tmap {α : Type} [DecidableEq α] (d : α) (f : α → α) (t : Tbl α) : Tbl α :=
  (t.map (fun e => (e.1, f e.2))).filter (fun e => decide (e.2 ≠ d))

/-- Remove every entry whose key lies from `lo` to `hi - 1`. -/
def tclear {α : Type} (t : Tbl α) (lo hi : Nat) : Tbl α :=
  t.filter (fun e => decide (e.1 < lo ∨ hi ≤ e.1))

/-- Replace the entries of a run of keys by a list of values. -/
def tsplice {α : Type} [DecidableEq α] (d : α) (t : Tbl α) (a : Nat) (l : List α) : Tbl α :=
  t.filter (fun e => decide (e.1 < a)) ++
  ((List.range l.length).map (fun i => (a + i, l.getD i d))).filter (fun e => decide (e.2 ≠ d)) ++
  t.filter (fun e => decide (a + l.length ≤ e.1))

/-! ### Words, bytes and bit fields -/

/-- Bits `hi` down to `lo` of a number. -/
def fld (w hi lo : Nat) : Nat := w / 2 ^ lo % 2 ^ (hi + 1 - lo)

/-- Bit `i` of a number. -/
def bit (w i : Nat) : Bool := fld w i i = 1

/-- A number shifted to bit `lo`, truncated to `n` bits. -/
def put (v lo n : Nat) : Nat := v % 2 ^ n * 2 ^ lo

/-- A bit at a place. -/
def putB (b : Bool) (lo : Nat) : Nat := if b then 2 ^ lo else 0

/-- Bits `hi` to `lo` of a register word. -/
def wfld (w : Word) (hi lo : Nat) : Nat := fld w.toNat hi lo

/-- One bit of a register word. -/
def wbit (w : Word) (i : Nat) : Bool := bit w.toNat i

/-- Little-endian number of a byte list (R5). -/
def leNat : List Byte → Nat
  | [] => 0
  | b :: bs => b.toNat + 256 * leNat bs

/-- `n` little-endian bytes of a number (R5). -/
def leBytes : Nat → Nat → List Byte
  | 0, _ => []
  | n + 1, v => BitVec.ofNat 8 v :: leBytes n (v / 256)

/-- A two's-complement reading of an `n`-bit number. -/
def sgn (n v : Nat) : Int := if v < 2 ^ (n - 1) then (v : Int) else (v : Int) - 2 ^ n

/-- The `n`-bit two's-complement encoding of an integer. -/
def unsgn (n : Nat) (i : Int) : Nat := (i % (2 ^ n : Int)).toNat

/-- Numbers from `a` to `a + n - 1`. -/
def span (a n : Nat) : List Nat := (List.range n).map (a + ·)

/-- Insert a number in a rising list. -/
def insNat (x : Nat) : List Nat → List Nat
  | [] => [x]
  | y :: ys => if x ≤ y then x :: y :: ys else y :: insNat x ys

/-- A list of numbers in rising order. -/
def sortNat (l : List Nat) : List Nat := l.foldr insNat []

/-- The ceiling of a quotient. -/
def cdiv (a b : Nat) : Nat := (a + b - 1) / b

/-- One step of the reflected CRC over a bit register (R713). -/
def crcBit (poly : Nat) (c : Nat) : Nat := if c % 2 = 1 then (c / 2) ^^^ poly else c / 2

/-- One byte of a reflected CRC. -/
def crcByte (poly c : Nat) (b : Byte) : Nat :=
  (List.range 8).foldl (fun c _ => crcBit poly c) (c ^^^ b.toNat)

/-- The CRC-32 of the manual: reflected 0x04C1_1DB7, start all ones, inverted at the end (R713). -/
def crc32 (bs : List Byte) : Nat := (bs.foldl (crcByte 0xEDB88320) 0xFFFFFFFF) ^^^ 0xFFFFFFFF

/-- A list cut in pieces of at most n. -/
def chunks {α : Type} (n : Nat) : Nat → List α → List (List α)
  | 0, _ => []
  | fuel + 1, l => if l.isEmpty then [] else l.take n :: chunks n fuel (l.drop n)

end Sys2Proof.Machine
end

