-- ==== Sys2Proof/Machine/Ops.lean ====
section
/-!
DEFINITION. Named operations over registers, memory, outputs and domains that the meanings share.
-/

namespace Sys2Proof.Machine

/-! ### Small updates -/

/-- Send something out of the block. -/
def State.emit (s : State) (o : Out) : State := { s with outs := o :: s.outs }

/-- Do something only when a condition holds. -/
def State.whenB (s : State) (b : Bool) (f : State → State) : State := if b then f s else s

/-- A free value of this step for a use and a place (assumption log 2). -/
def State.freeAt (s : State) (use : Nat) (place : List Nat) : Nat :=
  Config.freeValue s.free (8 * place.foldl (fun n x => n * 2 ^ 32 + x) 1 + use)

/-- Take a fresh free value and hand it on (assumption log 2). -/
def State.fresh (s : State) (f : Nat → State → State) : State :=
  f s.free { s with free := s.free + 1 }

/-! ### Registers that hold a value of their own -/

/-- The stored word of a register (R12, R13). -/
def State.reg (s : State) (a : Nat) : Word := tget (regReset a) s.regs a

/-- Store a word in a register. -/
def State.setReg (s : State) (a : Nat) (v : Word) : State := { s with regs := tset (regReset a) s.regs a v }

/-- Add to a 64-bit event counter, wrapping (R660). -/
def State.bump (s : State) (a n : Nat) : State := s.setReg a (s.reg a + BitVec.ofNat 64 n)

/-- One event of an error counter: the count stops at 0xFFFF_FFFF and the next event sets the flag (R75, R660). -/
def errNext (w : Word) : Word :=
  let c := wfld w 31 0
  if c = 0xFFFFFFFF then BitVec.ofNat 64 (0xFFFFFFFF + 2 ^ 32)
  else BitVec.ofNat 64 (c + 1 + putB (wbit w 32) 32)

/-- Count one event in an error counter. -/
def State.err (s : State) (a : Nat) : State := s.setReg a (errNext (s.reg a))

/-- Count events in an error counter. -/
def State.errN (s : State) (a n : Nat) : State := (List.range n).foldl (fun s _ => s.err a) s

/-- Set bits of a register. -/
def State.setBits (s : State) (a m : Nat) : State := s.setReg a (s.reg a ||| BitVec.ofNat 64 m)

/-- Clear bits of a register. -/
def State.clrBits (s : State) (a m : Nat) : State := s.setReg a (s.reg a &&& ~~~ BitVec.ofNat 64 m)

/-- Registers of a range return to their reset values. -/
def State.clearRegs (s : State) (lo hi : Nat) : State := { s with regs := tclear s.regs lo hi }

/-! ### The active configuration (R136, R146) -/

/-- Number of the current generation (STG_GEN.current). -/
def State.gen (s : State) : Nat := match s.stg.gens with | [] => 0 | (g, _) :: _ => g

/-- The configuration of a generation in force; the current one where it is not found. -/
def State.cfgTbl (s : State) (g : Nat) : Tbl Word :=
  match s.stg.gens.find? (fun e => e.1 = g) with
  | some e => e.2
  | none => match s.stg.gens with | [] => [] | e :: _ => e.2

/-- An ST register of the current generation. -/
def State.cfg (s : State) (a : Nat) : Word := tget 0 (s.cfgTbl s.gen) a

/-- An ST register of the generation a command carries (R147). -/
def State.cfgAt (s : State) (g a : Nat) : Word := tget 0 (s.cfgTbl g) a

/-- A field of an ST register of the current generation. -/
def State.cf (s : State) (a hi lo : Nat) : Nat := wfld (s.cfg a) hi lo

/-- A bit of an ST register of the current generation. -/
def State.cb (s : State) (a i : Nat) : Bool := wbit (s.cfg a) i

/-! ### Domains and instances -/

/-- The state of a switched domain. -/
def State.dom (s : State) (d : Nat) : Dom := tget {} s.pwr.dom d

/-- A switched domain is ON or draining; 0 names no switched domain. -/
def State.powered (s : State) (d : Nat) : Bool :=
  d = 0 || (s.dom d).state = .on || (s.dom d).state = .draining

/-- A switched domain is ON (R82); 0 names no switched domain. -/
def State.domOn (s : State) (d : Nat) : Bool := d = 0 || (s.dom d).state = .on

def State.setDom (s : State) (d : Nat) (x : Dom) : State :=
  { s with pwr := { s.pwr with dom := tset {} s.pwr.dom d x } }

/-- A fault unit (R637). -/
def State.funit (s : State) (u : Nat) : FUnit := tget {} s.flt.unit u

def State.setUnit (s : State) (u : Nat) (x : FUnit) : State :=
  { s with flt := { s.flt with unit := tset {} s.flt.unit u x } }

/-- A unit is fenced, under recovery or out for good (R642, R645). -/
def State.fencedU (s : State) (u : Nat) : Bool := (s.funit u).state ≠ .healthy

/-- HIF can serve a host transfer: P1 on, not fenced, link up, Bus Master Enable set, not D3hot (R50, R253, R619, R620). -/
def State.hostUp (s : State) : Bool :=
  s.domOn 1 && !s.fencedU uHIF && s.pins.perst && s.hif.linkUp && s.hif.bme && !s.hif.d3hot

/-- The main rail is up and its logic is out of reset (R96). -/
def State.mainRunning (s : State) : Bool := s.pins.porst && s.pins.mainPwrEn && s.pins.mainPg

/-- The main rail is up. -/
def State.railUp (s : State) : Bool := s.pins.mainPwrEn && s.pins.mainPg

/-- The covered outputs follow the boundary register, or are in high impedance, rather than the block's logic (R676). -/
def State.tapHolds (s : State) : Bool :=
  s.railUp && (s.dbg.tap = .extest || s.dbg.tap = .clamp || s.dbg.tap = .highz)

/-- Fabric time in ns. -/
def State.ns (s : State) : Nat := s.time / 2 % 2 ^ 64

/-! ### Device memory (R188 to R200) -/

/-- Memory kinds of the device address map. -/
inductive Region where
  | hbm (die : Nat)
  | depot (bank : Nat)
  | bay (n : Nat)
  deriving DecidableEq, Repr

/-- The device address map (R188). -/
def region (a : Nat) : Option Region :=
  if a < 0x2000000000 then some (.hbm 0)
  else if a < 0x4000000000 then some (.hbm 1)
  else if 0x40000000000 ≤ a ∧ a < 0x4000A000000 then some (.depot 0)
  else if 0x40040000000 ≤ a ∧ a < 0x4004A000000 then some (.depot 1)
  else if 0x50000000000 ≤ a ∧ a < 0x50000000000 + 54 * 0x400000 then some (.bay ((a - 0x50000000000) / 0x400000))
  else none

/-- Every byte of a range is mapped (R188). -/
def mappedRange (a n : Nat) : Bool :=
  n = 0 || (match region a, region (a + n - 1) with
    | some (.hbm _), some (.hbm _) => true
    | some (.depot x), some (.depot y) => x = y
    | some (.bay _), some (.bay _) => true
    | _, _ => false)

/-- A range lies wholly within HBM or within one Depot bank (checks such as R213). -/
def inHbmOrDepot (a n : Nat) : Bool :=
  n = 0 || (match region a, region (a + n - 1) with
    | some (.hbm _), some (.hbm _) => true
    | some (.depot x), some (.depot y) => x = y
    | _, _ => false)

/-- A range lies wholly within HBM. -/
def inHbm (a n : Nat) : Bool :=
  n = 0 || (match region a, region (a + n - 1) with | some (.hbm _), some (.hbm _) => true | _, _ => false)

/-- HBM stack that holds an address (R190). -/
def stackOf (a : Nat) : Nat := 4 * fld a 37 37 + (fld a 10 9 ^^^ fld a 24 23)

/-- Pseudo-channel within the stack (R190). -/
def channelOf (a : Nat) : Nat := fld a 16 11

/-- The four stacks of a die are READY (R192). -/
def State.dieReady (s : State) (die : Nat) : Bool :=
  (List.range 4).all (fun i => (tget {} s.mem.stack (4 * die + i)).state = .ready)

/-- An access to a mapped address can be served; otherwise the command ends FENCED (R192, R195). -/
def State.reachable (s : State) (a : Nat) : Bool :=
  match region a with
  | some (.hbm d) => s.dieReady d
  | some (.depot b) => !s.fencedU (uDepot b)
  | some (.bay n) => s.domOn (bayDom n) && !s.fencedU n
  | none => false

/-- What an unlisted byte of device memory reads as: an undefined byte in a range whose contents the manual leaves
undefined (R715; assumption log 5), else the zero of an HBM block not initialised (R193). -/
def Mem.unlisted (m : Mem) (a : Nat) : Byte :=
  match m.wild.find? (fun r => decide (r.lo ≤ a) && decide (a < r.hi)) with
  | some r => Config.freeByte r.seed a
  | none => 0

/-- Read one byte of device memory. -/
def Mem.rd (m : Mem) (a : Nat) : Byte := tget (m.unlisted a) m.bytes a

/-- Write one byte of device memory. -/
def Mem.wr (m : Mem) (a : Nat) (b : Byte) : Mem := { m with bytes := tset (m.unlisted a) m.bytes a b }

/-- The canonical form of device memory: addresses strictly rising, no byte listed that reads as its unlisted value. -/
abbrev Mem.wf (m : Mem) : Prop := tsorted none m.bytes = true ∧ ∀ e ∈ m.bytes, e.2 ≠ m.unlisted e.1

/-- The contents of a range become undefined. A range that lies in the new one is forgotten. -/
def Mem.undef (m : Mem) (lo hi seed : Nat) : Mem :=
  { m with
    bytes := tclear m.bytes lo hi
    wild := { lo := lo, hi := hi, seed := seed } :: m.wild.filter (fun r => !(decide (lo ≤ r.lo) && decide (r.hi ≤ hi))) }

/-- Device memory after a cold start, where the Depot and the Bays hold undefined data (R715). -/
def Mem.cold (seed : Nat) : Mem :=
  { wild := [{ lo := 0x40000000000, hi := 0x4004A000000, seed := seed }, { lo := 0x50000000000, hi := 0x5000D800000, seed := seed }] }

/-- Read bytes at ascending addresses. -/
def Mem.rds (m : Mem) (a n : Nat) : List Byte := (List.range n).map (fun i => m.rd (a + i))

/-- Write bytes at ascending addresses. -/
def Mem.wrs (m : Mem) : Nat → List Byte → Mem
  | _, [] => m
  | a, b :: bs => (m.wr a b).wrs (a + 1) bs

/-- A line is poisoned (R198). -/
def Mem.poisoned (m : Mem) (a : Nat) : Bool := tget false m.poison (a / 64)

/-- Any line of a range is poisoned. -/
def Mem.anyPoison (m : Mem) (a n : Nat) : Bool :=
  n ≠ 0 && (span (a / 64) ((a + n - 1) / 64 - a / 64 + 1)).any (fun l => tget false m.poison l)

def Mem.setPoison (m : Mem) (line : Nat) (b : Bool) : Mem := { m with poison := tset false m.poison line b }

/-- A clean write clears the poison of each line it covers whole (R198). -/
def Mem.cleanLines (m : Mem) (a n : Nat) : Mem :=
  let first := cdiv a 64
  let last := (a + n) / 64
  (span first (last - first)).foldl (fun m l => m.setPoison l false) m

/-- A poisoned write poisons every line it touches (R198). -/
def Mem.poisonLines (m : Mem) (a n : Nat) : Mem :=
  if n = 0 then m else (span (a / 64) ((a + n - 1) / 64 - a / 64 + 1)).foldl (fun m l => m.setPoison l true) m

/-- A write to a block whose initialisation bit is clear first zero-fills the block (R193): its bytes already read as
zero, so only the bit changes. -/
def Mem.touchInit (m : Mem) (a : Nat) : Mem :=
  match region a with
  | some (.hbm _) => { m with init := tset false m.init (a / 0x200000) true }
  | _ => m

/-- A clean write of bytes to device memory (R191, R193, R198). -/
def Mem.store (m : Mem) (a : Nat) (bs : List Byte) : Mem :=
  if bs.isEmpty then m
  else (((m.touchInit a).touchInit (a + bs.length - 1)).wrs a bs).cleanLines a bs.length

/-- A write of bytes, poisoned or clean. -/
def Mem.storeP (m : Mem) (a : Nat) (bs : List Byte) (poison : Bool) : Mem :=
  if poison then ((m.touchInit a).wrs a bs).poisonLines a bs.length else m.store a bs

/-- Read `n` bytes little-endian. -/
def Mem.le (m : Mem) (a n : Nat) : Nat := leNat (m.rds a n)

/-- Write device memory. -/
def State.store (s : State) (a : Nat) (bs : List Byte) : State := { s with mem := s.mem.store a bs }

/-! ### Host memory -/

/-- A byte of host memory: what Sparrato wrote last, or what the host holds (assumption log 4). -/
def State.hostRd (s : State) (a : Nat) : Byte :=
  match s.host.find? (fun e => e.1 = a) with
  | some e => e.2
  | none => Config.hostByte a

def State.hostRds (s : State) (a n : Nat) : List Byte := (List.range n).map (fun i => s.hostRd (a + i))

/-! ### The coherent cache of host memory (R625 to R628) -/

/-- A host address lies in an enabled cached range of a generation (R625, R634). -/
def State.ccRange (s : State) (g a : Nat) : Bool :=
  (List.range 8).any (fun r =>
    let x := s.cfgAt g (bHIF + 0x100 + 0x10 * r)
    wbit x 0 && wfld x 63 12 ≤ a / 4096 && a / 4096 ≤ wfld (s.cfgAt g (bHIF + 0x108 + 0x10 * r)) 63 12)

/-- A host transfer to an address uses the cache: CXL.cache was negotiated and the address lies in an enabled range. -/
def State.ccUsed (s : State) (g a : Nat) : Bool := s.hif.cxlCache && s.hostUp && s.ccRange g a

def State.ccLine (s : State) (l : Nat) : Option CcLine := tget none s.hif.cc l

def State.setCc (s : State) (l : Nat) (x : Option CcLine) : State :=
  { s with hif := { s.hif with cc := tset none s.hif.cc l x } }

/-- The data of a line with some bytes replaced. -/
def mergeLine (old : List Byte) (o : Nat) (bs : List Byte) : List Byte :=
  (List.range 64).map (fun i => if o ≤ i && i < o + bs.length then bs.getD (i - o) 0 else old.getD i 0)

/-- Lines that share a set with a line: 16 ways of 4,096 sets. -/
def State.ccSet (s : State) (l : Nat) : List (Nat × CcLine) :=
  s.hif.cc.filterMap (fun e => match e.2 with
    | some x => if e.1 % 4096 = l % 4096 && e.1 ≠ l then some (e.1, x) else none
    | none => none)

/-- Room for a line: a way is free, or a line of the set, which the manual does not choose, leaves (R627). Nothing where
the eviction buffer is full. -/
def State.ccRoom (s : State) (l : Nat) : Option State :=
  let ways := s.ccSet l
  if ways.length < 16 then some s
  else
    let k := Config.freeValue s.free 0 % ways.length
    let s := { s with free := s.free + 1 }
    match ways[k]? with
    | none => none
    | some (v, x) =>
      if x.st = .modified then
        if s.hif.evict.length ≥ 32 then none
        else
          let s := s.setCc v none
          let s := s.emit (.cxl "DirtyEvict" v [])
          some { s with hif := { s.hif with evict := s.hif.evict ++ [{ line := v, data := x.data }] } }
      else some ((s.setCc v none).emit (.cxl "CleanEvictNoData" v []))

/-- Put a line in the cache, where there is room. -/
def State.ccInstall (s : State) (l : Nat) (x : CcLine) : Option State := (s.ccRoom l).map (fun s => s.setCc l (some x))

/-- A posted write of bytes as memory requests (R618). -/
def State.hostPost (s : State) (a : Nat) (bs : List Byte) : State := s.emit (.hostWrite a bs)

/-- A write to one line of a cached range: `o` is the offset in the line (R625). -/
def State.ccWrite (s : State) (l o : Nat) (bs : List Byte) : State :=
  let ctr (s : State) (hit : Bool) : State := s.bump (bHIF + (if hit then 0x1028 else 0x1030)) 1
  match s.ccLine l with
  | some x =>
    let s := ctr s true
    if x.st = .shared then
      if bs.length = 64 then (s.emit (.cxl "RdOwnNoData" l [])).setCc l (some { st := .modified, data := bs })
      else
        let s := (s.setCc l none).emit (.cxl "RdOwn" l [])
        { s with hif := { s.hif with ccPend := tset none s.hif.ccPend l (some { own := true, merge := [(o, bs)] }) } }
    else s.setCc l (some { st := .modified, data := mergeLine x.data o bs })
  | none =>
    let s := ctr s false
    if bs.length = 64 then
      match s.ccInstall l { st := .modified, data := bs } with
      | some s => s.emit (.cxl "RdOwnNoData" l [])
      | none => s.hostPost (64 * l) bs
    else match tget none s.hif.ccPend l with
      | some p => { s with hif := { s.hif with ccPend := tset none s.hif.ccPend l (some { p with own := true, merge := p.merge ++ [(o, bs)] }) } }
      | none =>
        let s := s.emit (.cxl "RdOwn" l [])
        { s with hif := { s.hif with ccPend := tset none s.hif.ccPend l (some { own := true, merge := [(o, bs)] }) } }

/-- Pieces of a byte range by 64-byte line: line, offset in the line, and place in the range. -/
def linePieces (a n : Nat) : List (Nat × Nat × Nat × Nat) :=
  if n = 0 then []
  else (span (a / 64) ((a + n - 1) / 64 - a / 64 + 1)).map (fun l =>
    let lo := max a (64 * l)
    let hi := min (a + n) (64 * l + 64)
    (l, lo - 64 * l, lo - a, hi - lo))

/-- A read of host memory by a transfer: the lines of cached ranges hit or allocate (R625). -/
def State.ccRead (s : State) (g a n : Nat) : State :=
  (linePieces a n).foldl (fun s p =>
    if !s.ccUsed g (64 * p.1) then s
    else if (s.ccLine p.1).isSome then s.bump (bHIF + 0x1028) 1
    else
      let s := s.bump (bHIF + 0x1030) 1
      if (tget none s.hif.ccPend p.1).isSome then s
      else
        let s := s.emit (.cxl "RdShared" p.1 [])
        { s with hif := { s.hif with ccPend := tset none s.hif.ccPend p.1 (some { own := false }) } }) s

/-- A write to host memory (R618, R625): memory as Sparrato knows it changes, and each line goes to the cache where its
address lies in a cached range of the generation, else to the link as posted writes. -/
def State.hostStore (s : State) (a : Nat) (bs : List Byte) (g : Option Nat := none) : State :=
  let s := { s with host := (List.range bs.length).foldl (fun h i => tins h (a + i) (bs.getD i 0)) s.host }
  let s := s.bump (bHIF + 0x1008) bs.length
  let gen := g.getD s.gen
  let ps := linePieces a bs.length
  if ps.any (fun p => s.ccUsed gen (64 * p.1)) then
    ps.foldl (fun s p =>
      let b := (bs.drop p.2.2.1).take p.2.2.2
      if s.ccUsed gen (64 * p.1) then s.ccWrite p.1 p.2.1 b else s.hostPost (a + p.2.2.1) b) s
  else s.hostPost a bs

/-! ### MSI-X and the event sources (R629, R630) -/

/-- A message becomes due on a vector: sent, pended or discarded (R629). -/
def State.msix (s : State) (v : Nat) : State :=
  if !s.domOn 1 then s
  else if !s.hif.msixEn || !s.hif.bme || s.hif.d3hot || s.fencedU uHIF || !s.hif.linkUp then s.bump (bHIF + 0x1050) 1
  else if s.hif.msixMask || wbit (s.reg (bHIF + 0x10008 + 16 * v)) 32 then
    { s with hif := { s.hif with pba := tset false s.hif.pba v true } }
  else s.emit (.msix v)

/-- Event source e sends its message when its enable is set (R630). -/
def State.event (s : State) (e : Nat) : State :=
  if s.cb (bHIF + 0x300 + 8 * e) 31 then s.msix (s.cf (bHIF + 0x300 + 8 * e) 10 0) else s

end Sys2Proof.Machine
end

