-- ==== Sys2Proof/Machine/TelOps.lean ====
section
/-!
DEFINITION. Shared operations of telemetry, faults, the journal and the task tables: what a trace record, a log entry,
a fence, a flush or a stop does wherever it comes from.
-/

namespace Sys2Proof.Machine

/-! ### The trace queue (R664 to R666) -/

/-- The trace runs: run is 1 and it has not stopped (R666). -/
def State.traceRuns (s : State) : Bool :=
  wbit (s.reg (bTEL + 0x108)) 0 && !s.tel.full && !s.tel.frozen

/-- A record passes the type and unit filters (R664). -/
def State.traceWanted (s : State) (type unit : Nat) : Bool :=
  let c := s.cfg (bTEL + 0x100)
  type = 0x0A || (wbit c type && (!wbit c 23 || type = 0x09 || wfld c 35 24 = unit))

/-- A record enters the trace queue, or is discarded when 64 wait (R665). -/
def State.trace (s : State) (type unit : Nat) (data : List Byte) : State :=
  if !s.traceRuns || !s.traceWanted type unit then s
  else if s.tel.queue.length ≥ 64 then
    { s with tel := { s.tel with lostRun := s.tel.lostRun + 1 } }.err (bTEL + 0x128)
  else
    let gap := if s.tel.lostRun = 0 then []
      else [{ time := s.ns, type := 0x0A, unit := uTEL, data := leBytes 4 s.tel.lostRun ++ leBytes 12 0 : TraceRec }]
    let rec0 : TraceRec := { time := s.ns, type := type, unit := unit, data := (data ++ leBytes 16 0).take 16 }
    { s with tel := { s.tel with queue := s.tel.queue ++ gap ++ [rec0], lostRun := 0 } }

/-! ### The fault log (R653 to R656) -/

/-- Flags of a log entry beside its class (R653). -/
structure LogFlags where
  recovered : Bool := false
  declared : Bool := false
  void : Bool := false
  deriving DecidableEq, Repr

/-- The 32 bytes of a log entry (R653). -/
def logEntry (seq cls : Nat) (fl : LogFlags) (code unit time detail owner : Nat) : List Byte :=
  leBytes 4 seq ++ leBytes 1 (cls % 4 + putB fl.recovered 2 + putB fl.declared 3 + putB fl.void 4) ++
  leBytes 1 code ++ leBytes 2 (unit % 4096) ++ leBytes 8 time ++ leBytes 8 detail ++ leBytes 8 owner

/-- The distance tail - head of the log, modulo 2^32. -/
def State.logHeld (s : State) : Nat :=
  (s.flt.tail + 2 ^ 32 - wfld (s.reg (bFLT + 0x28)) 31 0) % 2 ^ 32

/-- Put one entry in the log ring, by the freeze_on_full rule (R654), and keep the first (R655). -/
def State.logPut (s : State) (e : Nat → List Byte) : State :=
  let full := s.logHeld ≥ 1024
  if full && s.cb (bFLT + 0x10) 63 then s.err (bFLT + 0x1028)
  else
    let s := if full then
        (s.setReg (bFLT + 0x28) (BitVec.ofNat 64 ((wfld (s.reg (bFLT + 0x28)) 31 0 + 1) % 2 ^ 32))).bump (bFLT + 0x1020) 1
      else s
    let b := e s.flt.tail
    { s with flt := { s.flt with
        log := tset [] s.flt.log (s.flt.tail % 1024) b
        tail := (s.flt.tail + 1) % 2 ^ 32
        first := if s.flt.firstValid then s.flt.first else b
        firstValid := true } }

/-- Record a fault of a class: count, log, alert, interrupt and trace (R639, R653 to R656, R630, R666). -/
def State.faultRec (s : State) (cls code unit : Nat) (detail owner : Nat := 0) (fl : LogFlags := {}) : State :=
  let seq := s.flt.tail
  let s := s.err (bFLT + 0x1000 + 8 * cls)
  let s := s.setUnit unit { s.funit unit with cls := cls, code := code }
  let s := s.logPut (fun q => logEntry q cls fl code unit s.ns detail owner)
  let s := s.whenB fl.void (·.err (bFLT + 0x1048))
  let s := s.whenB (bit (s.cf (bFLT + 0x10) 55 52) cls) (·.setBits (bFLT + 0x18) (2 ^ 61))
  let s := s.whenB (bit (s.cf (bFLT + 0x10) 59 56) cls) (·.event 2)
  let s := s.trace 0x04 unit (leBytes 4 seq ++ leBytes 1 code ++ leBytes 1 cls)
  s.whenB (bit (s.cf (bTEL + 0x100) 59 56) cls && s.tel.postLeft.isNone && s.traceRuns) (fun s =>
    { s with tel := { s.tel with postLeft := some (s.tel.queue.length + s.cf (bTEL + 0x100) 55 36) } })

/-- A log-only entry (R655). -/
def State.logOnly (s : State) (cls code unit detail : Nat) (fl : LogFlags) : State :=
  s.logPut (fun q => logEntry q cls fl code unit s.ns detail 0)

/-- A C0 fault: reported, with no further effect (R29, R639). -/
def State.faultC0 (s : State) (code unit : Nat) (detail owner : Nat := 0) : State :=
  s.faultRec 0 code unit detail owner

/-! ### The journal (R315 to R317) -/

/-- The 32 bytes of a journal entry (R315). -/
def jrnBytes (seq type pipe id arg0 arg1 : Nat) : List Byte :=
  let b := leBytes 4 seq ++ leBytes 1 type ++ leBytes 1 pipe ++ leBytes 2 0 ++ leBytes 8 id ++ leBytes 8 arg0 ++ leBytes 4 arg1
  b ++ leBytes 4 (crc32 b)

/-- The journal queue has room for `n` entries (R316). -/
def State.jrnRoom (s : State) (n : Nat) : Bool := s.ldg.queue.length + n ≤ 64

/-- Queue one journal entry. -/
def State.journal (s : State) (type pipe id arg0 arg1 : Nat) : State :=
  { s with ldg := { s.ldg with
      queue := s.ldg.queue ++ [jrnBytes s.ldg.seq type pipe id arg0 arg1]
      seq := (s.ldg.seq + 1) % 2 ^ 32 } }

/-- A field of LDG_PIPE_CFG_p in the current configuration: word, high bit, low bit (R319). -/
def State.pipeF (s : State) (p w hi lo : Nat) : Nat := s.cf (bLDG + 0x10000 + 0x40 * p + 8 * w) hi lo

/-- A pipeline is enabled in the current configuration (R319). -/
def State.pipeEn (s : State) (p : Nat) : Bool := s.cb (bLDG + 0x10000 + 0x40 * p) 63

/-- Pipelines enabled in the current configuration. -/
def State.pipesOn (s : State) : List Nat := (List.range 256).filter s.pipeEn

/-- The batch identifier (R306). -/
def batchId (epoch pipe num : Nat) : Nat := put epoch 48 16 + put pipe 40 8 + put num 0 40

/-- Open batches of a pipeline, as entry and batch. -/
def State.openOf (s : State) (p : Nat) : List (Nat × Batch) :=
  s.ldg.batch.filterMap (fun e => match e.2 with | some b => if b.pipe = p then some (e.1, b) else none | none => none)

/-- The lowest batch identifier of a pipeline not yet delivered (R315). -/
def State.lowestUndelivered (s : State) (p : Nat) : Nat :=
  let pl := tget {} s.ldg.pipe p
  ((s.openOf p).map (fun e => batchId e.2.epoch p e.2.num)).foldl min (batchId pl.epoch p pl.next)

/-- Queue a CHECKPOINT for a pipeline (R315, R316). -/
def State.checkpoint (s : State) (p : Nat) : State :=
  let pl := tget {} s.ldg.pipe p
  s.journal 0x06 p (s.lowestUndelivered p) pl.next (s.openOf p).length

/-- The bytes of the journal ring can be written now: its space and base (R316). -/
def State.ringReach (s : State) (a : Nat) : Bool :=
  if s.cb (bLDG + 0x18) 0 then s.hostUp else s.reachable a

/-- Write one entry to the retention buffer, and to the ring while a pipeline is enabled (R316). -/
def State.jrnWrite (s : State) (e : List Byte) : State :=
  let q := leNat (e.take 4)
  let s := { s with ldg := { s.ldg with ret := tset [] s.ldg.ret (q % 1024) e, retValid := true } }
  if s.pipesOn.isEmpty then s
  else
    let a := put (s.cf (bLDG + 0x18) 63 5) 5 59 + 32 * (q % 2 ^ s.cf (bLDG + 0x20) 20 16)
    if !s.ringReach a then s.setBits (bLDG + 0x30) (2 ^ 31)
    else if s.cb (bLDG + 0x18) 0 then s.hostStore a e
    else s.store a e

/-- Write every queued entry in seq order. -/
def State.jrnDrain (s : State) : State :=
  let q := s.ldg.queue
  q.foldl State.jrnWrite { s with ldg := { s.ldg with queue := [] } }

/-- A journal flush: queued entries, a CHECKPOINT for each enabled pipeline, a SEAL (R317). -/
def State.flushJournal (s : State) : State :=
  let s := s.jrnDrain
  let s := s.pipesOn.foldl (fun s p => (s.checkpoint p).jrnDrain) s
  (s.journal 0x07 0 0 s.ns 0).jrnDrain

/-- Start a flush for a cause; one in progress takes a power-fail trip in (R97, R317). Admission stops until it ends. -/
def State.startFlush (s : State) (c : FlushCause) : State :=
  if s.ldg.flush.isSome then s
  else
    let s := s.flushJournal
    { s with ldg := { s.ldg with flush := some c } }

/-! ### Ledger contexts (R298 to R300) -/

def State.ctx (s : State) (n : Nat) : Ctx := tget {} s.ldg.ctx n

def State.setCtx (s : State) (n : Nat) (c : Ctx) : State :=
  { s with ldg := { s.ldg with ctx := tset {} s.ldg.ctx n c } }

/-- The context a freed slot becomes: FREE with the next generation (R299). -/
def Ctx.toFree (c : Ctx) : Ctx := { gen := (c.gen + 1) % 2048 }

/-- A pin set loses one context; a set that nothing names any more frees (R313). -/
def State.unpin (s : State) (p : Nat) : State :=
  if p = 0xFFFF then s
  else
    let ps := tget {} s.ldg.pins p
    let c := ps.count - 1
    let cur := s.ldg.pipe.any (fun e => e.2.curPin = p)
    { s with ldg := { s.ldg with pins := tset {} s.ldg.pins p (if c = 0 && !cur then {} else { ps with count := c }) } }

/-- A context becomes FREE and joins the free list (R299, R300). -/
def State.freeCtx (s : State) (n : Nat) : State :=
  let c := s.ctx n
  if c.state = .free then s
  else
    let s := ((s.unpin c.pin).setCtx n c.toFree).bump (bLDG + 0x118) 1
    { s with ldg := { s.ldg with freed := s.ldg.freed ++ [n] } }

/-- Every context becomes FREE with its generation raised, and the free list is rebuilt (R300, R647). -/
def State.freeAll (s : State) : State :=
  { s with
    mem := { s.mem with poison := s.mem.poison.filter (fun e => decide (e.1 < 2 ^ 38)) }
    ldg := { s.ldg with
      ctx := tmap {} (fun c => if c.state = .free then c else c.toFree) s.ldg.ctx
      freeLo := 0, freed := [], batch := [], pins := []
      pipe := tmap {} (fun p => { p with curPin := 0xFFFF, pinWait := [] }) s.ldg.pipe } }

/-- A ticket of a context (R24). -/
def ticketOf (slot gen : Nat) : Nat := put gen 21 11 + put slot 0 21

/-- A ticket is current: its slot holds a sample of its generation (R24). -/
def State.ticketCur (s : State) (tk : Nat) : Bool :=
  let c := s.ctx (tk % 2 ^ 21)
  c.state ≠ .free && c.gen = tk / 2 ^ 21 % 2 ^ 11

/-! ### Tasks -/

def State.task (s : State) (t : Nat) : Option Task := tget none s.que.tasks t

def State.setTask (s : State) (t : Nat) (x : Option Task) : State :=
  { s with que := { s.que with tasks := tset none s.que.tasks t x } }

def State.modTask (s : State) (t : Nat) (f : Task → Task) : State :=
  match s.task t with
  | some x => s.setTask t (some (f x))
  | none => s

def State.queue (s : State) (q : Nat) : Queue := tget {} s.que.q q

def State.setQueue (s : State) (q : Nat) (x : Queue) : State :=
  { s with que := { s.que with q := tset {} s.que.q q x } }

/-- Issued tasks, in order of issue. -/
def State.taskList (s : State) : List (Nat × Task) :=
  s.que.tasks.filterMap (fun e => e.2.map (fun x => (e.1, x)))

/-- Tasks with a stage on an instance, in order of issue. -/
def State.tasksOn (s : State) (n : Nat) : List Nat :=
  (s.taskList.filter (fun e => e.2.stages.any (fun g => g.inst = n))).map Prod.fst

/-- Every stage of a task has its result. -/
def Task.finished (x : Task) : Bool := x.stages.all (fun g => g.res.isSome)

/-- Stages without a result are given one: the command ends early with a status (R234). -/
def Task.endWith (x : Task) (status detail : Nat) : Task :=
  { x with stages := x.stages.map (fun g => if g.res.isSome then g else
      { g with res := some { status := status, detail := detail } }) }

/-- Every stage is given a result with a status; what an earlier stage left does not stand. -/
def Task.failAll (x : Task) (status : Nat) : Task :=
  { x with stages := x.stages.map (fun g => { g with res := some { status := status } }) }

/-- Commands that use host memory end FENCED when the host path goes (R50, R621). -/
def State.dropStreamsOf (s : State) (t : Nat) : State :=
  { s with str := { s.str with
      strm := s.str.strm.filter (fun e => match e.2 with | some x => x.task ≠ t | none => false)
      xfer := s.str.xfer.filter (fun e => match e.2 with
        | some x => (match tget none s.str.strm x.stream with | some y => y.task ≠ t | none => false)
        | none => false) } }

/-- An instance of a kind can serve: not fenced, its domain ON (R224). -/
def State.instOk (s : State) (n : Nat) : Bool := s.domOn (bayDom n) && !s.fencedU n

/-- Debug halt state of an instance (R677). -/
def State.haltOf (s : State) (n : Nat) : HaltState := tget .running s.dbg.halt n

/-- An instance may take a new command: able to serve, not drained by a test, not debug-halted (R224, R669, R677). -/
def State.eligible (s : State) (n : Nat) : Bool :=
  s.instOk n && !s.tel.inelig.contains n && s.haltOf n = .running && (s.tasksOn n).length < 64

/-! ### Commands of an instance that goes away (R643) -/

/-- The instance with the fewest tasks among candidates, lowest number first (R225). -/
def State.fewest (s : State) (cands : List Nat) : Option Nat :=
  cands.foldl (fun best n => match best with
    | none => some n
    | some b => if (s.tasksOn n).length < (s.tasksOn b).length then some n else best) none

/-- Siblings of an instance that can take its commands. -/
def State.siblings (s : State) (n : Nat) : List Nat :=
  (kindBays (bayKind n)).filter (fun m => m ≠ n && s.eligible m)

/-- Put a task back to its beginning on another instance in place of one: it keeps its generation, tag and semaphores. -/
def Task.restart (x : Task) (old new : Nat) : Task :=
  { x with started := false, stages := x.stages.map (fun g =>
      { g with inst := if g.inst = old then new else g.inst, res := none, tiles := 0, handoff := [], work := [] }) }

/-- A record gives up its pin on a key copy; the last record of a copy that is no longer the slot's releases it (R172, R175). -/
def State.unpinKey (s : State) (r : IngRec) : State :=
  match r.pin with
  | none => s
  | some (sl, g) =>
    let l : List CachedKey := tget [] s.vlt.cache r.inst
    let now := ((tget {} s.vlt.keys sl).gen + s.vlt.genOff) % 256
    let mine (c : CachedKey) : Bool := c.slot = sl && c.gen = g
    let l := (l.map (fun (c : CachedKey) => if mine c then { c with pins := c.pins - 1 } else c)).filter
      (fun c => !mine c || c.pins ≠ 0 || now = g)
    { s with vlt := { s.vlt with cache := tset [] s.vlt.cache r.inst l } }

/-- What the records of a FETCH have under way is forgotten: late host data and late responses are discarded (R331, R336). -/
def State.ingForget (s : State) (t : Nat) : State :=
  let s := (s.ing.recs.filter (fun r => decide (r.task = t))).foldl State.unpinKey s
  let host (h : HostRead) : HostRead := if h.task = some t && h.record.isSome then { h with task := none, record := none } else h
  let nvme (h : NvmeRead) : NvmeRead := if h.task = t then { h with quar := true } else h
  let conn (c : Conn) : Conn := { c with reads := tmap none (fun x => x.map nvme) c.reads }
  { s with
    hif := { s.hif with reads := tmap none (fun x => x.map host) s.hif.reads }
    eth := { s.eth with conn := tmap {} conn s.eth.conn } }

/-- The records of a FETCH go back to their beginning with their admission entries (R643). -/
def State.ingRestart (s : State) (t : Nat) : State :=
  let s := s.ingForget t
  { s with ing := { s.ing with recs := s.ing.recs.map (fun (r : IngRec) =>
      if r.task = t then { task := t, idx := r.idx, inst := r.inst, pipe := r.pipe, entry := r.entry } else r) } }

/-- What a gather command has under way is forgotten: late answers find another generation (R460). -/
def State.dropFetch (s : State) (t : Nat) : State :=
  let mine (x : ReadSlot) : Bool := match x.req with | some r => r.task = t | none => false
  { s with gth := { s.gth with
      fetch := s.gth.fetch.filter (fun f => decide (f.task ≠ t))
      slots := tmap {} (fun x => if mine x then { x with gen := (x.gen + 1) % 256, req := none } else x) s.gth.slots } }

/-- A task gives up its bank and its place in the wait for one (R294). A set that did not load well is not kept (R293). -/
def State.leaveBank (s : State) (n t : Nat) : State :=
  let x : Inst := tget {} s.str.inst n
  let bank (b : Option Bank) : Option Bank := match b with
    | some b =>
      let us := b.users.filter (fun u => decide (u ≠ t))
      if us.isEmpty && !b.good then none else some { b with users := us }
    | none => none
  let x : Inst := { x with banks := x.banks.map bank, waitBank := x.waitBank.filter (fun u => decide (u ≠ t)) }
  { s with str := { s.str with inst := tset {} s.str.inst n x } }

/-- A task begins again with its stage on `new` in place of `old`: its parameter set is to be loaded there, its streams
start from their first transfer (R643). -/
def State.restartOn (s : State) (t old new : Nat) : State :=
  match s.task t with
  | none => s
  | some x =>
    let s := (s.setTask t (some (x.restart old new))).leaveBank old t
    let y : Inst := tget {} s.str.inst new
    let y : Inst := if x.stages.any (fun g => g.inst = old && g.par.isSome) then { y with waitBank := y.waitBank ++ [t] } else y
    let s : State := { s with str := { s.str with inst := tset {} s.str.inst new y } }
    let strm (e : Option Strm) : Option Strm := e.map (fun z =>
      if z.task = t && !z.shape then { z with cursor := 0, presented := none, ended := false } else z)
    { s with str := { s.str with
        strm := tmap none strm s.str.strm
        xfer := s.str.xfer.filter (fun e => match e.2 with
          | some z => (match tget none s.str.strm z.stream with | some w => decide (w.task ≠ t) | none => false)
          | none => false) } }

/-- One command of an instance that cannot serve it: it is issued again whole on a sibling, or completes FENCED where the
kind has no healthy instance (R643). A command whose siblings are all held or full waits (R680). -/
def State.replaceTask (s : State) (t n : Nat) : State :=
  match s.task t with
  | none => s
  | some x =>
    let s := (s.dropFetch t).ingRestart t
    let busy := x.stages.map Stage.inst
    let cands := (s.siblings n).filter (fun m => !busy.contains m)
    let later := (kindBays (bayKind n)).any (fun m => m ≠ n && s.instOk m)
    match s.fewest cands with
    | some m => s.restartOn t n m
    | none =>
      if later then { s with que := { s.que with reissue := (s.que.reissue.filter (fun u => decide (u ≠ t))) ++ [t] } }
      else s.setTask t (some (x.failAll stFENCED))

/-- Reissue the commands of a fenced instance (R643). -/
def State.reissueFrom (s : State) (n : Nat) : State := (s.tasksOn n).foldl (fun s t => s.replaceTask t n) s

/-- A command that waits for a sibling is placed where one can take it now (R643, R680). -/
def State.retryTask (s : State) (t : Nat) : State :=
  let s := { s with que := { s.que with reissue := s.que.reissue.filter (fun u => decide (u ≠ t)) } }
  match s.task t with
  | none => s
  | some x => (x.stages.map Stage.inst).foldl (fun s n =>
      if s.instOk n then s.restartOn t n n else s.replaceTask t n) s

def State.retryWaiting (s : State) : State := s.que.reissue.foldl State.retryTask s

/-! ### Fence, C2 and C3 (R642, R647, R648) -/

/-- The instance's parameter banks hold nothing usable (R294, R643). -/
def State.dropBanks (s : State) (n : Nat) : State :=
  { s with str := { s.str with inst := tset {} s.str.inst n { tget {} s.str.inst n with banks := [none, none], waitBank := [], cur := none, switching := 0 } } }

/-- Number of units FENCED or PERMANENT. -/
def State.fencedCount (s : State) : Nat :=
  (s.flt.unit.filter (fun e => e.2.state = .fenced || e.2.state = .permanent)).length

/-- FLT_STAT.state while neither C2 recovery nor a stop runs (R646). -/
def State.refreshFlt (s : State) : State :=
  match s.flt.state with
  | .normal | .degraded =>
    { s with flt := { s.flt with state := if s.fencedCount = 0 then .normal else .degraded } }
  | _ => s

/-- A self-test or recalibration request completes (R669, R670). TEL_BIST_DONE counts those that end with OK. -/
def State.bistEnd (s : State) (status : Nat) (passed : Bool := false) (step recal : Nat := 0) : State :=
  let s := { s with tel := { s.tel with
    bistBusy := false, bistPhase := .idle, bistStatus := status, bistPassed := passed, bistStep := step, bistRecal := recal
    scope := [], bistIsl := 0, bistLane := none, inelig := [] } }
  s.bump (bTEL + (if status = stDEFERRED then 0x308 else 0x300)) (if status = stOK ∨ status = stDEFERRED then 1 else 0)

/-- Units of the request's scope: its instances, and its island where it names one (R668). -/
def Tel.units (x : Tel) : List Nat := x.scope ++ (if x.bistIsl = 0 then [] else [uIsland x.bistIsl])

/-- A domain left ON or a fault was confirmed in the scope of a request: it ends with FENCED (R671). -/
def State.bistSync (s : State) : State :=
  if s.tel.bistBusy && s.tel.scope.any (fun n => !s.domOn (bayDom n)) || s.tel.units.any (fun u => (s.funit u).state = .fenced) then
    let s := s.tel.units.foldl (fun s u =>
      let x := s.funit u
      if x.state = .recovering then s.setUnit u { x with state := .healthy } else s) s
    s.bistEnd stFENCED
  else s

/-- FLT fences a unit (R642): its held effects are discarded, its commands reissued (R643). -/
def State.fence (s : State) (u : Nat) : State :=
  let x := s.funit u
  let s := (s.setUnit u { x with state := .fenced, times := (s.spine :: x.times).take 256, inj := false }).bistSync
  let s := { s with flt := { s.flt with gate := s.flt.gate.filter (fun e => e.1 ≠ u) } }
  let s := if u ≤ 0x35 then (s.dropBanks u).reissueFrom u else s
  s.refreshFlt

/-- Fences of a unit within the recovery window (R645, R658). -/
def State.fencesIn (s : State) (u : Nat) : Nat :=
  ((s.funit u).times.filter (fun t => decide (s.spine ≤ t + s.cf (bFLT + 0x10) 47 40 * 7200000000000))).length

/-- A unit whose test passed returns to service, or becomes PERMANENT after too many fences (R645). -/
def State.recovered (s : State) (u : Nat) : State :=
  let x := s.funit u
  if s.fencesIn u ≤ s.cf (bFLT + 0x10) 51 48 then
    (((s.setUnit u { x with state := .healthy, pair := 1 }).refreshFlt).bump (bFLT + 0x1030) 1).logOnly x.cls 0x1A u 0 { recovered := true }
  else (s.setUnit u { x with state := .permanent }).refreshFlt

/-- Another unit's C1, C2 or C3 fault was confirmed within 2 µs (R649 condition 1, R650). -/
def State.crowded (s : State) (u : Nat) : Bool :=
  match s.flt.last with
  | some (v, t) => v ≠ u && s.spine ≤ t + 4000
  | none => false

/-- A fault of another unit follows within 2 µs: the earlier fault's entry takes the void flag too (R650). -/
def State.lateVoid (s : State) (u : Nat) : State :=
  match s.flt.lastSeq with
  | some q =>
    if s.crowded u then
      let e := tget [] s.flt.log (q % 1024)
      let e := if leNat (e.take 4) = q && !bit (leNat ((e.drop 4).take 1)) 4 then e.set 4 (e.getD 4 0 ||| 0x10) else e
      { s with flt := { s.flt with log := tset [] s.flt.log (q % 1024) e, lastSeq := none } }.err (bFLT + 0x1048)
    else s
  | none => s

/-- The fault just confirmed is remembered for R649; `mark` tells whether it may still take the void flag. -/
def State.noteFault (s : State) (u : Nat) (mark : Option Nat := none) : State :=
  { s with flt := { s.flt with last := some (u, s.spine), lastSeq := mark } }

/-- Instances and interfaces that the fencing of an island fences (R55, R68). -/
def islandUnits (i : Nat) : List Nat :=
  (List.range 54).filter (fun n => bayIsland n = i) ++
  (if i = 4 then [uHIF] else if i = 5 then [uEth 0, uEth 1] else if 7 ≤ i ∧ i ≤ 10 then (span (4 * (i - 7)) 4).map uPort else [])

/-- A C1 fault: the unit is fenced and the fault recorded (R642). Fencing an island fences each instance and interface
in it (R68). A watchdog's fault never takes the void flag (R650). -/
def State.faultC1 (s : State) (code unit : Nat) (detail owner : Nat := 0) (fl : LogFlags := {}) : State :=
  let s := (s.lateVoid unit).fence unit
  let s := if 0x41 ≤ unit ∧ unit ≤ 0x59 then (islandUnits (unit - 0x40)).foldl State.fence s else s
  let void := code ≠ 0x1C && (fl.void || s.crowded unit)
  let seq := s.flt.tail
  (s.faultRec 1 code unit detail owner { fl with void := void }).noteFault unit (if void || code = 0x1C then none else some seq)

/-- A port at electrical idle with no credits: its link state is lost (R52, R648). -/
def Port.idle (p : Port) (cause : Nat) : Port :=
  { state := if p.state = .disabled then .disabled else .detect, cause := cause }

/-- Every Nguorn and Ethernet port goes to electrical idle (R51, R52, R648). -/
def State.portsIdle (s : State) : State :=
  { s with
    ngl := { s.ngl with port := tmap {} (fun p => { cause := p.cause }) s.ngl.port }
    eth := { s.eth with port := [], conn := [] } }

/-- A C3 fault: admission, egress and engines stop, the journal is flushed, ports go idle (R648). -/
def State.faultC3 (s : State) (code unit : Nat) (detail : Nat := 0) : State :=
  let s := (s.startFlush .c3).portsIdle
  let s := { s with
    ldg := { s.ldg with stopped := true }
    flt := { s.flt with
      state := .stopped
      coldReq := s.flt.coldReq || code = 0x0A || code = 0x0B || code = 0x13 || code = 0x18 || (code = 0x0C && detail = 0) } }
  ((s.lateVoid unit).faultRec 3 code unit detail).noteFault unit

/-- ALERT_N is asserted: the causes of R656. -/
def State.alert (s : State) : Bool :=
  s.flt.state = .stopped || s.flt.state = .c2Recovery || wbit (s.reg (bFLT + 0x18)) 61 ||
  s.pins.alertTherm || s.pins.alertNoImage || s.vlt.state = .tampered

end Sys2Proof.Machine
end

