-- ==== Sys2Proof/Machine/MsgOps.lean ====
section
/-!
DEFINITION. Nguorn messages: their bytes, the route of each, waiting, and what a port that leaves ACTIVE does with the
messages it held (R564, R569, R580, R585 to R588); the release gate (R641).
-/

namespace Sys2Proof.Machine

def State.port (s : State) (p : Nat) : Port := tget {} s.ngl.port p

def State.setPort (s : State) (p : Nat) (x : Port) : State :=
  { s with ngl := { s.ngl with port := tset {} s.ngl.port p x } }

/-- A counter of port p (R583). -/
def nglCtr (p k : Nat) : Nat := bNGL + 0x1040 + 0x100 * p + 8 * k

/-- This device's ID (R585). -/
def State.devId (s : State) : Nat := s.cf (bNGL + 0x8000) 10 0

/-- An effect of a unit waits at the release gate (R641). -/
def State.gatePut (s : State) (u : Nat) (e : Eff) : State := { s with flt := { s.flt with gate := s.flt.gate ++ [(u, e)] } }

/-- A message of a unit, held at its release gate. -/
def State.gateMsg (s : State) (u : Nat) (m : Msg) : State := s.gatePut u (.msg m)

/-- Bytes padded with zeros to a multiple of 8. -/
def pad8 (b : List Byte) : List Byte := b ++ leBytes ((8 - b.length % 8) % 8) 0

/-- The bytes of a message from this device (R569). -/
def State.msgBytes (s : State) (m : Msg) : List Byte :=
  let b := pad8 m.payload
  leBytes 1 m.type ++ leBytes 1 (putB m.poison 0) ++ leBytes 2 0 ++ leBytes 4 (16 + b.length) ++
  leBytes 2 s.devId ++ leBytes 2 (m.dst + putB m.toEp 15) ++ leBytes 4 0 ++ b

/-- Virtual channel of a message type: 0 CTRL, 1 BATCH, 2 GREQ, 3 GRSP (R570). -/
def msgVc (type : Nat) : Nat :=
  if type = 1 ∨ type = 6 ∨ type = 7 then 1 else if type = 3 then 2 else if type = 4 ∨ type = 5 then 3 else 0

/-- Available credits of a channel (R567). -/
def Port.avail (x : Port) (v : Nat) : Nat := (x.adv.getD v 0 + x.freed.getD v 0 + 4096 - x.sent.getD v 0 % 4096) % 4096

/-- Ports of the trunk a port belongs to: those whose peer reports the same kind and ID (R580). -/
def State.trunkOf (s : State) (p : Nat) : List Nat :=
  match (s.port p).peer with
  | none => [p]
  | some a => (List.range 16).filter (fun q => match (s.port q).peer with | some b => b.kind = a.kind && b.id = a.id | none => false)

/-- Key of a destination: a device ID, or 2,048 + an endpoint ID (R586). -/
def dstKey (m : Msg) : Nat := if m.toEp then 2048 + m.dst else m.dst

/-- Ports of the trunk toward a destination; none without a route (R586). -/
def State.route (s : State) (toEp : Bool) (d : Nat) : Option (List Nat) :=
  let direct := (List.range 16).find? (fun p => match (s.port p).peer with
    | some a => if toEp then a.kind = 1 && a.id ≤ d && d < a.id + a.count else a.kind = 0 && a.id = d
    | none => false)
  match direct with
  | some p => some (s.trunkOf p)
  | none =>
    let e := s.mem.le (put (s.cf (bNGL + 0x8008) 43 6) 6 38 + 2 * (if toEp then 2048 + d else d)) 2
    if bit e 15 then some (s.trunkOf (fld e 3 0)) else none

/-- ACTIVE members of a trunk, most available credits first by the rule of R580. -/
def State.member (s : State) (trunk : List Nat) (vc : Nat) : Option Nat :=
  trunk.foldl (fun best p =>
    if (s.port p).state ≠ .active || s.fencedU (uPort p) then best
    else match best with
      | none => some p
      | some b => if (s.port b).avail vc < (s.port p).avail vc then some p else best) none

/-- A message joins a port's transmit stream of its channel. -/
def State.sendOn (s : State) (p : Nat) (m : Msg) : State :=
  let x := s.port p
  let b := s.msgBytes m
  let v := msgVc m.type
  (s.setPort p { x with
    tx := x.tx.set v (x.tx.getD v [] ++ [b])
    ctrl := if v = 0 then x.ctrl ++ [(b, none)] else x.ctrl }).emit (.msg p m)

/-- Every index of a request is substituted with a cause; its read slot frees (R460, R588). -/
def State.gthFailReq (s : State) (n cause : Nat) : State :=
  let sl := tget {} s.gth.slots n
  match sl.req with
  | none => s
  | some r =>
    { s with gth := { s.gth with
        slots := tset {} s.gth.slots n { sl with req := none }
        fetch := s.gth.fetch.map (fun f =>
          if f.task = r.task && f.stage = r.stage then
            { f with got := r.poss.foldl (fun g p => tset none g p (some (.sub cause))) f.got }
          else f) } }

/-- A message waits for an ACTIVE member of its trunk. -/
def State.waitMsg (s : State) (u : Nat) (m : Msg) : State := { s with ngl := { s.ngl with wait := s.ngl.wait ++ [{ unit := u, msg := m }] } }

/-- A message to an unreachable destination (R588). -/
def State.unreachMsg (s : State) (m : Msg) : State :=
  let s := s.err (bNGL + 0xC000)
  if m.type = 3 then
    let id := leNat (m.payload.take 4)
    s.gthFailReq (4096 * fld id 22 20 + id % 4096) 9
  else s

/-- The port that would carry a message now: its destination has a trunk with an ACTIVE member (R580, R586). -/
def State.portFor (s : State) (m : Msg) : Option Nat := (s.route m.toEp m.dst).bind (fun tr => s.member tr (msgVc m.type))

/-- Send a message by the rules of R586 and R588: on the member with most credits, waiting, or unreachable. A BATCH_PAGE
keeps waiting. -/
def State.sendMsg (s : State) (u : Nat) (m : Msg) : State :=
  match s.portFor m with
  | some p => s.sendOn p m
  | none =>
    if (s.route m.toEp m.dst).isNone || s.ngl.dom.unreach.contains (dstKey m) then
      let s := s.unreachMsg m
      if m.type = 1 then s.waitMsg u m else s
    else s.waitMsg u m

/-- The message that some bytes hold. -/
def msgOf (b : List Byte) : Msg :=
  let f (a n : Nat) : Nat := leNat ((b.drop a).take n)
  { dst := f 0xA 2 % 2 ^ 14, toEp := bit (f 0xA 2) 15, type := f 0 1, payload := b.drop 16, poison := bit (f 1 1) 0 }

/-- A CTRL message held by a port that left ACTIVE goes whole to another member, or is discarded (R564). -/
def State.resendCtrl (s : State) (tr : List Nat) (b : List Byte) : State :=
  match s.member tr 0 with
  | some p =>
    let x := s.port p
    s.setPort p { x with tx := x.tx.set 0 (x.tx.getD 0 [] ++ [b]), ctrl := x.ctrl ++ [(b, none)] }
  | none => s

/-- A port out of ACTIVE keeps its peer's name and drops every buffer (R564). -/
def Port.drop (x : Port) (st : PortState) (cause : Nat) : Port :=
  { state := st, cause := cause, peer := x.peer, attempts := x.attempts }

/-- A port leaves ACTIVE: its buffers and partly received messages are discarded, its CTRL messages re-sent (R564). -/
def State.leaveActive (s : State) (p : Nat) (st : PortState) (cause : Nat) : State :=
  let x := s.port p
  let tr := (s.trunkOf p).filter (fun q => decide (q ≠ p))
  x.ctrl.foldl (fun s c => s.resendCtrl tr c.1) (s.setPort p (x.drop st cause))

/-- Messages that waited are sent again once a member of a trunk is ACTIVE. -/
def State.flushWait (s : State) : State :=
  let un := s.ngl.dom.unreach.filter (fun k =>
    match s.route (decide (2048 ≤ k)) (if 2048 ≤ k then k - 2048 else k) with
    | some tr => (s.member tr 0).isNone
    | none => true)
  let w := s.ngl.wait
  w.foldl (fun s m => match s.portFor m.msg with | some p => s.sendOn p m.msg | none => s.waitMsg m.unit m.msg)
    { s with ngl := { s.ngl with wait := [], dom := { s.ngl.dom with unreach := un } } }

end Sys2Proof.Machine
end

