-- ==== Sys2Proof/Machine/ServoOps.lean ====
section
/-! DEFINITION. The servo that disciplines fabric time (R518, R604, R605). -/

namespace Sys2Proof.Machine

/-- SEN_TIME_CFG.source (R530). -/
def State.timeSrc (s : State) : Nat := s.cf (bSEN + 8) 1 0

/-- One Sync with its offset from the master in ns: slewed, stepped or blocked. -/
def State.servoSync (s : State) (off : Int) : State :=
  let v := s.servo
  let near := off.natAbs ≤ 1000000
  let step := !near && s.cb (bSEN + 8) 5
  let good := if off.natAbs < 1000 then v.good + 1 else 0
  let st := if v.state = .locked || good ≥ 16 then ServoState.locked else .locking
  let s := { s with servo := { v with
      state := st, good := good, offset := off, holdC := v.holdC
      blocked := v.blocked || (!near && !step)
      slew := if step then 0 else -2 * off, slewC := 0 } }
  if step then { s with time := ((s.time : Int) - 2 * off).toNat } else s

/-- The servo enters HOLDOVER: time goes on from SYS_REFCLK. -/
def State.servoHold (s : State) : State :=
  if s.servo.state = .holdover then s
  else { s with servo := { s.servo with state := .holdover, holdC := 0, good := 0, slew := 0, slewC := 0 } }

/-- The source of fabric time is lost (R518): a servo that has locked or was locking holds over. -/
def State.servoLost (s : State) : State := if s.servo.state = .freeRun then s else s.servoHold

end Sys2Proof.Machine
end

