-- ==== Sys2Proof/Machine/LinkOps.lean ====
section
/-!
DEFINITION. What a loss of the host link, of an Ethernet port or of a Nguorn port does wherever it comes from.
-/

namespace Sys2Proof.Machine

/-! ### Host link (R621, R628) -/

/-- Modified lines of the coherent cache. -/
def Hif.dirty (h : Hif) : Nat :=
  (h.cc.filter (fun e => match e.2 with | some l => l.st = .modified | none => false)).length

/-- Commands with a host stream: a stage whose active stream lies in host memory (R252). -/
def State.hostTasks (s : State) : List Nat :=
  (s.str.strm.filterMap (fun e => match e.2 with
    | some x => if x.desc.space = 1 then some x.task else none
    | none => none)).eraseDups

/-- Transfers to and from the host end FENCED (R50, R621). -/
def State.hostTransfersFenced (s : State) : State :=
  let s := s.hostTasks.foldl (fun s t => (s.modTask t (fun x => x.endWith stFENCED 0)).dropStreamsOf t) s
  let s := (s.hif.reads.filterMap (fun e => e.2.bind HostRead.task)).foldl
    (fun s t => s.modTask t (fun x => x.endWith stFENCED 0)) s
  { s with hif := { s.hif with reads := [] } }

/-- A reset of HIF (R621): configuration space and the MSI-X table reset, requests abandoned, the cache invalidated with
its Modified lines lost (R628), BAR2's size retaken (R616). `link` tells whether the link goes down too. -/
def State.hifReset (s : State) (link : Bool) : State :=
  let s := s.hostTransfersFenced
  let s := s.errN (bHIF + 0x1048) s.hif.dirty
  let s := s.clearRegs (bHIF + 0x10000) (bHIF + 0x18000)
  { s with hif := {
      training := link
      linkUp := s.hif.linkUp && !link
      flit := s.hif.flit && !link
      cxlCache := s.hif.cxlCache && !link
      cxlMem := s.hif.cxlMem && !link
      rate := if link then 0 else s.hif.rate
      width := if link then 0 else s.hif.width
      bar2Log2 := s.cf (bHIF + 0x20) 63 56
      bar2Taken := true
      nextTag := s.hif.nextTag } }

/-! ### Ethernet ports (R60, R333) -/

/-- A port goes down: its resolution entries are cleared, it is no path any more (R333), and a servo that took its time
from it, or from either port with both down, holds over (R518). -/
def State.ethDown (s : State) (x : Nat) : State :=
  let s := { s with eth := { s.eth with
      port := tset {} s.eth.port x {}
      conn := (s.eth.conn.map (fun (e : Nat × Conn) =>
        if e.1 % 2 = x then (e.1, { reads := e.2.reads : Conn }) else e)).filter (fun (e : Nat × Conn) => decide (e.2 ≠ ({} : Conn))) } }
  let other : EthPort := tget {} s.eth.port (1 - x)
  s.whenB (s.timeSrc = x || (s.timeSrc = 2 && !other.up)) State.servoLost

/-! ### Nguorn ports (R556, R564) -/

/-- A LINK trace record for a change of state (R664). -/
def State.linkTrace (s : State) (p : Nat) (old new : PortState) (cause : Nat) : State :=
  s.trace 0x06 (uPort p) (leBytes 1 p ++ leBytes 1 old.ctorIdx ++ leBytes 1 new.ctorIdx ++ leBytes 1 cause)

/-- A port changes its training state (R556). -/
def State.portTo (s : State) (p : Nat) (st : PortState) (cause : Nat) : State :=
  let x := s.port p
  let s := if x.state = .active && st ≠ .active then s.leaveActive p st cause
    else if st = .active then s.setPort p { x with state := st, cause := cause }
    else s.setPort p { (x.drop st cause) with peer := if st = .disabled then none else x.peer }
  let s := s.whenB (st = .detect && x.state ≠ .detect) (·.err (nglCtr p 8))
  s.linkTrace p x.state st cause

/-- A Nguorn port in DETECT whose loss of signal has been deasserted enters PMD_TRAIN (R556). -/
def State.detectExit (s : State) (p : Nat) : State :=
  if (s.port p).state = .detect && !(tget {} s.clk.lane p).los then s.portTo p .pmdTrain (s.port p).cause else s

/-- PORT_CFG enable of port p in the current configuration (R582). -/
def State.portEn (s : State) (p : Nat) : Bool := s.cb (bNGL + 0x1000 + 0x100 * p) 63

end Sys2Proof.Machine
end

