-- ==== Sys2Proof/Machine/Clk.lean ====
section
/-!
DEFINITION. Clock islands, adaptive loops and SerDes lanes (chapter 3).
-/

namespace Sys2Proof.Machine

/-! ### Registers and fields of an island (R73 to R75) -/
def rIslCfg (n : Nat) : Nat := bCLK + 0x1000 + 0x40 * (n - 1)
def rIslDroop (n : Nat) : Nat := bCLK + 0x1010 + 0x40 * (n - 1)
def rIslVlimit (n : Nat) : Nat := bCLK + 0x1018 + 0x40 * (n - 1)

def State.isl (s : State) (n : Nat) : Island := tget {} s.clk.isl n
def State.setIsl (s : State) (n : Nat) (x : Island) : State :=
  { s with clk := { s.clk with isl := tset {} s.clk.isl n x } }

/-- The CLK configuration of an island has been committed (R57). -/
def State.islCfgd (s : State) (n : Nat) : Bool := s.cfg (rIslCfg n) ≠ 0

/-- f_min_code in force; nominal until the configuration is committed (R57, R73). -/
def State.fMin (s : State) (n : Nat) : Nat := if s.islCfgd n then s.cf (rIslCfg n) 23 16 else islandNominal n
/-- f_max_code in force. -/
def State.fMax (s : State) (n : Nat) : Nat := if s.islCfgd n then s.cf (rIslCfg n) 31 24 else islandNominal n
/-- slack_target. -/
def State.slackTarget (s : State) (n : Nat) : Int := s.cf (rIslCfg n) 5 0

/-- The thermal ceiling of the island's die (R98); the I/O die carries no DVFS island. -/
def State.thermCeil (s : State) (n : Nat) : Nat :=
  max (s.fMin n) (if islandDie n = 0 then s.pwr.cd0Ceil else if islandDie n = 1 then s.pwr.cd1Ceil else 80)

/-- The effective frequency ceiling: the least of the four (R62), never below f_min_code. -/
def State.effCeil (s : State) (n : Nat) : Nat :=
  let i := s.isl n
  max (s.fMin n) (min (min (s.fMax n) (s.thermCeil n))
    (min (islandNominal n - i.limitDrop) (islandNominal n - i.capDrop)))

/-- The table voltage for a frequency code (R57, R61). -/
def State.vPoint (s : State) (n f : Nat) : Nat := tget 60 s.clk.vf (256 * n + f)

/-- A running island whose target or ceiling moved: the target stays at or below the ceiling and a ramp starts. -/
def State.retarget (s : State) (n t : Nat) : State :=
  let i := s.isl n
  if i.state = .off then s
  else
    let t := min t (s.effCeil n)
    s.setIsl n { i with target := t, state := if i.f = t then i.state else .ramp }

/-- An island PLL starts at nominal frequency and the table voltage (R57). -/
def State.startIsland (s : State) (n : Nat) : State :=
  let f := islandNominal n
  s.setIsl n { state := .run, f := f, v := if n ≤ 2 then 0 else s.vPoint n f, target := f }

/-- An island's clock stops. -/
def State.stopIsland (s : State) (n : Nat) : State := s.setIsl n {}

/-! ### Loops -/

/-- R63: the demand decision of a DVFS island. A droop in this interval or the last suppresses a rise (R66). -/
def execDemandDecision (n demandUs : Nat) (aboveAll idleHalf : Bool) (s : State) : Host.Outcome State Fault Refusal :=
  let i := s.isl n
  if islandKind n = .dvfs && i.state ≠ .off then
    let pol := s.cf (rIslCfg n) 7 6
    let t :=
      if !s.islCfgd n then i.target
      else if pol = 1 then s.effCeil n
      else if pol = 2 then s.fMin n
      else if demandUs < s.cf (bCLK + 0x100) 15 0 then s.effCeil n
      else if (demandUs > s.cf (bCLK + 0x100) 31 16 && aboveAll) || idleHalf then max (s.fMin n) (i.target - 4)
      else i.target
    let t := if (i.droopThis || i.droopPrev) && t > i.target then i.target else t
    .next ((s.setIsl n { i with droopPrev := i.droopThis, droopThis := false }).retarget n t)
  else .next s

/-- R64: one frequency step; on a rise only once the voltage has reached the target's table point. -/
def execFreqStep (n : Nat) (s : State) : Host.Outcome State Fault Refusal :=
  let i := s.isl n
  if i.state ≠ .off && i.f < i.target && s.vPoint n i.target ≤ i.v then
    .next (s.setIsl n { i with f := i.f + 1, state := if i.f + 1 = i.target then .run else i.state })
  else if i.state ≠ .off && i.target < i.f then
    .next (s.setIsl n { i with f := i.f - 1, state := if i.f - 1 = i.target && i.v ≤ s.vPoint n i.target then .run else i.state })
  else .next s

/-- R64: one voltage step of a ramp: up first on a rise, down last on a fall. -/
def execVoltageStep (n : Nat) (s : State) : Host.Outcome State Fault Refusal :=
  let i := s.isl n
  if i.state = .ramp && i.v < s.vPoint n i.target && i.f ≤ i.target then .next (s.setIsl n { i with v := i.v + 1 })
  else if i.state = .ramp && i.f = i.target && s.vPoint n i.target < i.v then
    .next (s.setIsl n { i with v := i.v - 1, state := if i.v - 1 = s.vPoint n i.target then .run else i.state })
  else .next s

/-- R65: the 2 µs trim against the slack, suspended during a ramp; it starts with the committed configuration (R57). -/
def execVoltageTrim (n : Nat) (slack : Int) (s : State) : Host.Outcome State Fault Refusal :=
  let i := s.isl n
  if islandKind n = .fixed || i.state = .off then .next s
  else
    let v :=
      if i.state = .ramp || !s.islCfgd n then i.v
      else if slack > s.slackTarget n + 2 then max 20 (i.v - 1)
      else if slack < s.slackTarget n then min (i.v + 1) (max i.v (s.cf (rIslCfg n) 15 8))
      else i.v
    .next (s.setIsl n { i with v := v, slack := slack })

/-- R66: negative slack stretches the clock and counts a droop. -/
def execDroop (n : Nat) (s : State) : Host.Outcome State Fault Refusal :=
  let i := s.isl n
  if islandKind n = .fixed || i.state = .off then .next s
  else .next ((s.setIsl n { i with stretch := true, droopThis := true }).bump (rIslDroop n) 1)

/-- R66: the stretch ends. -/
def execStretchEnd (n : Nat) (s : State) : Host.Outcome State Fault Refusal :=
  .next (s.setIsl n { s.isl n with stretch := false })

/-- R68: four intervals at v_max_code below the slack target: the island enters LIMIT, and a DVFS island's limit
ceiling falls by one code, by one more each time this comes again. -/
def execLimitEntry (n : Nat) (s : State) : Host.Outcome State Fault Refusal :=
  let i := s.isl n
  if islandKind n = .fixed || i.state = .off || !s.islCfgd n || i.v < s.cf (rIslCfg n) 15 8 then .next s
  else
    let s := s.whenB (i.state ≠ .limit) (·.err (rIslVlimit n))
    let fall := islandKind n = .dvfs && s.fMin n < islandNominal n - i.limitDrop
    let s := s.setIsl n { i with state := .limit, limitDrop := if fall then i.limitDrop + 1 else i.limitDrop }
    .next (s.setIsl n { s.isl n with target := min i.target (s.effCeil n) })

/-- R68: after 100 good intervals the limit ceiling rises by one code. -/
def execLimitCeilingRise (n : Nat) (s : State) : Host.Outcome State Fault Refusal :=
  let i := s.isl n
  let st := if i.state = .limit && i.limitDrop ≤ 1 then .run else i.state
  .next (s.setIsl n { i with limitDrop := i.limitDrop - 1, state := st })

/-! ### SerDes lanes (R69 to R72) -/
def rSdCtl (l : Nat) : Nat := bCLK + 0x4000 + 0x40 * l
def rSdFreeze (l : Nat) : Nat := bCLK + 0x4008 + 0x40 * l

def State.lane (s : State) (l : Nat) : Lane := tget {} s.clk.lane l
def State.setLane (s : State) (l : Nat) (x : Lane) : State :=
  { s with clk := { s.clk with lane := tset {} s.clk.lane l x } }

def State.frozen (s : State) (l : Nat) : Bool := wbit (s.reg (rSdFreeze l)) 0

/-- The loss-of-signal threshold in mV (R71); amplitude is held in 2 mV units (R78). -/
def State.losThreshold (s : State) (l : Nat) : Nat :=
  let floor := s.cf (rSdCtl l) 31 24
  if s.cb (rSdCtl l) 2 then
    min (max (s.cf (rSdCtl l) 15 12 * (2 * (s.lane l).amp) / 16) floor) (s.cf (rSdCtl l) 23 16)
  else floor

/-- One parameter of a slice moved by one step: 0 CTLE, 1 to 12 a DFE tap, 13 phase (R69). -/
def Slice.adapt (c : Slice) (param : Nat) (up : Bool) : Slice :=
  let d : Int := if up then 1 else -1
  if param = 0 then { c with ctle := c.ctle + d }
  else if param ≤ 12 then { c with dfe := c.dfe.set (param - 1) (c.dfe.getD (param - 1) 0 + d) }
  else if param = 13 then { c with phase := c.phase + d }
  else c

/-- R69: a sign-sign LMS step of the main slice, unless adaptation is off or the lane is frozen (R72). -/
def execEqAdaptUpdate (l param : Nat) (up : Bool) (s : State) : Host.Outcome State Fault Refusal :=
  let x := s.lane l
  if l < 24 && s.cb (rSdCtl l) 1 && !s.frozen l then .next (s.setLane l { x with main := x.main.adapt param up })
  else .next s

/-- R70: the periodic recalibration of the shadow slice starts. -/
def execShadowRecalStart (l : Nat) (s : State) : Host.Outcome State Fault Refusal :=
  let x := s.lane l
  if l < 24 && s.cb (rSdCtl l) 3 && s.cf (rSdCtl l) 7 4 ≠ 0 && !x.los then .next (s.setLane l { x with recal := true })
  else .next s

/-- The link-retry state machine of the lane's port is idle (R70). -/
def State.retryIdle (s : State) (l : Nat) : Bool := l ≥ 16 || (s.port l).replay.isNone

/-- A recalibration that a request joined has an outcome: 0 no swap, 1 swapped, 2 abandoned (R670). -/
def State.recalOut (s : State) (l o : Nat) : State :=
  if s.tel.bistLane = some l then { s with tel := { s.tel with recalOut := o } } else s

/-- The recalibration of a lane ends with the shadow eye; at 4 mV or more of gain the slices swap, once the retry machine
is idle and the lane is not frozen (R70, R72). A swap that must wait stays due. -/
def State.sliceSwap (s : State) (l shadowEyeH shadowEyeW : Nat) : State :=
  let x := s.lane l
  if l < 24 && (x.recal || x.swapDue) && !x.los then
    let sh := { x.shadow with eyeH := shadowEyeH, eyeW := shadowEyeW }
    if shadowEyeH < x.main.eyeH + 4 then (s.setLane l { x with shadow := sh, recal := false, swapDue := false }).recalOut l 0
    else if s.frozen l || !s.retryIdle l then (s.setLane l { x with shadow := sh, recal := false, swapDue := true }).recalOut l 0
    else ((s.setLane l { x with main := sh, shadow := x.main, recal := false, swapDue := false }).bump (bCLK + 0x4020 + 0x40 * l) 1).recalOut l 1
  else s

def execSliceSwap (l shadowEyeH shadowEyeW : Nat) (s : State) : Host.Outcome State Fault Refusal :=
  .next (s.sliceSwap l shadowEyeH shadowEyeW)

/-- R71: loss of signal is asserted, counted and reported; a recalibration or a due swap is abandoned (R70). -/
def execLosAssert (l : Nat) (s : State) : Host.Outcome State Fault Refusal :=
  let x := s.lane l
  if l < 24 && !x.los then
    .next (((s.setLane l { x with los := true, recal := false, swapDue := false }).err (bCLK + 0x4018 + 0x40 * l)).recalOut l 2)
  else .next s

/-- R71: loss of signal is deasserted, and a Nguorn port in DETECT begins training (R556). -/
def execLosDeassert (l amp : Nat) (s : State) : Host.Outcome State Fault Refusal :=
  if l < 24 then
    let s := s.setLane l { s.lane l with los := false, amp := amp % 256 }
    .next (if l < 16 then s.detectExit l else s)
  else .next s

/-- Index of a board clock, the detail of its fault. -/
def refIdx : RefClk → Nat
  | .sys => 0 | .pe => 1 | .eth => 2 | .ng n => 3 + n.val

end Sys2Proof.Machine
end

