-- ==== Sys2Proof/Machine/MemOps.lean ====
section
/-!
DEFINITION. The region map, uncorrectable errors and their repair, shared by every access that detects one
(chapter 8).
-/

namespace Sys2Proof.Machine

/-! ### The region map (R205 to R208) -/

/-- A region map entry (R205). -/
structure MapEntry where
  base : Nat
  length : Nat
  kind : Nat
  policy : Nat
  ownerId : Nat
  ownerAux : Nat
  deriving DecidableEq, Repr

/-- Address of entry i of the current map (R209). -/
def State.mapAddr (s : State) (i : Nat) : Nat := put (s.cf (bMEM + 0x10) 43 5) 5 39 + 32 * i

/-- Entries of the current map. -/
def State.mapCount (s : State) : Nat := s.cf (bMEM + 0x10) 60 44

/-- Entry i, unless its line is poisoned or its memory cannot be read (R206, R208). -/
def State.mapEntry (s : State) (i : Nat) : Option MapEntry :=
  let a := s.mapAddr i
  if !s.reachable a || s.mem.poisoned a then none
  else some {
    base := s.mem.le a 8 % 2 ^ 44, length := s.mem.le (a + 8) 8, kind := s.mem.le (a + 0x10) 1
    policy := s.mem.le (a + 0x11) 1, ownerId := s.mem.le (a + 0x14) 4, ownerAux := s.mem.le (a + 0x18) 4 }

/-- The binary search of R206, with enough fuel for 65,536 entries. -/
def State.mapSearch (s : State) (a : Nat) : Nat → Nat → Nat → Option MapEntry
  | 0, _, _ => none
  | fuel + 1, lo, hi =>
    if hi ≤ lo then none
    else
      let mid := (lo + hi) / 2
      match s.mapEntry mid with
      | none => none
      | some e =>
        if a < e.base then s.mapSearch a fuel lo mid
        else if e.base + e.length ≤ a then s.mapSearch a fuel (mid + 1) hi
        else some e

/-- The owner of an address (R206). -/
def State.ownerOf (s : State) (a : Nat) : Option MapEntry := s.mapSearch a 18 0 s.mapCount

/-- A die's stacks are owned: some entry not FREE overlaps its range, or an entry cannot be read (R208). -/
def State.dieOwned (s : State) (die : Nat) : Bool :=
  (List.range s.mapCount).any (fun i => match s.mapEntry i with
    | none => true
    | some e => e.kind ≠ 0 && e.base < 0x2000000000 * (die + 1) && 0x2000000000 * die < e.base + e.length)

/-! ### Table rows and their repair (R204, R446 to R448) -/

/-- A table descriptor as read from the directory (R446). -/
structure TblDesc where
  rowCount : Nat
  dim : Nat
  fmt : Nat
  flags : Nat
  rowStride : Nat
  shardRows : Nat
  mapAddr : Nat
  defaultAddr : Nat
  hotBase : Nat
  hotSetsLog2 : Nat
  hotThresh : Nat
  replica : Nat
  deriving DecidableEq, Repr

/-- Address of descriptor t in a generation's directory (R469). -/
def State.tblDescAddr (s : State) (g t : Nat) : Nat := put (wfld (s.cfgAt g (bGTH + 0x10)) 43 6) 6 38 + 64 * t

/-- A table descriptor in its 64 bytes (R446). A device address uses 44 bits (R7). -/
def TblDesc.ofBytes (b : List Byte) : TblDesc :=
  let f (a n : Nat) : Nat := leNat ((b.drop a).take n)
  { rowCount := f 0 4, dim := f 4 2, fmt := f 6 1, flags := f 7 1
    rowStride := f 8 4, shardRows := f 0xC 4, mapAddr := f 0x10 8 % 2 ^ 44
    defaultAddr := f 0x18 8 % 2 ^ 44, hotBase := f 0x20 8 % 2 ^ 44, hotSetsLog2 := f 0x28 1
    hotThresh := f 0x2A 2, replica := f 0x2C 2 }

/-- Descriptor t of the directory of a generation (R446). -/
def State.tblDesc (s : State) (g t : Nat) : TblDesc := TblDesc.ofBytes (s.mem.rds (s.tblDescAddr g t) 64)

/-- The version slots of a table. -/
def State.verSlots (s : State) (t : Nat) : List GthVer := (List.range 4).map (fun v => tget {} s.gth.ver (4 * t + v))

/-- The slot in force that holds a version of a table. -/
def State.verFind (s : State) (t v : Nat) : Option GthVer :=
  (s.verSlots t).find? (fun x => x.state ≠ .free && x.version = v)

/-- The CURRENT version of a table. -/
def State.verCurrent (s : State) (t : Nat) : Option GthVer := (s.verSlots t).find? (fun x => x.state = .current)

/-- Map a row to the default row and mark the table degraded (R204, R463): nothing when the list is full. -/
def State.mapToDefault (s : State) (r : Remap) : State :=
  match (List.range 1024).find? (fun e => (tget none s.gth.remap e).isNone) with
  | none => s
  | some e =>
    ({ s with gth := { s.gth with remap := tset none s.gth.remap e (some r) } }).setBits (bGTH + 0x60000 + 8 * r.table) (2 ^ 63)

/-- A declared loss of a table row (R649): journal, log and counter. -/
def State.declareRowLoss (s : State) (table row : Nat) : State :=
  ((s.journal 0x05 0 (put table 32 12 + put row 0 32) (2 ^ 63 + 4) 0).logOnly 0 0x1B uLDG 4 { declared := true }).err (bFLT + 0x1038)

/-- A TABLE_PULL for rows of a version (R608, R610). -/
def pullMsg (dev table version first count : Nat) : Msg :=
  { dst := dev, toEp := false, type := 8
    payload := leBytes 2 0x108 ++ leBytes 6 0 ++ leBytes 2 table ++ leBytes 2 0 ++ leBytes 4 version ++ leBytes 4 first ++ leBytes 4 count }

/-- Start or decide the repair of one row of a poisoned line (R204 step 4). -/
def State.repairRow (s : State) (refetch : Bool) (d : TblDesc) (v : GthVer) (table row addr : Nat) : State :=
  let copy := d.flags % 4 = 2 || bit d.replica 15 || bit v.host 0
  if refetch && copy then
    let s := { s with mem := { s.mem with repairs := s.mem.repairs ++ [{ table := table, version := v.version, row := row, addr := addr, bytes := d.rowStride }] } }
    if bit d.replica 15 then s.gateMsg uDomain (pullMsg (fld d.replica 10 0) table v.version row 1) else s
  else
    (s.mapToDefault { table := table, version := v.version, row := row }).whenB (d.flags % 4 = 1 && !copy)
      (·.declareRowLoss table row)

/-- The rows of a version that overlap a line, by row number in this device's memory. -/
def rowsAt (d : TblDesc) (v : GthVer) (line : Nat) : List Nat :=
  if d.rowStride = 0 ∨ line * 64 + 64 ≤ v.base then []
  else
    let lo := (line * 64 - v.base) / d.rowStride
    let hi := (line * 64 + 63 - v.base) / d.rowStride
    (span lo (hi + 1 - lo)).filter (fun r => d.flags % 4 = 1 || r < d.rowCount)

/-- The row that lies at a place of this device's memory: for a SHARDED table, that of the map entry that homes the
shard here (R448). -/
def State.rowName (s : State) (d : TblDesc) (r : Nat) : Nat :=
  if d.flags % 4 ≠ 1 then r
  else
    match (List.range (cdiv d.rowCount d.shardRows)).find? (fun e =>
      let w := s.mem.le (d.mapAddr + 4 * e) 4
      fld w 10 0 = s.devId && fld w 31 16 = r / d.shardRows) with
    | some e => e * d.shardRows + r % d.shardRows
    | none => r

/-- Line address of the Ledger store: it lies outside the device address map. -/
def storeAddr (off : Nat) : Nat := 2 ^ 44 + off

/-- The kind an owner is reported with (R205, R212). -/
def ownerKind (o : Option MapEntry) : Nat := match o with | none => 0xF | some e => min e.kind 8

/-- MEM_LAST_UE and its owner (R212). -/
def State.setLastUe (s : State) (src a : Nat) (o : Option MapEntry) : State :=
  let ids := match o with | none => 0 | some e => put e.ownerAux 32 32 + put e.ownerId 0 32
  (s.setReg (bMEM + 0x500) (BitVec.ofNat 64 (put src 60 4 + put (ownerKind o) 56 4 + put a 0 44))).setReg
    (bMEM + 0x508) (BitVec.ofNat 64 ids)

/-- The counter an error at an address raises: offset 0 corrected, 8 uncorrectable (R212). -/
def errCounter (a k : Nat) : Nat :=
  match region a with
  | some (.hbm _) => bMEM + 0x200 + k + 0x20 * stackOf a
  | _ => bMEM + 0x400 + k

/-- The unit a memory error is recorded with (R639). -/
def memUnit (a : Nat) : Nat :=
  match region a with
  | some (.hbm _) => uStack (stackOf a)
  | some (.depot b) => uDepot b
  | some (.bay n) => n
  | none => uLedgerStore

/-- A corrected error: counted and reported (R197). -/
def State.memCe (s : State) (a : Nat) : State := (s.err (errCounter a 0)).faultC0 0x07 (memUnit a) a

/-- R197: the rows of an embedding table on a line, repaired or declared lost as the map entry's policy says. -/
def State.repairOwned (s : State) (line : Nat) (overwritten : Bool) : Option MapEntry → State
  | none => s
  | some e =>
    let rep := fld e.policy 3 2
    if overwritten || e.kind ≠ 3 || (rep ≠ 1 && rep ≠ 2) then s
    else match s.verFind e.ownerId e.ownerAux with
      | none => s
      | some v =>
        let d := s.tblDesc s.gen e.ownerId
        (rowsAt d v line).foldl (fun s r => s.repairRow (rep = 1) d v e.ownerId (s.rowName d r) (v.base + r * d.rowStride)) s

/-- An uncorrectable error is detected at an address: poison, owner, report, repair, interrupt (R200, R204).
`src` is the detecting source of R212. A line that an engine overwrote meanwhile stays clean (R203). -/
def State.memUe (s : State) (a src : Nat) (overwritten : Bool := false) : State :=
  let line := a / 64
  let s := if overwritten then s else { s with mem := s.mem.setPoison line true }
  let o := s.ownerOf a
  let s := (s.err (errCounter a 8)).setLastUe (if overwritten then 6 else src) a o
  let ids := match o with | none => 0 | some e => put e.ownerAux 32 32 + put e.ownerId 0 32
  let s := s.faultC0 0x08 (memUnit a) (a % 2 ^ 44) ids
  let s := s.repairOwned line overwritten o
  let irq := match o with | none => s.cb (bMEM + 0x20) 2 | some e => bit e.policy 0
  s.whenB irq (·.event 1)

/-- A poisoned write: the lines it touches are poisoned and named, with no new report (R198, R200). -/
def State.poisonWrite (s : State) (a n : Nat) : State :=
  ({ s with mem := s.mem.poisonLines a n }).setLastUe 5 a (s.ownerOf a)

end Sys2Proof.Machine
end

