-- ==== Sys2Proof/Machine/RegMap.lean ====
section
/-!
DEFINITION. The register map of BAR0 (R8, R684): every register family with its base, its index strides, its type code
(R13) and the bits a write can reach. An offset no row covers is undefined (R10).
-/

namespace Sys2Proof.Machine

/-- Register type codes (R13); counters carry their class (R660). -/
inductive RegTyp where | rw | ro | w1c | wo | st | lv | sec | event | error | stall
  deriving DecidableEq, Repr

/-- One register family: first offset, strides and counts of its two indices, type, bits a write sets, bits a write of 1
clears, and whether a 32-bit access reaches it whole. -/
structure RegFam where
  base : Nat
  s1 : Nat
  c1 : Nat
  s2 : Nat
  c2 : Nat
  typ : RegTyp
  mask : Nat
  w1c : Nat
  deriving DecidableEq, Repr

/-- Registers of block GLB. -/
def famGLB : List RegFam := [
  ⟨0, 8, 1, 8, 1, .ro, 0, 0⟩, -- GLB_ID (R688)
  ⟨8, 8, 1, 8, 1, .ro, 0, 0⟩, -- GLB_DEVICE_ID (R689)
  ⟨0x10, 8, 1, 8, 1, .ro, 0, 0⟩, -- GLB_CAP0 (R690)
  ⟨0x18, 8, 1, 8, 1, .ro, 0, 0⟩, -- GLB_CAP1 (R690)
  ⟨0x20, 8, 1, 8, 1, .ro, 0, 0⟩, -- GLB_STRAP (R47)
  ⟨0x30, 8, 1, 8, 1, .rw, 0xffffffffffffffff, 0⟩, -- GLB_SCRATCH (R691)
  ⟨0x100, 8, 1, 8, 1, .w1c, 0, 0x80000000⟩, -- GLB_SEM_ERR (R235)
  ⟨0x800, 8, 4, 8, 1, .rw, 0xffffffffffffffff, 0⟩, -- GLB_AZM_KEY (R443)
  ⟨0x820, 8, 2, 8, 1, .rw, 0xffffffffffffffff, 0⟩, -- GLB_AZM_CTR (R443)
  ⟨0x830, 8, 1, 8, 1, .wo, 0, 0⟩, -- GLB_AZM_GO (R443)
  ⟨0x838, 8, 2, 8, 1, .ro, 0, 0⟩, -- GLB_AZM_OUT (R443)
  ⟨0x10000, 0x20, 4096, 8, 1, .st, 0xffffffffffffffc1, 0⟩, -- GLB_Q_CFG.ring (R215)
  ⟨0x10008, 0x20, 4096, 8, 1, .st, 0xffffffffffffffe1, 0⟩, -- GLB_Q_CFG.cpl (R215)
  ⟨0x10010, 0x20, 4096, 8, 1, .st, 0xfffffffffffff800, 0⟩, -- GLB_Q_CFG.ctl (R215)
  ⟨0x10018, 0x20, 4096, 8, 1, .st, 0xffffff, 0⟩, -- GLB_Q_CFG.mask (R215)
  ⟨0x40000, 8, 4096, 8, 1, .lv, 0xffffffff, 0⟩, -- GLB_Q_DB (R216)
  ⟨0x50000, 0x10, 4096, 8, 1, .w1c, 0, 0x3000000000000000⟩, -- GLB_Q_STAT (R216)
  ⟨0x50008, 0x10, 4096, 8, 1, .ro, 0, 0⟩, -- GLB_Q_CPL (R216)
  ⟨0x60000, 8, 4096, 8, 1, .lv, 0xffffffff, 0⟩, -- GLB_Q_CPLHEAD (R216)
  ⟨0x70000, 8, 4096, 8, 1, .wo, 0, 0⟩, -- GLB_Q_CTL (R216)
  ⟨0x80000, 8, 32768, 8, 1, .rw, 0xffffffffffffffff, 0⟩, -- GLB_SEM (R235)
  ⟨0xc0000, 8, 32768, 8, 1, .wo, 0, 0⟩  -- GLB_SEM_ADD (R235)
  ]

/-- Registers of block STG. -/
def famSTG : List RegFam := [
  ⟨0x100000, 8, 1, 8, 1, .wo, 0, 0⟩, -- STG_COMMIT (R153)
  ⟨0x100008, 8, 1, 8, 1, .wo, 0, 0⟩, -- STG_DISCARD (R153)
  ⟨0x100010, 8, 1, 8, 1, .w1c, 0, 0xe0000⟩, -- STG_STATUS (R154)
  ⟨0x100018, 8, 1, 8, 1, .ro, 0, 0⟩, -- STG_GEN (R155)
  ⟨0x100020, 8, 1, 8, 1, .ro, 0, 0⟩, -- STG_REJECT (R155)
  ⟨0x100030, 8, 1, 8, 1, .lv, 0xffff, 0⟩, -- STG_CFG (R153)
  ⟨0x100040, 8, 1, 8, 1, .event, 0, 0⟩, -- STG_COMMITS (R155)
  ⟨0x100048, 8, 1, 8, 1, .error, 0, 0⟩  -- STG_REJECTS (R155)
  ]

/-- Registers of block CLK. -/
def famCLK : List RegFam := [
  ⟨0x200100, 8, 1, 8, 1, .st, 0xffffffff, 0⟩, -- CLK_DEMAND_CFG (R76)
  ⟨0x201000, 0x40, 25, 8, 1, .st, 0xffffffff, 0⟩, -- CLK_ISL_CFG (R73)
  ⟨0x201008, 0x40, 25, 8, 1, .ro, 0, 0⟩, -- CLK_ISL_STAT (R74)
  ⟨0x201010, 0x40, 25, 8, 1, .event, 0, 0⟩, -- CLK_ISL_DROOP (R75)
  ⟨0x201018, 0x40, 25, 8, 1, .error, 0, 0⟩, -- CLK_ISL_VLIMIT (R75)
  ⟨0x204000, 0x40, 24, 8, 1, .st, 0xfffff0fe, 0⟩, -- CLK_SD_CTL (R77)
  ⟨0x204008, 0x40, 24, 8, 1, .lv, 1, 0⟩, -- CLK_SD_FREEZE (R78)
  ⟨0x204010, 0x40, 24, 8, 1, .ro, 0, 0⟩, -- CLK_SD_EYE (R78)
  ⟨0x204018, 0x40, 24, 8, 1, .error, 0, 0⟩, -- CLK_SD_LOS (R78)
  ⟨0x204020, 0x40, 24, 8, 1, .event, 0, 0⟩  -- CLK_SD_SWAP (R78)
  ]

/-- Registers of block PWR. -/
def famPWR : List RegFam := [
  ⟨0x300010, 8, 1, 8, 1, .st, 0xffffffff0000ffff, 0⟩, -- PWR_CFG (R104)
  ⟨0x300030, 8, 1, 8, 1, .w1c, 0, 0x10000000000⟩, -- PWR_STAT (R105)
  ⟨0x300040, 8, 1, 8, 1, .event, 0, 0⟩, -- PWR_PF_EVENTS (R105)
  ⟨0x300048, 8, 1, 8, 1, .event, 0, 0⟩, -- PWR_THROTTLE_EVENTS (R105)
  ⟨0x300100, 0x10, 14, 8, 1, .lv, 1, 0⟩, -- PWR_DOM_REQ (R102)
  ⟨0x300108, 0x10, 14, 8, 1, .ro, 0, 0⟩  -- PWR_DOM_STAT (R103)
  ]

/-- Registers of block FLT. -/
def famFLT : List RegFam := [
  ⟨0x400010, 8, 1, 8, 1, .st, 0x8fffff00ffff0000, 0⟩, -- FLT_CFG (R657)
  ⟨0x400018, 8, 1, 8, 1, .w1c, 0, 0x2000000000000000⟩, -- FLT_STAT (R658)
  ⟨0x400020, 8, 1, 8, 1, .ro, 0, 0⟩, -- FLT_LOG_TAIL (R658)
  ⟨0x400028, 8, 1, 8, 1, .lv, 0xffffffff, 0⟩, -- FLT_LOG_HEAD (R658)
  ⟨0x400040, 8, 4, 8, 1, .ro, 0, 0⟩, -- FLT_FIRST (R655)
  ⟨0x400060, 8, 1, 8, 1, .wo, 0, 0⟩, -- FLT_FIRST_CLR (R658)
  ⟨0x400068, 8, 1, 8, 1, .wo, 0, 0⟩, -- FLT_UNFENCE (R658)
  ⟨0x400070, 8, 1, 8, 1, .wo, 0, 0⟩, -- FLT_INJECT (R658)
  ⟨0x401000, 8, 4, 8, 1, .error, 0, 0⟩, -- FLT_COUNT_C (R658)
  ⟨0x401020, 8, 1, 8, 1, .event, 0, 0⟩, -- FLT_LOG_OVERWRITTEN (R658)
  ⟨0x401028, 8, 1, 8, 1, .error, 0, 0⟩, -- FLT_LOG_DROPPED (R658)
  ⟨0x401030, 8, 1, 8, 1, .event, 0, 0⟩, -- FLT_RECOVERED (R658)
  ⟨0x401038, 8, 1, 8, 1, .error, 0, 0⟩, -- FLT_DECLARED_LOSSES (R658)
  ⟨0x401040, 8, 1, 8, 1, .error, 0, 0⟩, -- FLT_WC_LOST (R658)
  ⟨0x401048, 8, 1, 8, 1, .error, 0, 0⟩, -- FLT_VOID (R658)
  ⟨0x410000, 8, 4096, 8, 1, .ro, 0, 0⟩, -- FLT_LOG (R653)
  ⟨0x420000, 8, 512, 8, 1, .ro, 0, 0⟩  -- FLT_UNIT (R658)
  ]

/-- Registers of block VLT. -/
def famVLT : List RegFam := [
  ⟨0x500000, 8, 1, 8, 1, .ro, 0, 0⟩, -- VLT_STATUS (R186)
  ⟨0x500010, 8, 1, 8, 1, .ro, 0, 0⟩, -- VLT_FUSE_STAT (R187)
  ⟨0x500018, 8, 1, 8, 1, .ro, 0, 0⟩, -- VLT_TAMPER (R187)
  ⟨0x500020, 8, 1, 8, 1, .ro, 0, 0⟩, -- VLT_DEVICE_ID (R187)
  ⟨0x500040, 8, 1, 8, 1, .error, 0, 0⟩, -- VLT_AUTH_FAILS (R187)
  ⟨0x500048, 8, 1, 8, 1, .event, 0, 0⟩, -- VLT_KEY_MISSES (R187)
  ⟨0x500050, 8, 1, 8, 1, .error, 0, 0⟩, -- VLT_GCM_TAG_FAILS (R187)
  ⟨0x500100, 0x80, 2, 8, 1, .wo, 0, 0⟩, -- VLT_MBX_CTL (R187)
  ⟨0x500108, 0x80, 2, 8, 1, .ro, 0, 0⟩, -- VLT_MBX_STAT (R187)
  ⟨0x501000, 0x1000, 2, 8, 512, .rw, 0xffffffffffffffff, 0⟩, -- VLT_MBX_BUF (R187)
  ⟨0x510000, 8, 122880, 8, 1, .sec, 0, 0⟩  -- VLT_SEC (R187)
  ]

/-- Registers of block NVC. -/
def famNVC : List RegFam := [
  ⟨0x600000, 8, 1, 8, 1, .ro, 0, 0⟩, -- NVC_BOOT_STAT (R133)
  ⟨0x600008, 8, 1, 8, 1, .ro, 0, 0⟩, -- NVC_BOOT_TIME (R134)
  ⟨0x600010, 8, 1, 8, 1, .ro, 0, 0⟩, -- NVC_IMG_VER (R134)
  ⟨0x600018, 8, 1, 8, 1, .ro, 0, 0⟩, -- NVC_FLASH_INFO (R134)
  ⟨0x600020, 8, 1, 8, 1, .wo, 0, 0⟩, -- NVC_BOOT_CTL (R134)
  ⟨0x600100, 8, 1, 8, 1, .rw, 0x7ffffff, 0⟩, -- NVC_FL_ADDR (R134)
  ⟨0x600108, 8, 1, 8, 1, .wo, 0, 0⟩, -- NVC_FL_CMD (R134)
  ⟨0x600110, 8, 1, 8, 1, .w1c, 0, 0x40000000⟩, -- NVC_FL_STAT (R134)
  ⟨0x600118, 8, 1, 8, 1, .lv, 0xffff, 0⟩, -- NVC_CAL_UNLOCK (R134)
  ⟨0x600120, 8, 1, 8, 1, .lv, 0xffff, 0⟩, -- NVC_ACT_UNLOCK (R134)
  ⟨0x600400, 8, 32, 8, 1, .rw, 0xffffffffffffffff, 0⟩  -- NVC_FL_BUF (R134)
  ]

/-- Registers of block AON. -/
def famAON : List RegFam := [
  ⟨0x700100, 8, 1, 8, 1, .st, 0xffffffff, 0⟩, -- AON_WAKE_CFG (R106)
  ⟨0x700108, 8, 1, 8, 1, .st, 0xf, 0⟩, -- AON_WAKE_DIR (R106)
  ⟨0x700110, 8, 1, 8, 1, .w1c, 0, 0xfff⟩, -- AON_WAKE_STAT (R106)
  ⟨0x700120, 8, 1, 8, 1, .wo, 0, 0⟩, -- AON_SLEEP (R106)
  ⟨0x700200, 8, 1, 8, 1, .ro, 0, 0⟩, -- AON_RTC (R106)
  ⟨0x700208, 8, 1, 8, 1, .wo, 0, 0⟩, -- AON_RTC_SET (R106)
  ⟨0x700210, 8, 1, 8, 1, .w1c, 0, 2⟩  -- AON_RTC_STAT (R106)
  ]

/-- Registers of block ING. -/
def famING : List RegFam := [
  ⟨0x800010, 8, 1, 8, 1, .st, 0xfff9, 0⟩, -- ING_ROCE_CFG (R340)
  ⟨0x800018, 8, 1, 8, 1, .st, 0xffffffff, 0⟩, -- ING_TIMEOUT (R340)
  ⟨0x800020, 8, 1, 8, 1, .st, 0xfffffffffff, 0⟩, -- ING_HOSTNQN (R341)
  ⟨0x800200, 8, 1, 8, 1, .event, 0, 0⟩, -- ING_RECORDS (R343)
  ⟨0x800208, 8, 1, 8, 1, .event, 0, 0⟩, -- ING_BYTES_STORED (R343)
  ⟨0x800210, 8, 1, 8, 1, .event, 0, 0⟩, -- ING_BYTES_PLAIN (R343)
  ⟨0x800218, 8, 1, 8, 1, .event, 0, 0⟩, -- ING_RETURNED (R343)
  ⟨0x800220, 8, 1, 8, 1, .event, 0, 0⟩, -- ING_ROCE_RETX (R343)
  ⟨0x800228, 8, 1, 8, 1, .event, 0, 0⟩, -- ING_CNP_SENT (R343)
  ⟨0x800230, 8, 1, 8, 1, .event, 0, 0⟩, -- ING_RECONNECTS (R343)
  ⟨0x800238, 8, 1, 8, 1, .error, 0, 0⟩, -- ING_ERR_FORMAT (R343)
  ⟨0x800240, 8, 1, 8, 1, .error, 0, 0⟩, -- ING_ERR_TIMEOUT (R343)
  ⟨0x800248, 8, 1, 8, 1, .error, 0, 0⟩, -- ING_ERR_REMOTE (R343)
  ⟨0x801000, 0x20, 64, 8, 1, .st, 0xffffffffffffffff, 0⟩, -- ING_TGT.ip0 (R341)
  ⟨0x801008, 0x20, 64, 8, 1, .st, 0xffffffffffffffff, 0⟩, -- ING_TGT.ip1 (R341)
  ⟨0x801010, 0x20, 64, 8, 1, .st, 0xff07ffff, 0⟩, -- ING_TGT.ctl (R341)
  ⟨0x801018, 0x20, 64, 8, 1, .st, 0xfffffffffff, 0⟩  -- ING_TGT.nqn (R341)
  ]

/-- Registers of block DEC. -/
def famDEC : List RegFam := [
  ⟨0xa00010, 8, 1, 8, 1, .st, 0x1ff, 0⟩, -- DEC_CFG (R366)
  ⟨0xa01000, 0x100, 2, 8, 1, .event, 0, 0⟩, -- DEC_IMAGES (R367)
  ⟨0xa01008, 0x100, 2, 8, 1, .event, 0, 0⟩, -- DEC_FRAMES_OUT (R367)
  ⟨0xa01010, 0x100, 2, 8, 1, .event, 0, 0⟩, -- DEC_FRAMES_DECODED (R367)
  ⟨0xa01018, 0x100, 2, 8, 1, .event, 0, 0⟩, -- DEC_FRAMES_SKIPPED (R367)
  ⟨0xa01020, 0x100, 2, 8, 1, .event, 0, 0⟩, -- DEC_CONCEALED_PIXELS (R367)
  ⟨0xa01028, 0x100, 2, 8, 1, .event, 0, 0⟩, -- DEC_PNG_CRC_BAD (R367)
  ⟨0xa01030, 0x100, 2, 8, 1, .event, 0, 0⟩, -- DEC_HASH_MISMATCH (R367)
  ⟨0xa01038, 0x100, 2, 8, 1, .error, 0, 0⟩, -- DEC_ERR_FORMAT (R367)
  ⟨0xa01040, 0x100, 2, 8, 1, .error, 0, 0⟩  -- DEC_ERR_DAMAGED (R367)
  ]

/-- Registers of block LEX. -/
def famLEX : List RegFam := [
  ⟨0xc00010, 8, 1, 8, 1, .st, 0xfffffffffc1, 0⟩, -- LEX_NORM_CFG (R389)
  ⟨0xc01000, 0x100, 2, 8, 1, .event, 0, 0⟩, -- LEX_SAMPLES (R390)
  ⟨0xc01008, 0x100, 2, 8, 1, .event, 0, 0⟩, -- LEX_BYTES_IN (R390)
  ⟨0xc01010, 0x100, 2, 8, 1, .event, 0, 0⟩, -- LEX_TOKENS (R390)
  ⟨0xc01018, 0x100, 2, 8, 1, .event, 0, 0⟩, -- LEX_FALLBACK_BYTES (R390)
  ⟨0xc01020, 0x100, 2, 8, 1, .event, 0, 0⟩, -- LEX_REPLACED (R390)
  ⟨0xc01028, 0x100, 2, 8, 1, .event, 0, 0⟩, -- LEX_NORM_LONG (R390)
  ⟨0xc01030, 0x100, 2, 8, 1, .event, 0, 0⟩, -- LEX_TRUNCATED (R390)
  ⟨0xc01038, 0x100, 2, 8, 1, .event, 0, 0⟩, -- LEX_CACHE_MISS (R390)
  ⟨0xc01040, 0x100, 2, 8, 1, .error, 0, 0⟩, -- LEX_ERR_FORMAT (R390)
  ⟨0xc01048, 0x100, 2, 8, 1, .error, 0, 0⟩, -- LEX_ERR_DAMAGED (R390)
  ⟨0xc01050, 0x100, 2, 8, 1, .error, 0, 0⟩  -- LEX_DICT_BAD (R390)
  ]

/-- Registers of block GRT. -/
def famGRT : List RegFam := [
  ⟨0xe00140, 8, 1, 8, 1, .event, 0, 0⟩, -- GRT_PIXELS_TOTAL (R412)
  ⟨0xe01000, 0x100, 24, 8, 1, .event, 0, 0⟩, -- GRT_SAMPLES (R412)
  ⟨0xe01008, 0x100, 24, 8, 1, .event, 0, 0⟩, -- GRT_PIXELS (R412)
  ⟨0xe01010, 0x100, 24, 8, 1, .event, 0, 0⟩, -- GRT_CROP_FALLBACK (R412)
  ⟨0xe01018, 0x100, 24, 8, 1, .event, 0, 0⟩, -- GRT_WINDOW_CLAMP (R412)
  ⟨0xe01020, 0x100, 24, 8, 1, .event, 0, 0⟩, -- GRT_CACHE_MISS (R412)
  ⟨0xe01028, 0x100, 24, 8, 1, .error, 0, 0⟩, -- GRT_ERR_FORMAT (R412)
  ⟨0xe01030, 0x100, 24, 8, 1, .error, 0, 0⟩, -- GRT_ERR_DAMAGED (R412)
  ⟨0xe01038, 0x100, 24, 8, 1, .error, 0, 0⟩  -- GRT_PARAM_BAD (R412)
  ]

/-- Registers of block ORY. -/
def famORY : List RegFam := [
  ⟨0x1001000, 0x100, 2, 8, 1, .event, 0, 0⟩, -- ORY_CORE_TILES (R431)
  ⟨0x1001008, 0x100, 2, 8, 1, .event, 0, 0⟩, -- ORY_MACS (R431)
  ⟨0x1001010, 0x100, 2, 8, 1, .event, 0, 0⟩, -- ORY_ROUNDS (R431)
  ⟨0x1001018, 0x100, 2, 8, 1, .event, 0, 0⟩, -- ORY_PANEL_WAIT (R431)
  ⟨0x1001020, 0x100, 2, 8, 1, .event, 0, 0⟩, -- ORY_NONFINITE (R431)
  ⟨0x1001028, 0x100, 2, 8, 1, .error, 0, 0⟩, -- ORY_ERR_DAMAGED (R431)
  ⟨0x1001030, 0x100, 2, 8, 1, .error, 0, 0⟩  -- ORY_PARAM_BAD (R431)
  ]

/-- Registers of block GTH. -/
def famGTH : List RegFam := [
  ⟨0x1200010, 8, 1, 8, 1, .st, 0x1ffffffffffffc0, 0⟩, -- GTH_TBL_DIR (R469)
  ⟨0x1200018, 8, 1, 8, 1, .st, 0xffff, 0⟩, -- GTH_TIMEOUT (R469)
  ⟨0x1200020, 8, 1, 8, 1, .st, 0xffffffff, 0⟩, -- GTH_HOT_CFG (R469)
  ⟨0x1200100, 8, 1, 8, 1, .event, 0, 0⟩, -- GTH_OWNER_REQS (R470)
  ⟨0x1200108, 8, 1, 8, 1, .ro, 0, 0⟩, -- GTH_REMAP_COUNT (R470)
  ⟨0x1201000, 0x100, 8, 8, 1, .event, 0, 0⟩, -- GTH_LOOKUPS (R471)
  ⟨0x1201008, 0x100, 8, 8, 1, .event, 0, 0⟩, -- GTH_REMOTE (R471)
  ⟨0x1201010, 0x100, 8, 8, 1, .event, 0, 0⟩, -- GTH_HOT_HITS (R471)
  ⟨0x1201018, 0x100, 8, 8, 1, .event, 0, 0⟩, -- GTH_PLACED (R471)
  ⟨0x1201020, 0x100, 8, 8, 1, .event, 0, 0⟩, -- GTH_OWNER_POOLED (R471)
  ⟨0x1201028, 0x100, 8, 8, 1, .event, 0, 0⟩, -- GTH_SUBSTITUTED (R471)
  ⟨0x1201030, 0x100, 8, 8, 1, .event, 0, 0⟩, -- GTH_LATE_RSP (R471)
  ⟨0x1201038, 0x100, 8, 8, 1, .event, 0, 0⟩, -- GTH_PREFETCH_SKIP (R471)
  ⟨0x1201040, 0x100, 8, 8, 1, .error, 0, 0⟩, -- GTH_ERR_INVALID (R471)
  ⟨0x1201048, 0x100, 8, 8, 1, .error, 0, 0⟩, -- GTH_ERR_REMOTE (R471)
  ⟨0x1210000, 0x20, 256, 8, 4, .st, 0x8fff8fff8fff8fff, 0⟩, -- GTH_PIN (R469)
  ⟨0x1220000, 0x10, 1024, 8, 1, .w1c, 0, 0x8000000000000000⟩, -- GTH_REMAP.entry (R470)
  ⟨0x1220008, 0x10, 1024, 8, 1, .ro, 0, 0⟩, -- GTH_REMAP.row (R470)
  ⟨0x1240000, 0x20, 4096, 8, 1, .st, 0xffffffff, 0⟩, -- GTH_TBL_CUR.version (R469)
  ⟨0x1240008, 0x20, 4096, 8, 1, .st, 0xfffffffffff, 0⟩, -- GTH_TBL_CUR.base (R469)
  ⟨0x1240010, 0x20, 4096, 8, 1, .st, 0xffffffffffffffff, 0⟩, -- GTH_TBL_CUR.host_copy (R469)
  ⟨0x1260000, 8, 4096, 8, 1, .w1c, 0, 0x8000000000000000⟩, -- GTH_TBL_FLAGS (R470)
  ⟨0x1280000, 0x40, 4096, 8, 8, .ro, 0, 0⟩  -- GTH_VER (R470)
  ]

/-- Registers of block SMP. -/
def famSMP : List RegFam := [
  ⟨0x1400010, 8, 1, 8, 1, .st, 0x1fffffffffffff80, 0⟩, -- SMP_SEQ_TBL (R486)
  ⟨0x1400020, 8, 1, 8, 1, .lv, 0xffff, 0⟩, -- SMP_SEQ_KILL (R486)
  ⟨0x1400100, 8, 1, 8, 1, .event, 0, 0⟩, -- SMP_PAGES (R486)
  ⟨0x1400108, 8, 1, 8, 1, .error, 0, 0⟩, -- SMP_PAGE_DISCARD (R486)
  ⟨0x1401000, 0x100, 4, 8, 1, .event, 0, 0⟩, -- SMP_STEPS (R486)
  ⟨0x1401008, 0x100, 4, 8, 1, .event, 0, 0⟩, -- SMP_DONE (R486)
  ⟨0x1401010, 0x100, 4, 8, 1, .event, 0, 0⟩, -- SMP_NOT_READY (R486)
  ⟨0x1401018, 0x100, 4, 8, 1, .event, 0, 0⟩, -- SMP_WORDS (R486)
  ⟨0x1401020, 0x100, 4, 8, 1, .error, 0, 0⟩  -- SMP_ERR_FORMAT (R486)
  ]

/-- Registers of block PAK. -/
def famPAK : List RegFam := [
  ⟨0x1600010, 8, 1, 8, 1, .st, 0xffff, 0⟩, -- PAK_EGRESS_HOLD_TIMEOUT (R507)
  ⟨0x1610000, 0x40, 256, 8, 1, .st, 0x80000fffffffffc0, 0⟩, -- PAK_PIPE.layout (R507)
  ⟨0x1610008, 0x40, 256, 8, 1, .st, 0xffffffff000, 0⟩, -- PAK_PIPE.build_base (R507)
  ⟨0x1610010, 0x40, 256, 8, 1, .st, 0xffffffff00001fff, 0⟩, -- PAK_PIPE.build (R507)
  ⟨0x1610018, 0x40, 256, 8, 1, .st, 0xffff00007fff, 0⟩, -- PAK_PIPE.ep (R507)
  ⟨0x1610020, 0x40, 256, 8, 1, .st, 0xffffffffffffffff, 0⟩, -- PAK_PIPE.dest (R507)
  ⟨0x1610028, 0x40, 256, 8, 1, .st, 0xf8000ffffffffff1, 0⟩, -- PAK_PIPE.rpt (R507)
  ⟨0x1620000, 8, 256, 8, 1, .lv, 0xffffffff, 0⟩, -- PAK_HOST_HEAD (R508)
  ⟨0x1630000, 8, 256, 8, 1, .ro, 0, 0⟩, -- PAK_PIPE_STAT (R508)
  ⟨0x1601000, 0x100, 8, 8, 1, .event, 0, 0⟩, -- PAK_DEPOSITS (R508)
  ⟨0x1601008, 0x100, 8, 8, 1, .event, 0, 0⟩, -- PAK_BUILT (R508)
  ⟨0x1601010, 0x100, 8, 8, 1, .event, 0, 0⟩, -- PAK_PAGES (R508)
  ⟨0x1601018, 0x100, 8, 8, 1, .event, 0, 0⟩, -- PAK_DELIVERED (R508)
  ⟨0x1601020, 0x100, 8, 8, 1, .event, 0, 0⟩, -- PAK_REOFFERS (R508)
  ⟨0x1601028, 0x100, 8, 8, 1, .event, 0, 0⟩, -- PAK_LATE_ACK (R508)
  ⟨0x1601030, 0x100, 8, 8, 1, .event, 0, 0⟩, -- PAK_SPILLED (R508)
  ⟨0x1601038, 0x100, 8, 8, 1, .event, 0, 0⟩, -- PAK_STEP_PAGES (R508)
  ⟨0x1601040, 0x100, 8, 8, 1, .error, 0, 0⟩, -- PAK_STEP_DROPPED (R508)
  ⟨0x1601048, 0x100, 8, 8, 1, .error, 0, 0⟩, -- PAK_HOLD_TIMEOUTS (R508)
  ⟨0x1601050, 0x100, 8, 8, 1, .error, 0, 0⟩  -- PAK_POISON_LOSS (R508)
  ]

/-- Registers of block SEN. -/
def famSENa : List RegFam := [
  ⟨0x1800000, 8, 1, 8, 1, .ro, 0, 0⟩, -- SEN_TIME (R530)
  ⟨0x1800008, 8, 1, 8, 1, .st, 0xffffff3f, 0⟩, -- SEN_TIME_CFG (R530)
  ⟨0x1800010, 8, 1, 8, 1, .ro, 0, 0⟩, -- SEN_TIME_STAT (R530)
  ⟨0x1801000, 0x20, 8, 8, 1, .st, 0xe0001fff, 0⟩, -- SEN_PORT_CFG (R531)
  ⟨0x1802000, 0x40, 32, 8, 1, .st, 0xffffffffffffffff, 0⟩, -- SEN_LAYER_CFG (R531)
  ⟨0x1802008, 0x40, 32, 8, 1, .st, 0xfffffffffc0, 0⟩, -- SEN_LAYER_RING (R531)
  ⟨0x1802010, 0x40, 32, 8, 1, .st, 0xffffffffffff00ff, 0⟩, -- SEN_LAYER_SLOT (R531)
  ⟨0x1802018, 0x40, 32, 8, 1, .st, 0xffffffff, 0⟩, -- SEN_LAYER_TSOFF (R531)
  ⟨0x1802020, 0x40, 32, 8, 1, .ro, 0, 0⟩, -- SEN_LAYER_STAT (R531)
  ⟨0x1802028, 0x40, 32, 8, 1, .ro, 0, 0⟩, -- SEN_LAYER_RSTAT (R531)
  ⟨0x1804000, 0x40, 8, 8, 1, .st, 0xfffc3fffffffffff, 0⟩, -- SEN_GRP_CFG.ctl (R531)
  ⟨0x1804008, 0x40, 8, 8, 1, .st, 0x9f9f9f9f9f9f9f9f, 0⟩, -- SEN_GRP_CFG.members (R531)
  ⟨0x1804010, 0x40, 8, 8, 1, .st, 0xffffffffffffffff, 0⟩, -- SEN_GRP_CFG.period (R531)
  ⟨0x1804018, 0x40, 8, 8, 1, .st, 0xffffffffffffffff, 0⟩, -- SEN_GRP_CFG.phase (R531)
  ⟨0x1804020, 0x40, 8, 8, 1, .ro, 0, 0⟩, -- SEN_GRP_STAT (R531)
  ⟨0x1805000, 0x10, 8, 8, 1, .st, 3, 0⟩, -- SEN_TS_CFG (R531)
  ⟨0x1805008, 0x10, 8, 8, 1, .ro, 0, 0⟩, -- SEN_TS_POP (R531)
  ⟨0x1805800, 8, 8, 8, 1, .w1c, 0, 0x80000000⟩, -- SEN_TS_STAT (R531)
  ⟨0x1806000, 0x20, 4, 8, 1, .st, 0xc0000000ffffffff, 0⟩, -- SEN_TRIG_CFG.ctl (R531)
  ⟨0x1806008, 0x20, 4, 8, 1, .st, 0xffffffffffffffff, 0⟩, -- SEN_TRIG_CFG.period (R531)
  ⟨0x1806010, 0x20, 4, 8, 1, .st, 0xffffffffffffffff, 0⟩, -- SEN_TRIG_CFG.phase (R531)
  ⟨0x1808000, 8, 1, 8, 1, .event, 0, 0⟩, -- SEN_FRAMES (R532)
  ⟨0x1808008, 8, 1, 8, 1, .event, 0, 0⟩, -- SEN_FUSED (R532)
  ⟨0x1808010, 8, 1, 8, 1, .event, 0, 0⟩, -- SEN_LATE_FRAMES (R532)
  ⟨0x1808018, 8, 1, 8, 1, .event, 0, 0⟩  -- SEN_EXTRA (R532)
  ]

/-- Registers of block SEN. -/
def famSENb : List RegFam := [
  ⟨0x1808020, 8, 1, 8, 1, .event, 0, 0⟩, -- SEN_HELD (R532)
  ⟨0x1808028, 8, 1, 8, 1, .error, 0, 0⟩, -- SEN_STRICT_DROP (R532)
  ⟨0x1808030, 8, 1, 8, 1, .error, 0, 0⟩, -- SEN_NO_ADMIT (R532)
  ⟨0x1808038, 8, 1, 8, 1, .error, 0, 0⟩, -- SEN_FUSED_OVERRUN (R532)
  ⟨0x1808040, 8, 1, 8, 1, .error, 0, 0⟩, -- SEN_OVERRUN (R532)
  ⟨0x1808048, 8, 1, 8, 1, .error, 0, 0⟩, -- SEN_HDR_DROP (R532)
  ⟨0x1808050, 8, 1, 8, 1, .error, 0, 0⟩, -- SEN_CRC_LINES (R532)
  ⟨0x1808058, 8, 1, 8, 1, .event, 0, 0⟩  -- SEN_UNCLAIMED (R532)
  ]

/-- Registers of block XCH. -/
def famXCH : List RegFam := [
  ⟨0x1a00010, 8, 1, 8, 1, .st, 0x1fffffffffffffc0, 0⟩, -- XCH_TDESC_TBL (R551)
  ⟨0x1a01000, 8, 1, 8, 1, .event, 0, 0⟩, -- XCH_BYTES_READ (R552)
  ⟨0x1a01008, 8, 1, 8, 1, .event, 0, 0⟩, -- XCH_BYTES_WRITTEN (R552)
  ⟨0x1a01010, 8, 1, 8, 1, .event, 0, 0⟩, -- XCH_BLOCKS (R552)
  ⟨0x1a01018, 8, 1, 8, 1, .event, 0, 0⟩, -- XCH_DIRECT_PIECES (R552)
  ⟨0x1a01020, 8, 1, 8, 1, .event, 0, 0⟩, -- XCH_ROWS (R552)
  ⟨0x1a01028, 8, 1, 8, 1, .event, 0, 0⟩, -- XCH_OUT_OF_PIECE (R552)
  ⟨0x1a01030, 8, 1, 8, 1, .event, 0, 0⟩, -- XCH_PAD_IDX (R552)
  ⟨0x1a01038, 8, 1, 8, 1, .error, 0, 0⟩  -- XCH_ERR_IDX (R552)
  ]

/-- Registers of block STR. -/
def famSTR : List RegFam := [
  ⟨0x1c00010, 8, 1, 8, 1, .st, 0x1fffffffffffffc0, 0⟩, -- STR_TABLE (R267)
  ⟨0x1c00020, 8, 1, 8, 1, .st, 0xffffffff000f, 0⟩, -- STR_ARB_CFG (R268)
  ⟨0x1c00030, 8, 1, 8, 1, .ro, 0, 0⟩, -- STR_ACTIVE (R270)
  ⟨0x1c00040, 8, 1, 8, 1, .event, 0, 0⟩, -- STR_TRANSFERS (R270)
  ⟨0x1c00048, 8, 1, 8, 1, .event, 0, 0⟩, -- STR_MERGED (R270)
  ⟨0x1c00050, 8, 1, 8, 1, .event, 0, 0⟩, -- STR_AGED (R270)
  ⟨0x1c01000, 8, 54, 8, 1, .st, 0x800003ff, 0⟩, -- STR_INST_CFG (R269)
  ⟨0x1c02000, 8, 54, 8, 1, .ro, 0, 0⟩, -- STR_INST_TTE (R270)
  ⟨0x1c03000, 8, 54, 8, 1, .st, 0x7ff, 0⟩, -- STR_PBANK (R295)
  ⟨0x1c04000, 0x10, 54, 8, 1, .event, 0, 0⟩, -- STR_TILES (R296)
  ⟨0x1c04008, 0x10, 54, 8, 1, .event, 0, 0⟩, -- STR_PLOAD (R296)
  ⟨0x1c05000, 8, 54, 8, 1, .event, 0, 0⟩, -- STR_PREUSE (R296)
  ⟨0x1c10000, 8, 4096, 8, 1, .ro, 0, 0⟩  -- STR_Q_OUT (R270)
  ]

/-- Registers of block LDG. -/
def famLDGa : List RegFam := [
  ⟨0x1e00000, 8, 1, 8, 1, .st, 0xffffffffffffffff, 0⟩, -- LDG_SEED_LO (R320)
  ⟨0x1e00008, 8, 1, 8, 1, .st, 0xffffffffffffffff, 0⟩, -- LDG_SEED_HI (R320)
  ⟨0x1e00010, 8, 1, 8, 1, .st, 0xffff, 0⟩, -- LDG_DEADLINE (R320)
  ⟨0x1e00018, 8, 1, 8, 1, .st, 0xffffffffffffffe1, 0⟩, -- LDG_JRN_BASE (R320)
  ⟨0x1e00020, 8, 1, 8, 1, .st, 0x1fffff, 0⟩, -- LDG_JRN_CFG (R320)
  ⟨0x1e00030, 8, 1, 8, 1, .w1c, 0, 0x80000000⟩, -- LDG_JRN_STAT (R320)
  ⟨0x1e00040, 8, 1, 8, 1, .ro, 0, 0⟩, -- LDG_CTX_FREE (R320)
  ⟨0x1e00048, 8, 1, 8, 1, .lv, 0x1fffff, 0⟩, -- LDG_CTX_SEL (R320)
  ⟨0x1e00050, 8, 4, 8, 1, .ro, 0, 0⟩, -- LDG_CTX_DATA (R320)
  ⟨0x1e00100, 8, 1, 8, 1, .event, 0, 0⟩, -- LDG_STALE_DISCARDS (R320)
  ⟨0x1e00108, 8, 1, 8, 1, .event, 0, 0⟩, -- LDG_DUP_REPORTS (R320)
  ⟨0x1e00110, 8, 1, 8, 1, .event, 0, 0⟩, -- LDG_ADMITTED (R320)
  ⟨0x1e00118, 8, 1, 8, 1, .event, 0, 0⟩, -- LDG_RETIRED (R320)
  ⟨0x1e00120, 8, 1, 8, 1, .event, 0, 0⟩, -- LDG_CORRUPT (R320)
  ⟨0x1e00128, 8, 1, 8, 1, .event, 0, 0⟩, -- LDG_SUBSTITUTED (R320)
  ⟨0x1e00130, 8, 1, 8, 1, .event, 0, 0⟩, -- LDG_MASKED (R320)
  ⟨0x1e00138, 8, 1, 8, 1, .event, 0, 0⟩, -- LDG_DROPPED (R320)
  ⟨0x1e00140, 8, 1, 8, 1, .event, 0, 0⟩, -- LDG_ABANDONED (R320)
  ⟨0x1e00148, 8, 1, 8, 1, .event, 0, 0⟩, -- LDG_RESERVE_UNUSED (R320)
  ⟨0x1e00150, 8, 1, 8, 1, .event, 0, 0⟩, -- LDG_REPLACE_MISS (R320)
  ⟨0x1e00158, 8, 1, 8, 1, .event, 0, 0⟩, -- LDG_ADMIT_WAIT (R320)
  ⟨0x1e10000, 0x40, 256, 8, 1, .st, 0xf8ffffffffffcfff, 0⟩, -- LDG_PIPE_CFG.ctl (R319)
  ⟨0x1e10008, 0x40, 256, 8, 1, .st, 0xfffffffffff, 0⟩, -- LDG_PIPE_CFG.sched (R319)
  ⟨0x1e10010, 0x40, 256, 8, 1, .st, 0xfffffffffff, 0⟩, -- LDG_PIPE_CFG.shard (R319)
  ⟨0x1e10018, 0x40, 256, 8, 1, .st, 0xfffffffff8000000, 0⟩  -- LDG_PIPE_CFG.len (R319)
  ]

/-- Registers of block LDG. -/
def famLDGb : List RegFam := [
  ⟨0x1e10020, 0x40, 256, 8, 1, .st, 0xffff00ffffffffff, 0⟩, -- LDG_PIPE_CFG.start (R319)
  ⟨0x1e10028, 0x40, 256, 8, 1, .st, 0xffffffff, 0⟩, -- LDG_PIPE_CFG.stride (R319)
  ⟨0x1e10030, 0x40, 256, 8, 1, .st, 0xf8000ffffffffff0, 0⟩, -- LDG_PIPE_CFG.adm (R319)
  ⟨0x1e20000, 0x10, 256, 8, 1, .ro, 0, 0⟩, -- LDG_PIPE_STAT (R320)
  ⟨0x1e20008, 0x10, 256, 8, 1, .ro, 0, 0⟩, -- LDG_PIPE_OPEN (R320)
  ⟨0x1e80000, 8, 4096, 8, 1, .ro, 0, 0⟩  -- LDG_RET_WIN (R320)
  ]

/-- Registers of block NGL. -/
def famNGLa : List RegFam := [
  ⟨0x2000010, 8, 1, 8, 1, .st, 0xffffffff, 0⟩, -- NGL_FEC_WARN (R582)
  ⟨0x2001000, 0x100, 16, 8, 1, .st, 0xc0ffffffffffff00, 0⟩, -- NGL_PORT_CFG (R582)
  ⟨0x2001008, 0x100, 16, 8, 1, .st, 0xfff, 0⟩, -- NGL_PORT_ARB (R582)
  ⟨0x2001010, 0x100, 16, 8, 1, .ro, 0, 0⟩, -- NGL_PORT_STAT (R583)
  ⟨0x2001018, 0x100, 16, 8, 1, .ro, 0, 0⟩, -- NGL_PORT_CRED (R583)
  ⟨0x2001040, 0x100, 16, 8, 1, .event, 0, 0⟩, -- NGL_FLITS_TX (R583)
  ⟨0x2001048, 0x100, 16, 8, 1, .event, 0, 0⟩, -- NGL_FLITS_RX (R583)
  ⟨0x2001050, 0x100, 16, 8, 1, .event, 0, 0⟩, -- NGL_FEC_CORR (R583)
  ⟨0x2001058, 0x100, 16, 8, 1, .error, 0, 0⟩, -- NGL_CRC_ERR (R583)
  ⟨0x2001060, 0x100, 16, 8, 1, .event, 0, 0⟩, -- NGL_NAK_TX (R583)
  ⟨0x2001068, 0x100, 16, 8, 1, .event, 0, 0⟩, -- NGL_REPLAY (R583)
  ⟨0x2001070, 0x100, 16, 8, 1, .event, 0, 0⟩, -- NGL_REPLAY_FLITS (R583)
  ⟨0x2001078, 0x100, 16, 8, 1, .error, 0, 0⟩, -- NGL_RETRAIN (R583)
  ⟨0x2001080, 0x100, 16, 8, 1, .error, 0, 0⟩, -- NGL_DOWN_EVENTS (R583)
  ⟨0x2001088, 0x100, 16, 8, 1, .error, 0, 0⟩, -- NGL_MSG_DISCARD (R583)
  ⟨0x2008000, 8, 1, 8, 1, .st, 0x7ff, 0⟩, -- NGL_FAB_ID (R611)
  ⟨0x2008008, 8, 1, 8, 1, .st, 0xffff0fffffffffc0, 0⟩, -- NGL_FAB_ROUTE (R611)
  ⟨0x2008100, 8, 1, 8, 1, .st, 0xc000ffffffffffff, 0⟩, -- NGL_DOM_CFG.w0 (R611)
  ⟨0x2008108, 8, 1, 8, 1, .st, 0xffffffffffe00000, 0⟩, -- NGL_DOM_CFG.w1 (R611)
  ⟨0x2008110, 8, 1, 8, 1, .st, 0xfffffffffc0, 0⟩, -- NGL_DOM_CFG.w2 (R611)
  ⟨0x2008118, 8, 1, 8, 1, .st, 0xfffffffffc0, 0⟩, -- NGL_DOM_CFG.w3 (R611)
  ⟨0x2008120, 8, 1, 8, 1, .st, 0xffffffffffffffff, 0⟩, -- NGL_DOM_CFG.w4 (R611)
  ⟨0x2008128, 8, 1, 8, 1, .st, 0xffffffffffffffff, 0⟩, -- NGL_DOM_CFG.w5 (R611)
  ⟨0x2008130, 8, 1, 8, 1, .st, 0xffffffff0000ffff, 0⟩, -- NGL_DOM_CFG.w6 (R611)
  ⟨0x2008138, 8, 1, 8, 1, .st, 0xfffffffff80, 0⟩  -- NGL_DOM_CFG.w7 (R611)
  ]

/-- Registers of block NGL. -/
def famNGLb : List RegFam := [
  ⟨0x2008140, 8, 1, 8, 1, .ro, 0, 0⟩, -- NGL_DOM_STAT (R612)
  ⟨0x2008148, 8, 1, 8, 1, .ro, 0, 0⟩, -- NGL_DOM_STEP (R612)
  ⟨0x2008150, 8, 1, 8, 1, .w1c, 0, 3⟩, -- NGL_DOM_EVENTS (R612)
  ⟨0x2008158, 8, 1, 8, 1, .ro, 0, 0⟩, -- NGL_DOM_LATE_EP (R612)
  ⟨0x2009000, 8, 256, 8, 1, .st, 0x80000000ffffffff, 0⟩, -- NGL_DOM_GATE (R611)
  ⟨0x200a000, 0x10, 16, 8, 1, .st, 0x80000fffffffffff, 0⟩, -- NGL_FAB_SERVE.key (R611)
  ⟨0x200a008, 0x10, 16, 8, 1, .st, 0xfffffffffff, 0⟩, -- NGL_FAB_SERVE.base (R611)
  ⟨0x200b000, 0x20, 8, 8, 1, .rw, 0x7ff0fffffffffff, 0⟩, -- NGL_FAB_PULL.src (R612)
  ⟨0x200b008, 0x20, 8, 8, 1, .rw, 0xffffffffffffffff, 0⟩, -- NGL_FAB_PULL.rows (R612)
  ⟨0x200b010, 0x20, 8, 8, 1, .rw, 0xfffffffffff, 0⟩, -- NGL_FAB_PULL.dest (R612)
  ⟨0x200b018, 0x20, 8, 8, 1, .wo, 0, 0⟩, -- NGL_FAB_PULL_GO (R612)
  ⟨0x200b100, 8, 8, 8, 1, .ro, 0, 0⟩, -- NGL_FAB_PULL_STAT (R612)
  ⟨0x200c000, 8, 1, 8, 1, .error, 0, 0⟩, -- FAB_UNREACH (R612)
  ⟨0x200c008, 8, 1, 8, 1, .event, 0, 0⟩, -- DOM_TOKENS_ISSUED (R612)
  ⟨0x200c010, 8, 1, 8, 1, .event, 0, 0⟩, -- DOM_TOKENS_RX (R612)
  ⟨0x200c018, 8, 1, 8, 1, .error, 0, 0⟩, -- DOM_LATE_STEPS (R612)
  ⟨0x200c020, 8, 1, 8, 1, .event, 0, 0⟩, -- DOM_CLAIMS (R612)
  ⟨0x200c028, 8, 1, 8, 1, .event, 0, 0⟩, -- DOM_GATE_WAITS (R612)
  ⟨0x200c030, 8, 1, 8, 1, .event, 0, 0⟩, -- DOM_IGNORED (R612)
  ⟨0x200c038, 8, 1, 8, 1, .event, 0, 0⟩, -- FAB_PULL_CHUNKS (R612)
  ⟨0x200c040, 8, 1, 8, 1, .event, 0, 0⟩  -- FAB_PULLS_SERVED (R612)
  ]

/-- Registers of block HIF. -/
def famHIF : List RegFam := [
  ⟨0x2200010, 8, 1, 8, 1, .ro, 0, 0⟩, -- HIF_LINK_STAT (R635)
  ⟨0x2200018, 8, 1, 8, 1, .st, 0xf, 0⟩, -- HIF_CPL_TIMEOUT (R634)
  ⟨0x2200020, 8, 1, 8, 1, .st, 0xff000ffff0000000, 0⟩, -- HIF_WIN_CFG (R634)
  ⟨0x2200028, 8, 1, 8, 1, .st, 1, 0⟩, -- HIF_DMA_CFG (R634)
  ⟨0x2200100, 0x10, 8, 8, 1, .st, 0xfffffffffffff001, 0⟩, -- HIF_CC_RANGE.base (R634)
  ⟨0x2200108, 0x10, 8, 8, 1, .st, 0xfffffffffffff000, 0⟩, -- HIF_CC_RANGE.limit (R634)
  ⟨0x2200200, 8, 1, 8, 1, .wo, 0, 0⟩, -- HIF_CC_FLUSH (R634)
  ⟨0x2200208, 8, 1, 8, 1, .ro, 0, 0⟩, -- HIF_CC_STAT (R635)
  ⟨0x2200300, 8, 5, 8, 1, .st, 0x800007ff, 0⟩, -- HIF_EVT_VEC (R634)
  ⟨0x2201000, 8, 1, 8, 1, .event, 0, 0⟩, -- HIF_RD_BYTES (R635)
  ⟨0x2201008, 8, 1, 8, 1, .event, 0, 0⟩, -- HIF_WR_BYTES (R635)
  ⟨0x2201010, 8, 1, 8, 1, .error, 0, 0⟩, -- HIF_CPL_TIMEOUTS (R635)
  ⟨0x2201018, 8, 1, 8, 1, .event, 0, 0⟩, -- HIF_UNEXP_CPL (R635)
  ⟨0x2201020, 8, 1, 8, 1, .error, 0, 0⟩, -- HIF_POISON_RX (R635)
  ⟨0x2201028, 8, 1, 8, 1, .event, 0, 0⟩, -- HIF_CC_HITS (R635)
  ⟨0x2201030, 8, 1, 8, 1, .event, 0, 0⟩, -- HIF_CC_MISSES (R635)
  ⟨0x2201038, 8, 1, 8, 1, .event, 0, 0⟩, -- HIF_CC_SNOOPS (R635)
  ⟨0x2201040, 8, 1, 8, 1, .event, 0, 0⟩, -- HIF_CC_SNOOP_FWD (R635)
  ⟨0x2201048, 8, 1, 8, 1, .error, 0, 0⟩, -- HIF_CC_LOST (R635)
  ⟨0x2201050, 8, 1, 8, 1, .event, 0, 0⟩, -- HIF_IRQ_DROPPED (R635)
  ⟨0x2201058, 8, 1, 8, 1, .event, 0, 0⟩, -- HIF_WIN_SNOOPS (R635)
  ⟨0x2210000, 0x10, 2048, 8, 1, .rw, 0xfffffffffffffffc, 0⟩, -- HIF_MSIX.addr (R629)
  ⟨0x2210008, 0x10, 2048, 8, 1, .rw, 0x1ffffffff, 0⟩, -- HIF_MSIX.data (R629)
  ⟨0x2218000, 8, 32, 8, 1, .ro, 0, 0⟩, -- HIF_PBA (R629)
  ⟨0x22f0000, 8, 8192, 8, 1, .ro, 0, 0⟩  -- HIF_CXL (R624)
  ]

/-- Registers of block ETH. -/
def famETH : List RegFam := [
  ⟨0x2300000, 0x40, 2, 8, 1, .st, 0x1f1ffffffffffff, 0⟩, -- ETH_PORT_CFG.w0 (R342)
  ⟨0x2300008, 0x40, 2, 8, 1, .st, 0xffffff, 0⟩, -- ETH_PORT_CFG.w1 (R342)
  ⟨0x2300010, 0x40, 2, 8, 1, .st, 0xffffffffffffffff, 0⟩, -- ETH_PORT_CFG.w2 (R342)
  ⟨0x2300018, 0x40, 2, 8, 1, .st, 0xffffffffffffffff, 0⟩, -- ETH_PORT_CFG.w3 (R342)
  ⟨0x2300020, 0x40, 2, 8, 1, .st, 0xffffffffffffffff, 0⟩, -- ETH_PORT_CFG.w4 (R342)
  ⟨0x2300028, 0x40, 2, 8, 1, .st, 0xffffffffffffffff, 0⟩, -- ETH_PORT_CFG.w5 (R342)
  ⟨0x2300100, 8, 2, 8, 1, .event, 0, 0⟩  -- ETH_RX_DISCARD (R342)
  ]

/-- Registers of block MEM. -/
def famMEM : List RegFam := [
  ⟨0x2400010, 8, 1, 8, 1, .st, 0x1fffffffffffffe0, 0⟩, -- MEM_RMAP (R209)
  ⟨0x2400020, 8, 1, 8, 1, .st, 0xff07, 0⟩, -- MEM_SCRUB_CFG (R210)
  ⟨0x2400028, 8, 1, 8, 1, .ro, 0, 0⟩, -- MEM_SCRUB_POS (R212)
  ⟨0x2400030, 8, 1, 8, 1, .event, 0, 0⟩, -- MEM_SCRUB_PASSES (R212)
  ⟨0x2400100, 0x10, 8, 8, 1, .ro, 0, 0⟩, -- MEM_STACK_STAT (R211)
  ⟨0x2400200, 0x20, 8, 8, 1, .error, 0, 0⟩, -- MEM_CE (R212)
  ⟨0x2400208, 0x20, 8, 8, 1, .error, 0, 0⟩, -- MEM_UE (R212)
  ⟨0x2400210, 0x20, 8, 8, 1, .event, 0, 0⟩, -- MEM_LINK_RETRY (R212)
  ⟨0x2400400, 8, 1, 8, 1, .error, 0, 0⟩, -- MEM_SRAM_CE (R212)
  ⟨0x2400408, 8, 1, 8, 1, .error, 0, 0⟩, -- MEM_SRAM_UE (R212)
  ⟨0x2400410, 8, 1, 8, 1, .event, 0, 0⟩, -- MEM_POISON_HITS (R212)
  ⟨0x2400500, 8, 1, 8, 1, .ro, 0, 0⟩, -- MEM_LAST_UE (R212)
  ⟨0x2400508, 8, 1, 8, 1, .ro, 0, 0⟩  -- MEM_LAST_UE_OWNER (R212)
  ]

/-- Registers of block TEL. -/
def famTEL : List RegFam := [
  ⟨0x2600010, 8, 1, 8, 1, .w1c, 0, 0x3fffffffffffff⟩, -- TEL_SAT_MAP (R681)
  ⟨0x2600100, 8, 1, 8, 1, .st, 0x8fffffffff80ffff, 0⟩, -- TEL_TRACE_CFG (R681)
  ⟨0x2600108, 8, 1, 8, 1, .lv, 1, 0⟩, -- TEL_TRACE_CTL (R681)
  ⟨0x2600110, 8, 1, 8, 1, .ro, 0, 0⟩, -- TEL_TRACE_STAT (R681)
  ⟨0x2600118, 8, 1, 8, 1, .wo, 0, 0⟩, -- TEL_TRACE_MARK (R681)
  ⟨0x2600120, 8, 1, 8, 1, .lv, 0xff, 0⟩, -- TEL_TRACE_PAGE (R681)
  ⟨0x2600128, 8, 1, 8, 1, .error, 0, 0⟩, -- TEL_TRACE_LOST (R681)
  ⟨0x2600200, 8, 1, 8, 1, .st, 0xffff, 0⟩, -- TEL_BIST_CFG (R681)
  ⟨0x2600208, 8, 1, 8, 1, .wo, 0, 0⟩, -- TEL_BIST_REQ (R681)
  ⟨0x2600210, 8, 1, 8, 1, .w1c, 0, 0x1000000000000000⟩, -- TEL_BIST_STAT (R681)
  ⟨0x2600300, 8, 1, 8, 1, .event, 0, 0⟩, -- TEL_BIST_DONE (R681)
  ⟨0x2600308, 8, 1, 8, 1, .event, 0, 0⟩, -- TEL_BIST_DEFERRED (R681)
  ⟨0x2610000, 0x80, 54, 8, 16, .stall, 0, 0⟩, -- TEL_STALL (R266)
  ⟨0x2620000, 8, 54, 8, 1, .event, 0, 0⟩, -- TEL_YIELD (R270)
  ⟨0x2630000, 0x20, 54, 8, 3, .event, 0, 0⟩, -- TEL_CYC (R681)
  ⟨0x2640000, 8, 8192, 8, 1, .ro, 0, 0⟩  -- TEL_TRACE_WIN (R667)
  ]

/-- Registers of block DBG. -/
def famDBG : List RegFam := [
  ⟨0x2800000, 8, 1, 8, 1, .ro, 0, 0⟩, -- DBG_STATUS (R682)
  ⟨0x2800010, 8, 1, 8, 1, .rw, 0x3fffffffffffff, 0⟩, -- DBG_HALT_INST (R682)
  ⟨0x2800020, 8, 1, 8, 1, .event, 0, 0⟩, -- DBG_HELD_WAITS (R682)
  ⟨0x2801000, 8, 64, 8, 1, .rw, 0xffffffffffffffff, 0⟩, -- DBG_HALT_Q (R682)
  ⟨0x2802000, 8, 54, 8, 1, .ro, 0, 0⟩  -- DBG_HALT_STAT (R682)
  ]

/-- The families of the block that holds an offset (R8). -/
def famsOf (a : Nat) : List RegFam :=
  if a < 0x100000 then famGLB
  else if a < 0x200000 then famSTG
  else if a < 0x300000 then famCLK
  else if a < 0x400000 then famPWR
  else if a < 0x500000 then famFLT
  else if a < 0x600000 then famVLT
  else if a < 0x700000 then famNVC
  else if a < 0x800000 then famAON
  else if a < 0xa00000 then famING
  else if a < 0xc00000 then famDEC
  else if a < 0xe00000 then famLEX
  else if a < 0x1000000 then famGRT
  else if a < 0x1200000 then famORY
  else if a < 0x1400000 then famGTH
  else if a < 0x1600000 then famSMP
  else if a < 0x1800000 then famPAK
  else if a < 0x1a00000 then famSENa ++ famSENb
  else if a < 0x1c00000 then famXCH
  else if a < 0x1e00000 then famSTR
  else if a < 0x2000000 then famLDGa ++ famLDGb
  else if a < 0x2200000 then famNGLa ++ famNGLb
  else if a < 0x2300000 then famHIF
  else if a < 0x2400000 then famETH
  else if a < 0x2600000 then famMEM
  else if a < 0x2800000 then famTEL
  else if a < 0x2900000 then famDBG
  else []

/-- A family covers an 8-byte-aligned offset. -/
def RegFam.covers (f : RegFam) (a : Nat) : Bool :=
  f.base ≤ a &&
    (let d := a - f.base
     let i := if f.c1 ≤ 1 then 0 else min (d / f.s1) (f.c1 - 1)
     let e := d - i * f.s1
     e % f.s2 = 0 && e / f.s2 < f.c2)

/-- The family of a register; none where the offset is undefined (R10). -/
def regFam (a : Nat) : Option RegFam := (famsOf a).find? (fun f => f.covers a)

/-- A register counts events, errors or stalls, so that a warm reset leaves it unchanged (R660). -/
def isCounter (a : Nat) : Bool :=
  match regFam a with
  | some f => f.typ = .event || f.typ = .error || f.typ = .stall
  | none => false

end Sys2Proof.Machine
end

