-- ==== Sys2Proof/Machine/PwrOps.lean ====
section
/-!
DEFINITION. Switched domains, the resets and the cold start: the operations that the rows of chapters 2, 4 and 5 share.
-/

namespace Sys2Proof.Machine

/-- A lane after its domain or its link was reset: the seeds again (R69, R126); `signal` keeps what the detector sees. -/
def State.laneReset (s : State) (l : Nat) (signal : Bool) : State :=
  let x := s.lane l
  let c := tget {} s.clk.seed l
  s.setLane l { main := c, shadow := c, amp := if signal then x.amp else 0, los := !signal || x.los }

/-- Every lane is reset. -/
def State.lanesReset (s : State) (signal : Bool) : State :=
  (List.range 24).foldl (fun s l => s.laneReset l signal) s

/-! ### Register blocks (R8) -/

/-- The offsets of an engine block that its island's domain holds: all but 0x0_0100 to 0x0_FFFF (R687). -/
def blockDom (b next : Nat) : List (Nat × Nat) := [(b, b + 0x100), (b + 0x10000, next)]

/-- Address ranges of the registers a domain holds (R687). -/
def domRegs (d : Nat) : List (Nat × Nat) :=
  match d with
  | 1 => [(bHIF, bETH)]
  | 2 => [(bETH, bMEM)]
  | 3 => [(bSEN + 0x100, bXCH)]
  | 4 => [(bNGL + 0x1000, bNGL + 0x1800)]
  | 5 => [(bNGL + 0x1800, bNGL + 0x2000)]
  | 8 => blockDom bING bDEC ++ blockDom bDEC bLEX
  | 10 => blockDom bLEX bGRT
  | 11 => blockDom bGRT bORY ++ blockDom bORY bGTH
  | 13 => blockDom bGTH bSMP ++ blockDom bSMP bPAK
  | 14 => blockDom bPAK bSEN ++ blockDom bXCH bSTR
  | _ => []

/-- The domain that holds a register; 0 where it is not switched (R18). -/
def regDom (a : Nat) : Nat :=
  ((span 1 14).find? (fun d => (domRegs d).any (fun r => r.1 ≤ a && a < r.2))).getD 0

/-- Islands of a domain (R55, R80). -/
def domIslands (d : Nat) : List Nat := (List.range 26).filter (fun i => d ≠ 0 && islandDom i = d)

/-- Instances of a domain. -/
def domBays (d : Nat) : List Nat := (List.range 54).filter (fun n => bayDom n = d)

/-- Base address of a Bay (R188). -/
def bayBase (n : Nat) : Nat := 0x50000000000 + 0x400000 * n

/-- The contents of a Bay are lost: its bytes are undefined, its lines carry no poison (R85, R715). -/
def State.bayLose (s : State) (n : Nat) : State :=
  s.fresh (fun k s => { s with mem :=
    { s.mem.undef (bayBase n) (bayBase (n + 1)) (k + 1) with poison := tclear s.mem.poison (bayBase n / 64) (bayBase (n + 1) / 64) } })

/-- A die's stacks lose power: contents and initialisation are lost (R80, R193). -/
def Mem.dieOff (m : Mem) (die : Nat) : Mem :=
  { m with
    bytes := tclear m.bytes (0x2000000000 * die) (0x2000000000 * (die + 1))
    poison := tclear m.poison (0x80000000 * die) (0x80000000 * (die + 1))
    stack := tclear m.stack (4 * die) (4 * die + 4)
    init := tclear m.init (65536 * die) (65536 * (die + 1)) }

/-- A Nguorn port whose domain is on and that the configuration enables enters DETECT, and trains at once when the
partner's signal is already there (R52, R556). -/
def State.portStart (s : State) (p : Nat) : State :=
  if s.portEn p && s.domOn (if p < 8 then 4 else 5) && (s.port p).state = .disabled then
    (s.portTo p .detect (s.port p).cause).detectExit p
  else s

/-- Ports of a Nguorn domain. -/
def domPorts (d : Nat) : List Nat := if d = 4 then List.range 8 else if d = 5 then span 8 8 else []

/-- The commands of a domain's instances end FENCED when it goes off (R83). -/
def State.endTasksOf (s : State) (d : Nat) : State :=
  (domBays d).foldl (fun s n =>
    (s.tasksOn n).foldl (fun s t => (s.modTask t (fun x => x.endWith stFENCED 0)).dropStreamsOf t) (s.dropBanks n)) s

/-- What a domain loses when its switches open: islands stop, ports go idle, stacks, Bays and registers lose their
contents (R51, R80, R85, R715). Its ST registers hold the active configuration when it returns. -/
def State.domLose (s : State) (d : Nat) : State :=
  let s := s.endTasksOf d
  let s := (domIslands d).foldl State.stopIsland s
  let s := s.whenB (d ≤ 5) (fun s => (domRegs d).foldl (fun s r => s.clearRegs r.1 r.2) s)
  let s := (domBays d).foldl State.bayLose s
  let s := (domPorts d).foldl (fun s p => (s.setPort p {}).laneReset p false) s
  match d with
  | 1 => { (s.hifReset true) with hif := { bar2Log2 := s.hif.bar2Log2, bar2Taken := s.hif.bar2Taken } }
  | 2 => (span 16 8).foldl (fun s l => s.laneReset l false) { s with eth := {} }
  | 3 => { s with pins := { s.pins with trig := 0 }, sen := {} }
  | 6 => { s with mem := s.mem.dieOff 0 }
  | 7 => { s with mem := s.mem.dieOff 1 }
  | 8 => { s with vlt := { s.vlt with cache := [] }, ing := {} }
  | _ => s

/-- A domain reaches ON: its island PLLs run, its ports and stacks start (R82, R192, R556). -/
def State.domGain (s : State) (d : Nat) : State :=
  let s := (domIslands d).foldl State.startIsland s
  let s := (domPorts d).foldl State.portStart s
  let die := d - 6
  if d = 6 ∨ d = 7 then
    { s with mem := { s.mem with
        stack := (span (4 * die) 4).foldl (fun t i => tset {} t i { state := .training }) s.mem.stack } }
  else s

/-- A domain takes a new state, with a POWER trace record; the record's unit field is left open (R664). -/
def State.domTo (s : State) (d : Nat) (x : Dom) : State :=
  let old := (s.dom d).state
  let s := s.setDom d x
  let s := s.whenB (d = 2 && old = .on && x.state ≠ .on && s.timeSrc ≤ 2) State.servoLost
  if old = x.state then s
  else s.fresh (fun k s => s.trace 0x0B (Config.freeValue k 0 % 4096) (leBytes 1 d ++ leBytes 1 old.ctorIdx ++ leBytes 1 x.state.ctorIdx))

/-! ### Requests (R82 to R86) -/
def rDomReq (d : Nat) : Nat := bPWR + 0x100 + 16 * (d - 1)

/-- The request bit of a domain. -/
def State.domReq (s : State) (d : Nat) : Bool := wbit (s.reg (rDomReq d)) 0
def State.setDomReq (s : State) (d : Nat) (b : Bool) : State := s.setReg (rDomReq d) (if b then 1 else 0)

/-- A domain holds the stacks or engine instances of a command that is debug-halted (R84). -/
def State.holdsHalted (s : State) (d : Nat) : Bool :=
  (List.range 54).any (fun n => s.haltOf n ≠ .running && (s.tasksOn n).any (fun t =>
    bayDom n = d || s.str.strm.any (fun e => match e.2 with
      | some x => x.task = t && x.desc.space = 0 && (match region x.desc.start with | some (.hbm i) => d = 6 + i | _ => false)
      | none => false)))

/-- Commands not started on the domain's instances move to powered siblings; those without one wait (R83). -/
def State.moveQueued (s : State) (d : Nat) : State :=
  (domBays d).foldl (fun s n =>
    (s.tasksOn n).foldl (fun s t => match s.task t with
      | some x =>
        if x.started then s
        else match s.fewest (s.siblings n) with
          | some m => s.restartOn t n m
          | none => s
      | none => s) s) s

/-- An off request that R84 does not refuse: the domain drains (R83). -/
def State.beginDrain (s : State) (d : Nat) : State :=
  (s.domTo d { s.dom d with state := .draining, scan := false }).moveQueued d

/-- R84: the request is refused. -/
def State.refuseOff (s : State) (d : Nat) : State :=
  (s.setDomReq d true).domTo d { s.dom d with lastOff := .refused, scan := false }

/-- An off request to a domain that is ON (R83, R84). For P6 and P7 the region map is scanned first (R208). -/
def State.offRequest (s : State) (host : Bool) (d : Nat) : State :=
  if (host && d = 1) || s.holdsHalted d then s.refuseOff d
  else if d = 6 || d = 7 then s.domTo d { s.dom d with scan := true }
  else s.beginDrain d

/-! ### Access paths -/

/-- The debug port is open (R672): by the strap or by the accepted policy, and only while debug_lock is intact. -/
def State.dbgOpen (s : State) : Bool :=
  !s.vlt.fuses.debugLock &&
    ((s.pins.straps.getD {}).dbgEn || (match s.vlt.policy with | some p => bit (leNat (p.drop 6 |>.take 2)) 1 | none => false))

/-- The BOOT logic runs: the main rail is up, out of reset, the straps sampled. -/
def State.bootRuns (s : State) : Bool := s.mainRunning && s.pins.straps.isSome

/-- The host can make BAR0 accesses (R50, R620). -/
def State.hostBar (s : State) : Bool := s.domOn 1 && s.pins.perst && s.hif.linkUp && s.hif.mse && !s.hif.d3hot

/-- A write on a path reaches a register: the path is up, the register's domain is on (R18), and the host is not shut
out while the start-up program runs (R122). -/
def State.wgate (s : State) (p : Path) (a : Nat) : Bool :=
  s.bootRuns && s.powered (regDom a) &&
    (match p with
     | .host => s.hostBar && (s.boot.state ≠ .execute || (bNVC ≤ a && a < bAON))
     | .debug => s.dbgOpen
     | .boot => s.boot.state = .execute
     | .vault => true)

/-! ### Ledger and Vault at a reset -/

/-- What the Ledger keeps through a reset that does not cut the main rail: journal and sequence number (R300, R318). -/
def State.ldgReset (s : State) : State :=
  let l := s.freeAll.ldg
  { s with ldg := { initDone := l.initDone, ctx := l.ctx, seq := l.seq, ret := l.ret, retValid := l.retValid } }

/-- Sessions and nonces end (R157); failure counts and lockouts stay. -/
def VPath.ended (v : VPath) : VPath := { v with sess := none, nonce := none }

/-- The Vault at a cold or warm reset (R157). -/
def Vlt.reset (v : Vlt) : Vlt :=
  { v with
    host := { v.host.ended with busy := false, status := 0 }
    dbg := { v.dbg.ended with busy := false, status := 0 }
    order := [], cache := [] }

/-- The Vault at a boot reset: the island is not reset, its sessions end (R121, R157). -/
def Vlt.bootReset (v : Vlt) : Vlt := { v with cache := [], host := v.host.ended, dbg := v.dbg.ended }

/-- A cold start drops the accepted policy and reruns the self-tests (R168, R181). -/
def Vlt.coldStart (v : Vlt) : Vlt := { v with policy := none, spdm := 0 }

/-! ### The resets -/

/-- Registers of Almanac, kept while the standby rail is up (R106). -/
def aonReg (a : Nat) : Bool := bAON ≤ a && a < bING

/-- Generation 0 after a reset: zero but for the wake configuration that Almanac keeps (R106) and, after a warm or a
boot reset, the host window in use (R634). -/
def State.gen0 (s : State) (window : Bool) : List (Nat × Tbl Word) :=
  let t := tset 0 (tset 0 (sdCfg s.clk.losB) (bAON + 0x100) s.aon.wakeCfg) (bAON + 0x108) s.aon.wakeDir
  [(0, if window then tset 0 t (bHIF + 0x20) (s.cfg (bHIF + 0x20)) else t)]

/-- A flash program or erase in progress is aborted: the page or sector it addressed holds free values (R131). -/
def State.flashAbort (s : State) : State :=
  let put (n : Nat) (s : State) : State := s.fresh (fun k s =>
    { s with flash := tsplice 0xFF s.flash s.boot.flAddr ((List.range n).map (fun i => BitVec.ofNat 8 (Config.freeValue k i))) })
  let s := match s.boot.flBusy with
    | some .program => put 256 s
    | some .erase => put 65536 s
    | _ => s
  { s with boot := { s.boot with flBusy := none } }

/-- The debug logic after a reset: every halt bit clears (R680); the TAP goes on, which only TRST_N or the loss of the
main rail resets (R51). -/
def Dbg.reset (d : Dbg) : Dbg := { tap := d.tap, boundary := d.boundary }

/-- All main-rail state takes its cold-reset value (R12, R89); Almanac, the Vault's standby state, the retention buffer,
the flash and the host keep theirs. -/
def State.coldReset (s : State) : State :=
  let s := s.flashAbort
  { pins := { s.pins with trig := 0, warmDrain := false, alertTherm := false, alertNoImage := false }
    aon := { s.aon with firedSince := 0 }
    stg := { gens := s.gen0 false }
    dbg := s.dbg.reset
    vlt := s.vlt.reset
    ldg := { ret := s.ldg.ret, retValid := s.ldg.retValid }
    regs := s.regs.filter (fun e => aonReg e.1)
    host := s.host, flash := s.flash, mem := Mem.cold (s.free + 1), free := s.free + 1, outs := s.outs, pending := s.pending }

/-- A cold start (R81, R119): fabric time begins at the real-time clock's seconds (R517), P1 is switched on, BOOT and SPINE run, and the flash is brought up, or the part enters
factory test (R45). -/
def State.coldStart (s : State) : State :=
  let st := s.pins.straps.getD {}
  let s := (s.startIsland 3).startIsland 25
  let s := (s.setDomReq 1 true).domTo 1 { state := .powering }
  { s with
    time := s.aon.rtc / 32768 * 2000000000
    vlt := s.vlt.coldStart
    boot := { state := if st.test.val = 0 then .flashInit else .factoryTest, startT := s.spine } }

/-- The flash bring-up of a cold start begins again without a reset at the pins (R124, R132). -/
def State.restartBoot (s : State) : State :=
  { s with
    pins := { s.pins with alertNoImage := false }
    vlt := s.vlt.coldStart
    boot := { state := .flashInit, startT := s.spine, nvClkMhz := s.boot.nvClkMhz, densLog2 := s.boot.densLog2, nvmMode := s.boot.nvmMode
              cal := s.boot.cal, crsEnd := s.boot.crsEnd, flBusy := s.boot.flBusy, flResult := s.boot.flResult } }


/-- Islands that run start again at nominal frequency and table voltage (R57). -/
def State.restartIslands (s : State) : State :=
  (List.range 26).foldl (fun s i => if i ≥ 3 && (s.isl i).state ≠ .off then s.startIsland i else s) s

/-- The trace stops at a warm or a boot reset and keeps its buffer (R667). -/
def Tel.reset (t : Tel) : Tel := { buf := t.buf, seq := t.seq }

/-- Units after a warm reset: only PERMANENT stays (R645). -/
def Flt.warm (f : Flt) : Flt :=
  { state := if f.coldReq then .stopped else .normal
    coldReq := f.coldReq
    unit := f.unit.filter (fun e => decide (e.2.state = .permanent))
    log := f.log, tail := f.tail, first := f.first, firstValid := f.firstValid }

/-- A register that a warm reset leaves unchanged: counters (R660), Almanac (R106), GLB_SCRATCH (R691), the domain
requests (R102), the MSI-X table (R621) and the fault log's head. -/
def warmKeeps (a : Nat) : Bool :=
  isCounter a || aonReg a || a = bGLB + 0x30 || (bPWR + 0x100 ≤ a && a < bPWR + 0x200) ||
  (bHIF + 0x10000 ≤ a && a < bHIF + 0x18000) || a = bFLT + 0x28

/-- The replay of the retained program (R124), or the cold start again when none had finished. -/
def State.warmBoot (s : State) : State :=
  if s.boot.state = .noImage || s.boot.state = .factoryTest then s
  else if s.boot.retained then
    { s with boot := { s.boot with state := .execute, replay := true, pc := 0, flBusy := none, flResult := 0 } }
  else s.restartBoot

/-- A warm reset takes effect (R49, R102, R124, R152, R222, R300). -/
def State.warmReset (s : State) : State :=
  let s := s.flushJournal
  let gens := s.gen0 true
  let s := s.hostTransfersFenced
  let s := s.ldgReset
  let s := { s with
    boot := { s.boot with flBusy := none }
    pins := { s.pins with warmDrain := false, trig := 0, alertTherm := false }
    pwr := { s.pwr with cd0Ceil := 80, cd1Ceil := 80, pfTripped := false, pfFlush := false, sleepEntry := false }
    stg := { gens := gens }
    flt := s.flt.warm, tel := s.tel.reset, dbg := s.dbg.reset, que := {}, vlt := s.vlt.reset
    mem := { s.mem with scrubPos := 0, repairs := [] }
    hif := { s.hif with cc := [], ccPend := [], evict := [], flushing := false, doe := none }
    str := {}, eth := {}, ngl := {}, gth := {}, azm := {}, ing := {}, pak := {}, sen := {}, servo := {}
    regs := s.regs.filter (fun e => warmKeeps e.1)
    shHost := none, shDbg := none, shVlt := none }
  (s.lanesReset true).restartIslands.warmBoot

/-- A register that a boot reset leaves unchanged (R121, R691): Almanac, the Vault, NVC, HIF and GLB_SCRATCH. -/
def bootKeeps (a : Nat) : Bool :=
  aonReg a || (bVLT ≤ a && a < bAON) || (bHIF ≤ a && a < bETH) || a = bGLB + 0x30

/-- Every switched domain but P1 switches off without a drain, with last_off none (R121). -/
def State.domsOff (s : State) : State :=
  let p1 := s.dom 1
  let on1 : Dom :=
    if p1.state = .draining then { state := .on }
    else if p1.state = .off && !p1.waiting then { state := .off, fallingOff := p1.fallingOff, waiting := true }
    else { p1 with lastOff := .none, scan := false }
  let s := (span 2 13).foldl (fun s d => if (s.dom d).state = .off then s.domTo d {} else (s.domLose d).domTo d { fallingOff := true }) s
  s.domTo 1 on1

/-- The boot reset (R121): every island except AON, VLT, BOOT and HIF takes its cold-reset state. -/
def State.bootReset (s : State) : State :=
  let gens := s.gen0 true
  let s := s.domsOff.ldgReset
  let s : State :=
    { pins := { s.pins with trig := 0, alertTherm := false }
      clk := s.clk
      pwr := { dom := s.pwr.dom, cd0Temp := s.pwr.cd0Temp, cd1Temp := s.pwr.cd1Temp, iodTemp := s.pwr.iodTemp
               devPower := s.pwr.devPower }
      aon := s.aon, boot := s.boot
      stg := { gens := gens }
      tel := s.tel.reset, dbg := s.dbg.reset
      vlt := s.vlt.bootReset, hif := s.hif, ldg := s.ldg
      regs := s.regs.filter (fun e => bootKeeps e.1)
      host := s.host, flash := s.flash, time := s.time, spine := s.spine, mem := Mem.cold (s.free + 1), free := s.free + 1, outs := s.outs, pending := s.pending }
  ((s.setDomReq 1 true).lanesReset true).startIsland 25

end Sys2Proof.Machine
end

