-- ==== Sys2Proof/Machine/StgOps.lean ====
section
/-!
DEFINITION. The staging set and the check list of a commit (chapter 6), with the checks that every other chapter adds.
-/

namespace Sys2Proof.Machine

/-! ### The staging set (R137 to R140) -/

/-- STG_STATUS flags (R154). -/
def fLate : Nat := 2 ^ 19
def fForeign : Nat := 2 ^ 18
def fDropped : Nat := 2 ^ 17
def rStgStatus : Nat := bSTG + 0x10

/-- Writable bits of one half of an ST register; 0 where the half holds no ST field. -/
def stMask (off : Nat) : Nat :=
  match regFam (off - off % 8) with
  | some f => if f.typ = .st then (if off % 8 = 4 then f.mask / 2 ^ 32 else f.mask % 2 ^ 32) else 0
  | none => 0

/-- CLK_ISL_CFG_1 and CLK_ISL_CFG_2 stage nothing (R79). -/
def stFixed (off : Nat) : Bool := off - off % 8 = bCLK + 0x1000 || off - off % 8 = bCLK + 0x1040

/-- A write to one half of an ST register (R137 to R140). -/
def State.stageHalf (s : State) (p : Path) (off v : Nat) : State :=
  if stMask off = 0 || stFixed off || p = .vault then s
  else if s.stg.state ≠ .idle then s.setBits rStgStatus fLate
  else if s.stg.owner.isSome && s.stg.owner ≠ some p then s.setBits rStgStatus fForeign
  else if (tget none s.stg.set off).isNone && s.stg.set.length ≥ 16384 then
    { s with stg := { s.stg with
        overflow := true, ovReg := if s.stg.overflow then s.stg.ovReg else off - off % 8 } }
  else
    { s with stg := { s.stg with
        owner := some p, set := tset none s.stg.set off (some (BitVec.ofNat 32 (v &&& stMask off))) } }

/-- An ST register as staged over a configuration (R13, R137). -/
def staged (set : Tbl (Option Half)) (t : Tbl Word) (a : Nat) : Word :=
  let w := tget 0 t a
  let lo := match tget none set a with | some h => h.toNat | none => wfld w 31 0
  let hi := match tget none set (a + 4) with | some h => h.toNat | none => wfld w 63 32
  BitVec.ofNat 64 (hi * 2 ^ 32 + lo)

/-- Registers named by the staging set, lowest first. -/
def State.stagedRegs (s : State) : List Nat := (s.stg.set.map (fun e => e.1 - e.1 % 8)).eraseDups

/-- The configuration a commit would create (R141). -/
def State.newCfg (s : State) : Tbl Word :=
  s.stagedRegs.foldl (fun t a => tset 0 t a (staged s.stg.set (s.cfgTbl s.gen) a)) (s.cfgTbl s.gen)

/-- The set empties and is released (R138, R139). -/
def State.stgRelease (s : State) : State :=
  { s with stg := { s.stg with set := [], owner := none, overflow := false, ovReg := 0 } }

/-! ### Reading a configuration -/

/-- A field of a register in a configuration table. -/
def cfl (t : Tbl Word) (a hi lo : Nat) : Nat := wfld (tget 0 t a) hi lo
def cbt (t : Tbl Word) (a i : Nat) : Bool := wbit (tget 0 t a) i

/-- Indices of the entities of a register array whose bit `b` is set in the register at `off` of the entity. -/
def onIdx (t : Tbl Word) (base stride count off b : Nat) : List Nat :=
  t.filterMap (fun e =>
    if base ≤ e.1 && e.1 < base + stride * count && (e.1 - base) % stride = off && wbit e.2 b
    then some ((e.1 - base) / stride) else none)

def queuesOn (t : Tbl Word) : List Nat := onIdx t (bGLB + 0x10000) 0x20 4096 0x10 63
def pipesIn (t : Tbl Word) : List Nat := onIdx t (bLDG + 0x10000) 0x40 256 0 63
def portsIn (t : Tbl Word) : List Nat := onIdx t (bNGL + 0x1000) 0x100 16 0 63
def layersIn (t : Tbl Word) : List Nat := onIdx t (bSEN + 0x2000) 0x40 32 0 63
def groupsIn (t : Tbl Word) : List Nat := onIdx t (bSEN + 0x4000) 0x40 8 0 63
def trigsIn (t : Tbl Word) : List Nat := onIdx t (bSEN + 0x6000) 0x20 4 0 63
def tgtsIn (t : Tbl Word) : List Nat := onIdx t (bING + 0x1000) 0x20 64 0x10 16
def ethIn (t : Tbl Word) : List Nat := onIdx t bETH 0x40 2 0 48
def rangesIn (t : Tbl Word) : List Nat := onIdx t (bHIF + 0x100) 0x10 8 0 0
def servesIn (t : Tbl Word) : List Nat := onIdx t (bNGL + 0xA000) 0x10 16 0 63

def rQ (q : Nat) : Nat := bGLB + 0x10000 + 0x20 * q
def rPipe (p : Nat) : Nat := bLDG + 0x10000 + 0x40 * p
def rPak (p : Nat) : Nat := bPAK + 0x10000 + 0x40 * p
def rPort (p : Nat) : Nat := bNGL + 0x1000 + 0x100 * p
def rLayer (l : Nat) : Nat := bSEN + 0x2000 + 0x40 * l
def rGrp (g : Nat) : Nat := bSEN + 0x4000 + 0x40 * g
def rTgt (t : Nat) : Nat := bING + 0x1000 + 0x20 * t
def rEth (x : Nat) : Nat := bETH + 0x40 * x
def rDom (i : Nat) : Nat := bNGL + 0x8100 + 8 * i
def rCur (t : Nat) : Nat := bGTH + 0x40000 + 0x20 * t

def inR (x lo hi : Nat) : Bool := lo ≤ x && x ≤ hi

/-- Two ranges of bytes overlap. -/
def overlap (a n b m : Nat) : Bool := n ≠ 0 && m ≠ 0 && a < b + m && b < a + n

/-! ### Check 0x0101: the fields whose range no numbered check of their block tests (R149) -/

/-- The staged register `a` holds only valid fields in a new configuration. -/
def fieldsOk (t : Tbl Word) (a : Nat) : Bool :=
  let f := cfl t a
  if bGLB + 0x10000 ≤ a ∧ a < bGLB + 0x30000 then
    let q := (a - (bGLB + 0x10000)) / 0x20
    (a % 0x20 ≠ 0x10) || !cbt t (rQ q + 0x10) 63 || (f 62 59 ≤ 9 && inR (f 32 28) 4 16 && inR (f 27 23) 4 16)
  else if a = bING + 0x10 then f 7 5 ≠ 7 && f 4 3 ≠ 3
  else if a = bING + 0x18 then f 31 16 ≠ 0 && f 15 0 ≠ 0
  else if bING + 0x1000 ≤ a ∧ a < bING + 0x1800 then
    a % 0x20 ≠ 0x10 || !cbt t a 16 || inR (f 31 24) 1 128
  else if a = bGTH + 0x10 then f 56 44 ≤ 4096
  else if a = bGTH + 0x18 then f 15 0 ≠ 0
  else if a = bSMP + 0x10 ∨ a = bXCH + 0x10 ∨ a = bSTR + 0x10 ∨ a = bMEM + 0x10 then f 60 44 ≤ 65536
  else if a = bPAK + 0x10 then f 15 0 ≠ 0
  else if bPAK + 0x10000 ≤ a ∧ a < bPAK + 0x14000 then
    let p := (a - (bPAK + 0x10000)) / 0x40
    !cbt t (rPipe p) 63 ||
      (match a % 0x40 with
       | 0x10 => f 63 32 % 4096 = 0 && inR (f 12 0) 1 4096
       | 0x18 => f 47 32 ≠ 0 && (cbt t (rPak p) 63 || inR (f 14 0) 1 16384)
       | 0x28 => !cbt t a 0 || inR (f 63 59) 4 16
       | _ => true)
  else if a = bSEN + 8 then f 4 3 ≠ 3
  else if bSEN + 0x1000 ≤ a ∧ a < bSEN + 0x1100 then !cbt t a 31 || (f 30 29 ≠ 2 && inR (f 12 0) 80 4500)
  else if bSEN + 0x5000 ≤ a ∧ a < bSEN + 0x5080 then a % 0x10 ≠ 0 || f 1 0 ≠ 3
  else if a = bLDG + 0x10 then f 15 0 ≠ 0
  else if bLDG + 0x10000 ≤ a ∧ a < bLDG + 0x14000 then
    let p := (a - (bLDG + 0x10000)) / 0x40
    !cbt t (rPipe p) 63 ||
      (match a % 0x40 with
       | 0 => f 62 61 ≠ 3 && f 55 40 ≠ 0 && f 27 14 ≤ 10000
       | 8 => f 1 0 = 0
       | 0x10 => f 3 0 = 0
       | 0x18 => f 63 44 ≠ 0 && inR (f 43 27) 1 65536
       | 0x28 => inR (f 31 16) 1 2048
       | 0x30 => inR (f 63 59) 8 20
       | _ => true)
  else if a = bNGL + 0x8008 then f 63 48 ≠ 0
  else if a = bHIF + 0x18 then f 3 0 = 1 || f 3 0 = 2 || f 3 0 = 5 || f 3 0 = 6
  else true

/-! ### The timeout pairs (R150), in ns -/
def toRemote (t : Tbl Word) : Nat := cfl t (bGTH + 0x18) 15 0 * 1000
def toHold (t : Tbl Word) : Nat := cfl t (bPAK + 0x10) 15 0 * 1000
def toFabric (t : Tbl Word) : Nat := cfl t (bING + 0x18) 31 16 * 1000000
def toHost (t : Tbl Word) : Nat := cfl t (bING + 0x18) 15 0 * 1000
def toRoce (t : Tbl Word) : Nat := (cfl t (bING + 0x10) 10 8 + 1) * 4096 * 2 ^ cfl t (bING + 0x10) 15 11
def toSample (t : Tbl Word) : Nat := cfl t (bLDG + 0x10) 15 0 * 1000000

/-- Upper end of the completion-timeout range; none where R634 lists no such range. -/
def cplUpper (t : Tbl Word) : Option Nat :=
  match cfl t (bHIF + 0x18) 3 0 with
  | 1 => some 100000
  | 2 => some 10000000
  | 5 => some 55000000
  | 6 => some 210000000
  | _ => none

/-! ### Formats of the sensor layers (R510, R512) -/

/-- Bytes of the stored format of a CSI-2 data type; none for a type SEN refuses. -/
def senFormat (dt : Nat) : Option Nat :=
  if dt = 0x2A then some 1
  else if dt = 0x2B ∨ dt = 0x2C ∨ dt = 0x2D ∨ dt = 0x2E then some 2
  else if dt = 0x24 ∨ dt = 0x1E then some 3
  else none

/-- Registers of two configurations agree on some bits. -/
def sameBits (t u : Tbl Word) (a hi lo : Nat) : Bool := cfl t a hi lo = cfl u a hi lo
def sameReg (t u : Tbl Word) (a : Nat) : Bool := tget 0 t a = tget 0 u a

/-- One check: its id, the registers it reads, the lowest of them, and whether the new configuration passes it beside
the current one. -/
structure Check where
  id : Nat
  reads : Nat → Bool
  low : Nat
  ok : State → Tbl Word → Tbl Word → Bool

def rd1 (a : Nat) : Nat → Bool := fun x => x = a
def rdR (lo hi : Nat) : Nat → Bool := fun x => lo ≤ x && x < hi
/-- An array of registers: base, stride, count and the offsets read in an entity. -/
def rdA (base stride count : Nat) (offs : List Nat) : Nat → Bool :=
  fun x => base ≤ x && x < base + stride * count && offs.contains ((x - base) % stride)

def rdQ : List Nat → Nat → Bool := rdA (bGLB + 0x10000) 0x20 4096
def rdP : List Nat → Nat → Bool := rdA (bLDG + 0x10000) 0x40 256
def rdIsl : Nat → Bool := rdA (bCLK + 0x1080) 0x40 23 [0]
def rdSd : Nat → Bool := rdA (bCLK + 0x4000) 0x40 24 [0]

/-- Islands with loops (R79). -/
def loops : List Nat := span 3 23

/-- GLB checks (R244). -/
def checksGlb : List Check := [
  { id := 0x0001, reads := rdQ [0x10, 0x18], low := rQ 0 + 0x10
    ok := fun _ _ t => (queuesOn t).all (fun q =>
      let m := cfl t (rQ q + 0x18) 23 0
      m ≠ 0 && m < 2 ^ kindCount (cfl t (rQ q + 0x10) 62 59)) },
  { id := 0x0002, reads := rdQ [0, 8, 0x10], low := rQ 0
    ok := fun _ _ t => (queuesOn t).all (fun q =>
      (cbt t (rQ q) 0 || mappedRange (64 * cfl t (rQ q) 43 6) (64 * 2 ^ cfl t (rQ q + 0x10) 32 28)) &&
      (cbt t (rQ q + 8) 0 || mappedRange (32 * cfl t (rQ q + 8) 43 5) (32 * 2 ^ cfl t (rQ q + 0x10) 27 23))) },
  { id := 0x0003, reads := rdQ [0, 8, 0x10], low := rQ 0
    ok := fun _ c t => (queuesOn t).all (fun q => !cbt c (rQ q + 0x10) 63 ||
      (sameReg c t (rQ q) && sameReg c t (rQ q + 8) && sameBits c t (rQ q + 0x10) 62 59 &&
       sameBits c t (rQ q + 0x10) 32 23)) },
  { id := 0x0004, reads := rdQ [0, 8, 0x10], low := rQ 0
    ok := fun _ _ t => (queuesOn t).all (fun q => cbt t (rQ q) 0 ≠ cbt t (rQ q + 8) 0 ||
      !overlap (64 * cfl t (rQ q) 63 6) (64 * 2 ^ cfl t (rQ q + 0x10) 32 28)
        (32 * cfl t (rQ q + 8) 63 5) (32 * 2 ^ cfl t (rQ q + 0x10) 27 23)) }]

/-- The timeout pairs (R150). -/
def checksTimeout : List Check := [
  { id := 0x0102, reads := rd1 (bGTH + 0x18), low := bGTH + 0x18, ok := fun _ _ t => toRemote t ≥ 2 * 20000 },
  { id := 0x0103, reads := rd1 (bPAK + 0x10), low := bPAK + 0x10, ok := fun _ _ t => toHold t ≥ 2 * 20000 },
  { id := 0x0104, reads := fun x => x = bING + 0x10 || x = bING + 0x18, low := bING + 0x10
    ok := fun _ _ t => toFabric t ≥ 2 * toRoce t },
  { id := 0x0105, reads := fun x => x = bING + 0x18 || x = bHIF + 0x18, low := bING + 0x18
    ok := fun _ _ t => match cplUpper t with | some u => toHost t ≥ 2 * u | none => false },
  { id := 0x0106, reads := fun x => x = bING + 0x18 || x = bGTH + 0x18 || x = bLDG + 0x10, low := bING + 0x18
    ok := fun _ _ t => toSample t ≥ 2 * max (toRemote t) (max (toFabric t) (toHost t)) }]

/-- CLK and PWR checks (R79, R107). -/
def checksClkPwr : List Check := [
  { id := 0x0201, reads := rdIsl, low := bCLK + 0x1080
    ok := fun _ _ t => loops.all (fun n => cfl t (rIslCfg n) 23 16 ≤ cfl t (rIslCfg n) 31 24) },
  { id := 0x0202, reads := rdIsl, low := bCLK + 0x1080
    ok := fun _ _ t => loops.all (fun n => inR (cfl t (rIslCfg n) 23 16) 4 (islandNominal n) && inR (cfl t (rIslCfg n) 31 24) 4 (islandNominal n)) },
  { id := 0x0203, reads := rdIsl, low := bCLK + 0x1080
    ok := fun _ _ t => loops.all (fun n => islandKind n ≠ .avs ||
      (cfl t (rIslCfg n) 23 16 = islandNominal n && cfl t (rIslCfg n) 31 24 = islandNominal n)) },
  { id := 0x0204, reads := rdIsl, low := bCLK + 0x1080
    ok := fun _ _ t => loops.all (fun n => inR (cfl t (rIslCfg n) 15 8) 20 60) },
  { id := 0x0205, reads := rdIsl, low := bCLK + 0x1080, ok := fun _ _ t => loops.all (fun n => cfl t (rIslCfg n) 7 6 ≠ 3) },
  { id := 0x0206, reads := rd1 (bCLK + 0x100), low := bCLK + 0x100
    ok := fun _ _ t => cfl t (bCLK + 0x100) 15 0 < cfl t (bCLK + 0x100) 31 16 },
  { id := 0x0207, reads := rdSd, low := bCLK + 0x4000
    ok := fun _ _ t => (List.range 24).all (fun l => cfl t (rSdCtl l) 15 12 ≠ 0) },
  { id := 0x0208, reads := rdSd, low := bCLK + 0x4000
    ok := fun _ _ t => (List.range 24).all (fun l => cfl t (rSdCtl l) 31 24 ≤ cfl t (rSdCtl l) 23 16) },
  { id := 0x0301, reads := rd1 (bPWR + 0x10), low := bPWR + 0x10, ok := fun _ _ t => inR (cfl t (bPWR + 0x10) 15 8) 85 100 },
  { id := 0x0302, reads := rd1 (bPWR + 0x10), low := bPWR + 0x10, ok := fun _ _ t => inR (cfl t (bPWR + 0x10) 7 0) 2 15 },
  { id := 0x0303, reads := rd1 (bPWR + 0x10), low := bPWR + 0x10
    ok := fun _ _ t => cfl t (bPWR + 0x10) 15 8 ≥ 70 + cfl t (bPWR + 0x10) 7 0 },
  { id := 0x0304, reads := rd1 (bPWR + 0x10), low := bPWR + 0x10
    ok := fun _ _ t => cfl t (bPWR + 0x10) 47 32 = 0 || inR (cfl t (bPWR + 0x10) 47 32) 200 520 },
  { id := 0x0305, reads := rd1 (bPWR + 0x10), low := bPWR + 0x10, ok := fun _ _ t => cfl t (bPWR + 0x10) 63 48 ≠ 0 },
  { id := 0x0401, reads := rd1 (bFLT + 0x10), low := bFLT + 0x10
    ok := fun _ _ t => cfl t (bFLT + 0x10) 51 48 ≠ 0 && inR (cfl t (bFLT + 0x10) 47 40) 1 168 && cfl t (bFLT + 0x10) 31 16 ≠ 0 }]

/-- ING, DEC and LEX checks (R344, R368, R391). -/
def checksIng : List Check := [
  { id := 0x0801, reads := fun x => x = bING + 0x20 || rdA (bING + 0x1000) 0x20 64 [0x10, 0x18] x, low := bING + 0x20
    ok := fun _ _ t => mappedRange (cfl t (bING + 0x20) 43 0) 256 &&
      (tgtsIn t).all (fun g => mappedRange (cfl t (rTgt g + 0x18) 43 0) 256) },
  { id := 0x0802, reads := fun x => rdA (bING + 0x1000) 0x20 64 [0x10] x || x = rEth 0 || x = rEth 1, low := bING + 0x1010
    ok := fun _ _ t => (tgtsIn t).all (fun g =>
      (cbt t (rTgt g + 0x10) 17 && cbt t (rEth 0) 48) || (cbt t (rTgt g + 0x10) 18 && cbt t (rEth 1) 48)) },
  { id := 0x0A01, reads := rd1 (bDEC + 0x10), low := bDEC + 0x10, ok := fun _ _ t => inR (cfl t (bDEC + 0x10) 8 0) 1 256 },
  { id := 0x0C01, reads := rd1 (bLEX + 0x10), low := bLEX + 0x10
    ok := fun _ _ t => !cbt t (bLEX + 0x10) 0 || mappedRange (64 * cfl t (bLEX + 0x10) 43 6) 64 }]

/-- Valid table ids of a pipeline's pin list (R469). -/
def pinList (t : Tbl Word) (p : Nat) : List Nat :=
  (List.range 16).filterMap (fun e =>
    let v := cfl t (bGTH + 0x10000 + 0x20 * p + 8 * (e / 4)) (16 * (e % 4) + 15) (16 * (e % 4))
    if bit v 15 then some (fld v 11 0) else none)

/-- Pipelines with a non-empty pin register. -/
def pinned (t : Tbl Word) : List Nat :=
  (t.filterMap (fun e => if bGTH + 0x10000 ≤ e.1 && e.1 < bGTH + 0x12000 then some ((e.1 - (bGTH + 0x10000)) / 0x20) else none)).eraseDups

/-- Tables whose GTH_TBL_CUR differs between two configurations. -/
def tblChanged (c t : Tbl Word) : List Nat :=
  let ks (u : Tbl Word) := u.filterMap (fun e =>
    if bGTH + 0x40000 ≤ e.1 && e.1 < bGTH + 0x60000 then some ((e.1 - (bGTH + 0x40000)) / 0x20) else none)
  ((ks c ++ ks t).eraseDups).filter (fun n =>
    !(sameReg c t (rCur n) && sameReg c t (rCur n + 8) && sameReg c t (rCur n + 0x10)))

/-- GTH and SMP checks (R472, R487). -/
def checksGth : List Check := [
  { id := 0x1201, reads := rd1 (bGTH + 0x10), low := bGTH + 0x10
    ok := fun _ _ t => inHbmOrDepot (64 * cfl t (bGTH + 0x10) 43 6) (64 * cfl t (bGTH + 0x10) 56 44) },
  { id := 0x1202, reads := fun x => x = bGTH + 0x10 || rdR (bGTH + 0x10000) (bGTH + 0x12000) x, low := bGTH + 0x10
    ok := fun _ _ t => (pinned t).all (fun p =>
      (pinList t p).all (fun n => n < cfl t (bGTH + 0x10) 56 44) && (pinList t p).eraseDups.length = (pinList t p).length) },
  { id := 0x1203, reads := rdR (bGTH + 0x10000) (bGTH + 0x12000), low := bGTH + 0x10000
    ok := fun _ c t => (pipesIn t).all (fun p => !cbt c (rPipe p) 63 ||
      (List.range 4).all (fun i => sameReg c t (bGTH + 0x10000 + 0x20 * p + 8 * i))) },
  { id := 0x1204, reads := rdR (bGTH + 0x40000) (bGTH + 0x60000), low := bGTH + 0x40000
    ok := fun s c t => (tblChanged c t).all (fun n =>
      let v := cfl t (rCur n) 31 0
      let inForce := (s.verSlots n).filter (fun x => x.state ≠ .free)
      (inForce.isEmpty || (v ≠ cfl c (rCur n) 31 0 && inForce.all (fun x => x.version ≠ v))) &&
      inForce.length < 4 && mappedRange (cfl t (rCur n + 8) 43 0) 1) },
  { id := 0x1205, reads := rd1 (bGTH + 0x20), low := bGTH + 0x20, ok := fun _ _ t => cfl t (bGTH + 0x20) 15 0 ≠ 0 },
  { id := 0x1401, reads := rd1 (bSMP + 0x10), low := bSMP + 0x10
    ok := fun _ _ t => inHbmOrDepot (128 * cfl t (bSMP + 0x10) 43 7) (128 * cfl t (bSMP + 0x10) 60 44) }]

/-- PAK checks (R509). -/
def checksPak : List Check := [
  { id := 0x1601, reads := fun x => rdA (bPAK + 0x10000) 0x40 256 [0x10] x || rdP [0] x, low := rPak 0 + 0x10
    ok := fun _ _ t => (pipesIn t).all (fun p => cfl t (rPak p + 0x10) 12 0 ≥ cfl t (rPipe p) 11 0 + 1) },
  { id := 0x1602, reads := fun x => rdA (bPAK + 0x10000) 0x40 256 [8, 0x10, 0x28] x || rdP [0] x, low := rPak 0 + 8
    ok := fun _ _ t => (pipesIn t).all (fun p =>
      inHbmOrDepot (4096 * cfl t (rPak p + 8) 43 12) (cfl t (rPak p + 0x10) 12 0 * cfl t (rPak p + 0x10) 63 32) &&
      (!cbt t (rPak p + 0x28) 0 || inHbmOrDepot (16 * cfl t (rPak p + 0x28) 43 4) (16 * 2 ^ cfl t (rPak p + 0x28) 63 59))) },
  { id := 0x1603, reads := fun x => rdA (bPAK + 0x10000) 0x40 256 [0, 8, 0x10, 0x18, 0x20, 0x28] x || rdP [0] x, low := rPak 0
    ok := fun _ c t => (pipesIn t).all (fun p => !cbt c (rPipe p) 63 ||
      (List.range 6).all (fun i => sameReg c t (rPak p + 8 * i))) }]

/-- Layers of a group's valid members. -/
def grpLayers (t : Tbl Word) (g : Nat) : List Nat :=
  (List.range 8).filterMap (fun m => if cbt t (rGrp g + 8) (8 * m + 7) then some (cfl t (rGrp g + 8) (8 * m + 4) (8 * m)) else none)

/-- SEN checks (R533). -/
def checksSen : List Check := [
  { id := 0x1801, reads := fun x => rdA (bSEN + 0x1000) 0x20 8 [0] x || rdA (bSEN + 0x2000) 0x40 32 [0] x, low := bSEN + 0x1000
    ok := fun _ _ t => (layersIn t).all (fun l => cbt t (bSEN + 0x1000 + 0x20 * cfl t (rLayer l) 62 60) 31 &&
      (senFormat (cfl t (rLayer l) 55 50)).isSome) },
  { id := 0x1802, reads := rdA (bSEN + 0x2000) 0x40 32 [0, 0x10], low := bSEN + 0x2000
    ok := fun _ _ t => (layersIn t).all (fun l =>
      inR (cfl t (rLayer l) 49 35) 1 16384 && inR (cfl t (rLayer l) 34 20) 1 16384 &&
      (cfl t (rLayer l + 0x10) 31 16 < cfl t (rLayer l) 34 20 || cfl t (rLayer l + 0x10) 31 16 = 0xFFFF)) },
  { id := 0x1803, reads := rdA (bSEN + 0x2000) 0x40 32 [0, 8, 0x10], low := bSEN + 0x2000
    ok := fun _ _ t => (layersIn t).all (fun l =>
      let sb := cfl t (rLayer l + 0x10) 63 32
      inR (cfl t (rLayer l + 0x10) 7 0) 3 255 && sb % 64 = 0 &&
      sb ≥ cfl t (rLayer l) 49 35 * cfl t (rLayer l) 34 20 * (senFormat (cfl t (rLayer l) 55 50)).getD 0 &&
      inHbmOrDepot (64 * cfl t (rLayer l + 8) 43 6) (sb * cfl t (rLayer l + 0x10) 7 0)) },
  { id := 0x1804, reads := rdA (bSEN + 0x2000) 0x40 32 [0], low := bSEN + 0x2000
    ok := fun _ _ t => ((layersIn t).map (fun l => cfl t (rLayer l) 62 50)).eraseDups.length = (layersIn t).length },
  { id := 0x1805, reads := fun x => rdA (bSEN + 0x2000) 0x40 32 [0] x || rdA (bSEN + 0x4000) 0x40 8 [0, 8] x, low := bSEN + 0x2000
    ok := fun _ _ t =>
      let ls := (groupsIn t).flatMap (grpLayers t)
      (groupsIn t).all (fun g => !(grpLayers t g).isEmpty) && ls.all (fun l => (layersIn t).contains l) &&
      ls.eraseDups.length = ls.length },
  { id := 0x1806, reads := rdA (bSEN + 0x4000) 0x40 8 [0, 0x10], low := bSEN + 0x4000
    ok := fun _ _ t => (groupsIn t).all (fun g =>
      let per := (tget 0 t (rGrp g + 0x10)).toNat
      inR per 1000000 10000000000 && cfl t (rGrp g) 45 34 ≤ 4000 && cfl t (rGrp g) 45 34 * 1000 < per / 2 && cfl t (rGrp g) 62 61 ≠ 3) },
  { id := 0x1807, reads := rdA (bSEN + 0x4000) 0x40 8 [0], low := bSEN + 0x4000
    ok := fun _ _ t => ((groupsIn t).map (fun g => cfl t (rGrp g) 57 50)).eraseDups.length = (groupsIn t).length },
  { id := 0x1808, reads := rdA (bSEN + 0x6000) 0x20 4 [0, 8], low := bSEN + 0x6000
    ok := fun _ _ t => (trigsIn t).all (fun i =>
      let per := (tget 0 t (bSEN + 0x6008 + 0x20 * i)).toNat
      per ≥ 1000 && cfl t (bSEN + 0x6000 + 0x20 * i) 31 0 < per) },
  { id := 0x1809, reads := fun x => rdA (bSEN + 0x2000) 0x40 32 [0] x || rdA (bSEN + 0x4000) 0x40 8 [0, 8, 0x10, 0x18] x, low := bSEN + 0x2000
    ok := fun _ c t =>
      (layersIn t).all (fun l => !cbt c (rLayer l) 63 || sameBits c t (rLayer l) 62 20) &&
      (groupsIn t).all (fun g => !cbt c (rGrp g) 63 ||
        (sameBits c t (rGrp g) 60 50 && sameReg c t (rGrp g + 8) && sameReg c t (rGrp g + 0x10) && sameReg c t (rGrp g + 0x18))) }]

/-- XCH, STR and LDG checks (R553, R271, R297, R321). -/
def checksStrLdg : List Check := [
  { id := 0x1A01, reads := rd1 (bXCH + 0x10), low := bXCH + 0x10
    ok := fun _ _ t => inHbmOrDepot (64 * cfl t (bXCH + 0x10) 43 6) (64 * cfl t (bXCH + 0x10) 60 44) },
  { id := 0x1C01, reads := rd1 (bSTR + 0x10), low := bSTR + 0x10
    ok := fun _ _ t => inHbmOrDepot (64 * cfl t (bSTR + 0x10) 43 6) (64 * cfl t (bSTR + 0x10) 60 44) },
  { id := 0x1C02, reads := rd1 (bSTR + 0x20), low := bSTR + 0x20
    ok := fun _ _ t => cfl t (bSTR + 0x20) 31 16 ≠ 0 && inR (cfl t (bSTR + 0x20) 3 0) 1 8 },
  { id := 0x1C03, reads := rdR (bSTR + 0x3000) (bSTR + 0x31B0), low := bSTR + 0x3000
    ok := fun _ _ t => (List.range 54).all (fun n => cfl t (bSTR + 0x3000 + 8 * n) 10 0 % 64 = 0 && cfl t (bSTR + 0x3000 + 8 * n) 10 0 ≤ 1024) },
  { id := 0x1C04, reads := rdR (bSTR + 0x3000) (bSTR + 0x31B0), low := bSTR + 0x3000
    ok := fun _ _ t => (List.range 54).all (fun n =>
      cfl t (bSTR + 0x3000 + 8 * n) 10 0 = cfl t (bSTR + 0x3000 + 8 * kindBay (bayKind n)) 10 0) },
  { id := 0x1E01, reads := rdP [0], low := rPipe 0
    ok := fun _ _ t => (pipesIn t).all (fun p => cfl t (rPipe p) 55 40 + cfl t (rPipe p) 39 36 ≤ 65536) },
  { id := 0x1E02, reads := rdP [0], low := rPipe 0
    ok := fun _ _ t => (pipesIn t).all (fun p => cfl t (rPipe p) 39 36 = 0 || cfl t (rPipe p) 62 61 = 0) },
  { id := 0x1E03, reads := rdP [0, 0x18], low := rPipe 0
    ok := fun _ _ t => (pipesIn t).all (fun p =>
      cfl t (rPipe p + 0x18) 63 44 % (cfl t (rPipe p) 55 40 + cfl t (rPipe p) 39 36) = 0) },
  { id := 0x1E04, reads := rdP [0, 0x28], low := rPipe 0
    ok := fun _ _ t => (pipesIn t).all (fun p =>
      cfl t (rPipe p + 0x28) 15 0 < cfl t (rPipe p + 0x28) 31 16 && cfl t (rPipe p) 35 28 ≠ 0) },
  { id := 0x1E05, reads := fun x => x = bLDG + 0x18 || x = bLDG + 0x20 || rdP [0, 8, 0x10, 0x18, 0x30] x, low := bLDG + 0x18
    ok := fun _ _ t => (pipesIn t).all (fun p =>
        mappedRange (cfl t (rPipe p + 8) 43 0) (4 * cfl t (rPipe p + 0x18) 63 44) &&
        mappedRange (cfl t (rPipe p + 0x10) 43 0) (16 * cfl t (rPipe p + 0x18) 43 27) &&
        mappedRange (16 * cfl t (rPipe p + 0x30) 43 4) (16 * 2 ^ cfl t (rPipe p + 0x30) 63 59)) &&
      ((pipesIn t).isEmpty ||
        (inR (cfl t (bLDG + 0x20) 20 16) 10 24 && cfl t (bLDG + 0x20) 15 0 ≠ 0 &&
         (cbt t (bLDG + 0x18) 0 || mappedRange (32 * cfl t (bLDG + 0x18) 43 5) (32 * 2 ^ cfl t (bLDG + 0x20) 20 16)))) },
  { id := 0x1E06, reads := fun x => rdR bLDG (bLDG + 0x28) x || rdP [0, 8, 0x10, 0x18, 0x20, 0x28, 0x30] x, low := bLDG
    ok := fun _ c t =>
      let both := (pipesIn t).filter (fun p => cbt c (rPipe p) 63)
      both.all (fun p => sameBits c t (rPipe p) 63 28 &&
        [8, 0x10, 0x18, 0x20, 0x28, 0x30].all (fun o => sameReg c t (rPipe p + o))) &&
      (both.isEmpty || (sameReg c t bLDG && sameReg c t (bLDG + 8))) &&
      (((pipesIn t).isEmpty && (pipesIn c).isEmpty) || (sameReg c t (bLDG + 0x18) && sameBits c t (bLDG + 0x20) 20 16)) }]

/-- NGL checks of links (R584) and of the fabric (R599, R613). -/
def checksNgl : List Check := [
  { id := 0x2001, reads := rdA (bNGL + 0x1000) 0x100 16 [0], low := bNGL + 0x1000
    ok := fun _ _ t => (portsIn t).all (fun p =>
      let cs := [cfl t (rPort p) 47 38, cfl t (rPort p) 37 28, cfl t (rPort p) 27 18, cfl t (rPort p) 17 8]
      cs.all (· ≥ 8) && cs.sum ≤ 1024) },
  { id := 0x2002, reads := fun x => x = bNGL + 0x10 || rdA (bNGL + 0x1000) 0x100 16 [0, 8] x, low := bNGL + 0x10
    ok := fun _ _ t => (portsIn t).all (fun p => inR (cfl t (rPort p) 55 48) 50 240 &&
        cfl t (rPort p + 8) 11 8 ≠ 0 && cfl t (rPort p + 8) 7 4 ≠ 0 && cfl t (rPort p + 8) 3 0 ≠ 0) &&
      ((portsIn t).isEmpty || cfl t (bNGL + 0x10) 31 0 ≠ 0) },
  { id := 0x2003, reads := rdA (bNGL + 0x1000) 0x100 16 [0], low := bNGL + 0x1000
    ok := fun _ c t => (portsIn t).all (fun p => !cbt c (rPort p) 63 || sameReg c t (rPort p)) },
  { id := 0x2004, reads := fun x => x = bNGL + 0x8000 || x = bNGL + 0x8008 || rdA (bNGL + 0x1000) 0x100 16 [0] x, low := bNGL + 0x1000
    ok := fun _ c t => (sameReg c t (bNGL + 0x8000) || ((portsIn t).isEmpty && (portsIn c).isEmpty)) &&
      mappedRange (64 * cfl t (bNGL + 0x8008) 43 6) (2 * 18432) },
  { id := 0x2005, reads := rdR (rDom 0) (rDom 8), low := rDom 0
    ok := fun _ _ t =>
      let role := cfl t (rDom 0) 63 62
      let mc := cfl t (rDom 1) 63 52
      let ec := cfl t (rDom 1) 35 21
      role = 0 || (inR mc 1 2048 && ec ≤ 16384 && (role ≠ 2 || ec ≥ 1) && cfl t (rDom 1) 51 36 ≥ 10 &&
        cfl t (rDom 0) 15 0 ≥ 4 * cfl t (rDom 1) 51 36 && cfl t (rDom 6) 63 32 ≥ 1 &&
        mappedRange (64 * cfl t (rDom 2) 43 6) (2 * mc) && mappedRange (64 * cfl t (rDom 3) 43 6) (2 * ec) &&
        mappedRange (128 * cfl t (rDom 7) 43 7) (128 * mc)) },
  { id := 0x2006, reads := rd1 (rDom 0), low := rDom 0
    ok := fun s c t => sameReg c t (rDom 0) || cfl t (rDom 0) 63 62 ≠ 2 || !s.ngl.dom.rootHeld ||
      s.ngl.dom.heldTerm < cfl t (rDom 0) 31 16 ||
      (s.ngl.dom.heldTerm = cfl t (rDom 0) 31 16 && s.ngl.dom.heldRoot = cfl t (bNGL + 0x8000) 10 0) },
  { id := 0x2007, reads := rdR (rDom 0) (rDom 8), low := rDom 0
    ok := fun _ c t => cfl c (rDom 0) 63 62 = 0 ||
      (sameBits c t (rDom 0) 47 32 && sameBits c t (rDom 0) 15 0 &&
       (sameBits c t (rDom 0) 31 16 || cfl t (rDom 0) 63 62 = 2) &&
       [1, 2, 3, 4, 5, 7].all (fun i => sameReg c t (rDom i)) && sameBits c t (rDom 6) 63 32) },
  { id := 0x2008, reads := rdR (bNGL + 0xA000) (bNGL + 0xA100), low := bNGL + 0xA000
    ok := fun _ _ t =>
      let k := (servesIn t).map (fun i => cfl t (bNGL + 0xA000 + 0x10 * i) 43 0)
      k.eraseDups.length = k.length && (servesIn t).all (fun i => mappedRange (cfl t (bNGL + 0xA008 + 0x10 * i) 43 0) 1) },
  { id := 0x2009, reads := fun x => rdR (bNGL + 0x9000) (bNGL + 0x9800) x || rdP [0] x, low := rPipe 0
    ok := fun _ c t => (List.range 256).all (fun p =>
      let a := bNGL + 0x9000 + 8 * p
      (!cbt t (rPipe p) 63 || !cbt t a 63 || cfl t a 31 0 ≥ 1) &&
      (sameReg c t a || (!cbt c (rPipe p) 63 && !cbt t (rPipe p) 63))) }]

/-- HIF, ETH, MEM and TEL checks (R636, R344, R213, R683). -/
def checksRest : List Check := [
  { id := 0x2201, reads := rd1 (bHIF + 0x20), low := bHIF + 0x20
    ok := fun _ _ t =>
      let l := cfl t (bHIF + 0x20) 63 56
      let b := 2 ^ 28 * cfl t (bHIF + 0x20) 43 28
      l = 0 || (inR l 28 36 && b % 2 ^ l = 0 && inHbm b (2 ^ l)) },
  { id := 0x2202, reads := rd1 (bHIF + 0x20), low := bHIF + 0x20
    ok := fun s c t => !(s.hif.mse || s.hif.hdmCommitted) || sameReg c t (bHIF + 0x20) },
  { id := 0x2203, reads := rdR (bHIF + 0x100) (bHIF + 0x180), low := bHIF + 0x100
    ok := fun _ _ t =>
      let rs := (rangesIn t).map (fun r => (cfl t (bHIF + 0x100 + 0x10 * r) 63 12, cfl t (bHIF + 0x108 + 0x10 * r) 63 12))
      rs.all (fun r => r.1 ≤ r.2) && (rs.zipIdx).all (fun x => (rs.zipIdx).all (fun y => x.2 = y.2 || x.1.2 < y.1.1 || y.1.2 < x.1.1)) },
  { id := 0x2301, reads := rdR bETH (bETH + 0x80), low := bETH
    ok := fun _ _ t => (ethIn t).all (fun x =>
      let bytes (a : Nat) : List Byte := leBytes 8 (tget 0 t (rEth x + a)).toNat ++ leBytes 8 (tget 0 t (rEth x + a + 8)).toNat
      let ip := bytes 0x10
      let gw := bytes 0x20
      let mapped (b : List Byte) : Bool := (b.take 10).all (· = 0) && (b.drop 10 |>.take 2).all (· = 0xFF)
      let pl := cfl t (rEth x + 8) 23 16
      let num (b : List Byte) : Nat := b.foldl (fun n y => 256 * n + y.toNat) 0
      pl ≤ 128 && (!mapped ip || pl ≥ 96) &&
      (!cbt t (rEth x) 56 || (mapped gw = mapped ip && num gw / 2 ^ (128 - pl) = num ip / 2 ^ (128 - pl)))) },
  { id := 0x2401, reads := rd1 (bMEM + 0x10), low := bMEM + 0x10
    ok := fun _ _ t => inHbmOrDepot (32 * cfl t (bMEM + 0x10) 43 5) (32 * cfl t (bMEM + 0x10) 60 44) },
  { id := 0x2402, reads := rd1 (bMEM + 0x20), low := bMEM + 0x20
    ok := fun _ _ t => !cbt t (bMEM + 0x20) 0 || inR (cfl t (bMEM + 0x20) 15 8) 1 168 },
  { id := 0x2601, reads := fun x => x = bTEL + 0x100 || x = bTEL + 0x200, low := bTEL + 0x100
    ok := fun _ _ t => cfl t (bTEL + 0x100) 55 36 ≤ 524287 && cfl t (bTEL + 0x200) 15 0 ≠ 0 &&
      (!cbt t (bTEL + 0x100) 23 || unitAssigned (cfl t (bTEL + 0x100) 35 24)) }]

/-- Every check that runs after 0x0100, in ascending id (R148); 0x0101 is inserted by `firstFail`. -/
def checksAfter : List Check :=
  checksTimeout ++ checksClkPwr ++ checksIng ++ checksGth ++ checksPak ++ checksSen ++ checksStrLdg ++ checksNgl ++ checksRest

/-- The register a word belongs to, by its offset: a register wider than 64 bits is named by its first word (R685, R686). -/
def regOf (a : Nat) : Nat :=
  let wide : List (Nat × Nat × Nat) := [(bGLB + 0x10000, 0x20, 4096), (bING + 0x1000, 0x20, 64), (bGTH + 0x10000, 0x20, 256),
    (bGTH + 0x40000, 0x20, 4096), (bPAK + 0x10000, 0x40, 256), (bSEN + 0x4000, 0x40, 8), (bSEN + 0x6000, 0x20, 4),
    (bLDG + 0x10000, 0x40, 256), (bNGL + 0x8100, 0x40, 1), (bNGL + 0xA000, 0x10, 16), (bHIF + 0x100, 0x10, 8), (bETH, 0x40, 2)]
  match wide.find? (fun r => r.1 ≤ a && a < r.1 + r.2.1 * r.2.2) with
  | some r => a - (a - r.1) % r.2.1
  | none => a

/-- The register STG_REJECT names for a failed check (R148): a staged register of which the check reads a word. -/
def State.namedReg (s : State) (k : Check) : Nat :=
  regOf (((s.stagedRegs.filter (fun a => (List.range 8).any (fun i =>
    k.reads (regOf a + 8 * i) && regOf (regOf a + 8 * i) = regOf a))).head?).getD k.low)

/-- The first failing check and the register it names (R148, R149); none where every check passes. -/
def State.firstFail (s : State) : Option (Nat × Nat) :=
  let c := s.cfgTbl s.gen
  let t := s.newCfg
  if s.stg.overflow then some (0x0100, regOf s.stg.ovReg)
  else match checksGlb.find? (fun k => !k.ok s c t) with
    | some k => some (k.id, s.namedReg k)
    | none => match s.stagedRegs.find? (fun a => !fieldsOk t a) with
      | some a => some (0x0101, regOf a)
      | none => (checksAfter.find? (fun k => !k.ok s c t)).map (fun k => (k.id, s.namedReg k))

/-! ### Generations in force (R146) -/

/-- Generations that are current or that an uncompleted command carries stay in force. -/
def State.retireGens (s : State) : State :=
  match s.stg.gens with
  | [] => s
  | g :: rest =>
    { s with stg := { s.stg with gens := g :: rest.filter (fun e => s.taskList.any (fun x => x.2.gen = e.1)) } }

end Sys2Proof.Machine
end

