-- ==== Sys2Proof/Machine/Stg.lean ====
section
/-! DEFINITION. Staging, discarding and the course of a commit up to its apply instant (chapter 6). -/

namespace Sys2Proof.Machine

/-- R137 to R140: a 32-bit write to one half of an ST register. -/
def execStagedWrite (p : Path) (off v : Nat) (s : State) : Host.Outcome State Fault Refusal :=
  if off % 4 = 0 && s.wgate p (off - off % 8) then .next (s.stageHalf p off v) else .next s

/-- A COMMIT trace record (R664). -/
def State.commitTrace (s : State) (res : StgResult) (check : Nat) : State :=
  s.trace 0x08 uSTG (leBytes 1 res.ctorIdx ++ leBytes 1 0 ++ leBytes 2 check ++ leBytes 4 s.gen)

/-- A write of 1 to STG_COMMIT.go (R139 to R141). -/
def State.commitGo (s : State) (p : Path) : State :=
  if s.stg.state ≠ .idle then s.setBits rStgStatus fDropped
  else if s.stg.owner.isSome && s.stg.owner ≠ some p then s.setBits rStgStatus fForeign
  else { s with stg := { s.stg with state := .check, result := .none } }

def execStgCommit (p : Path) (s : State) : Host.Outcome State Fault Refusal :=
  if s.wgate p bSTG then .next (s.commitGo p) else .next s

/-- A write of 1 to STG_DISCARD.discard (R139, R140, R153). -/
def State.discardGo (s : State) (p : Path) : State :=
  if s.stg.state ≠ .idle then s.setBits rStgStatus fDropped
  else if s.stg.owner.isSome && s.stg.owner ≠ some p then s.setBits rStgStatus fForeign
  else s.stgRelease

def execStgDiscard (p : Path) (s : State) : Host.Outcome State Fault Refusal :=
  if s.wgate p (bSTG + 8) then .next (s.discardGo p) else .next s

/-- A commit that ends without an apply instant counts as rejected and keeps its set (R139, R155). -/
def State.commitEnd (s : State) (r : StgResult) (check : Nat) : State :=
  ({ s with stg := { s.stg with state := .idle, result := r } }.err (bSTG + 0x48)).commitTrace r check

/-- R141, R142, R148: CHECK ends. With four generations in force the commit waits, unless commit_wait_us is 0. -/
def execCommitCheckEnd (s : State) : Host.Outcome State Fault Refusal :=
  if s.stg.state ≠ .check then .next s
  else match (if s.stg.set.isEmpty && !s.stg.overflow then none else s.firstFail) with
    | some (id, a) =>
      let s := { s with stg := { s.stg with rejId := id, rejOff := a } }
      .next (s.commitEnd (if id = 0x0100 then .overflow else .rejected) id)
    | none =>
      if s.stg.gens.length < 4 then .next { s with stg := { s.stg with state := .apply } }
      else
        let lim := wfld (s.reg (bSTG + 0x30)) 15 0
        if lim = 0 then .next (s.commitEnd .busy 0)
        else .next { s with stg := { s.stg with state := .wait, waitLimit := lim } }

/-- R141: the oldest generation has retired. -/
def execCommitWaitEnd (s : State) : Host.Outcome State Fault Refusal :=
  if s.stg.state = .wait && s.stg.gens.length < 4 then .next { s with stg := { s.stg with state := .apply } } else .next s

/-- R141: WAIT has lasted longer than its limit. -/
def execCommitWaitTimeout (s : State) : Host.Outcome State Fault Refusal :=
  if s.stg.state = .wait then .next (s.commitEnd .busy 0) else .next s

end Sys2Proof.Machine
end

