-- ==== Sys2Proof/Machine/EthOps.lean ====
section
/-! DEFINITION. Ethernet ports, address resolution and NVMe-oF connections: what their rows share (R331 to R336). -/

namespace Sys2Proof.Machine

/-- Bytes of the active configuration from a register on. -/
def State.cfgBytes (s : State) (a n : Nat) : List Byte :=
  (List.range n).map (fun i => BitVec.ofNat 8 ((s.cfg (a + i / 8 * 8)).toNat / 2 ^ (8 * (i % 8))))

/-- An IP address as a 128-bit number: its first byte is the most significant. -/
def ipNum (b : List Byte) : Nat := b.foldl (fun n y => 256 * n + y.toNat) 0

def State.ethPort (s : State) (x : Nat) : EthPort := tget {} s.eth.port x
def State.setEthPort (s : State) (x : Nat) (p : EthPort) : State := { s with eth := { s.eth with port := tset {} s.eth.port x p } }
def State.conn (s : State) (c : Nat) : Conn := tget {} s.eth.conn c
def State.setConn (s : State) (c : Nat) (x : Conn) : State := { s with eth := { s.eth with conn := tset {} s.eth.conn c x } }

/-- A port can run: enabled, P2 ON, not fenced, its clock present (R60, R80, R332). -/
def State.ethCan (s : State) (x : Nat) : Bool :=
  x < 2 && s.mainRunning && s.cb (rEth x) 48 && s.domOn 2 && !s.fencedU (uEth x) && !tget false s.clk.lost 2 && s.flt.state ≠ .stopped

/-- A frame of the paused priority waits; any other leaves (R332). -/
def State.ethTx (s : State) (x : Nat) (kind : String) (data : List Byte) : State :=
  let p := s.ethPort x
  if p.paused then s.setEthPort x { p with held := p.held ++ [(kind, data)] } else s.emit (.eth x kind data)

/-- Address resolution of an address: ARP for an IPv4-mapped one, Neighbor Discovery otherwise (R333). -/
def isV4 (ip : Nat) : Bool := ip / 2 ^ 32 = 0xFFFF

/-- The port's own address. -/
def State.ownIp (s : State) (x : Nat) : Nat := ipNum (s.cfgBytes (rEth x + 0x10) 16)

/-- The next hop of a port toward an address (R333). -/
def State.nextHop (s : State) (x ip : Nat) : Option Nat :=
  let pl := s.cf (rEth x + 8) 23 16
  if ip / 2 ^ (128 - pl) = s.ownIp x / 2 ^ (128 - pl) then some ip
  else if s.cb (rEth x) 56 then some (ipNum (s.cfgBytes (rEth x + 0x20) 16))
  else none

/-- The address of a target, and the ports its mask names that are up (R341). -/
def State.tgtIp (s : State) (t : Nat) : Nat := ipNum (s.cfgBytes (rTgt t) 16)
def State.tgtOn (s : State) (t : Nat) : Bool := t < 64 && s.cb (rTgt t + 0x10) 16
def State.tgtPorts (s : State) (t : Nat) : List Nat :=
  [0, 1].filter (fun x => s.cb (rTgt t + 0x10) (17 + x) && (s.ethPort x).up)

/-- Next hop of a connection. -/
def State.connHop (s : State) (c : Nat) : Option Nat := s.nextHop (c % 2) (s.tgtIp (c / 2))

/-- A resolution entry, with room for it among 128: an entry the manual does not choose leaves when all are taken (R333). -/
def State.arpPut (s : State) (x hop : Nat) (e : ArpEntry) : State :=
  let p := s.ethPort x
  if (tget none p.arp hop).isNone && p.arp.length ≥ 128 then
    let v := (p.arp.map Prod.fst).getD (Config.freeValue s.free 0 % 128) 0
    { s with free := s.free + 1 }.setEthPort x { p with arp := tset none (tset none p.arp v none) hop (some e) }
  else s.setEthPort x { p with arp := tset none p.arp hop (some e) }

/-- Begin to connect: at once where the next hop is resolved, after its resolution otherwise; without a next hop the
attempt fails and the connection stays closed (R333, R335). -/
def State.connStart (s : State) (c : Nat) : State :=
  let k := s.conn c
  if k.state ≠ .none then s
  else match s.connHop c with
    | none => s
    | some hop =>
      match tget none (s.ethPort (c % 2)).arp hop with
      | some e =>
        if e.mac.isSome then (s.setConn c { k with state := .connecting }).ethTx (c % 2) "connect" (leBytes 1 (c / 2))
        else s.setConn c { k with state := .resolving }
      | none => (s.setConn c { k with state := .resolving }).arpPut (c % 2) hop {}

/-- A resolution request for a next hop. -/
def State.arpAsk (s : State) (x hop : Nat) : State :=
  s.emit (.eth x (if isV4 hop then "arp_request" else "neighbor_solicitation") ((leBytes 16 hop).reverse))

/-- Connections of a port that wait for a next hop. -/
def State.connsOn (s : State) (x hop : Nat) : List Nat :=
  (s.eth.conn.map Prod.fst).filter (fun c => c % 2 = x && s.connHop c = some hop)

/-- A command identifier not in use on a connection: none of an outstanding or a quarantined Read (R336). -/
def Conn.freeCid (k : Conn) : Nat :=
  ((List.range (k.reads.length + 1)).find? (fun i => (tget none k.reads i).isNone)).getD 0

/-- A SEND on a connection: it awaits its acknowledgement (R334). -/
def State.roceSend (s : State) (c : Nat) (kind : String) (data : List Byte) : State :=
  let k := s.conn c
  (s.setConn c { k with txPsn := (k.txPsn + 1) % 2 ^ 24, unacked := k.unacked + 1 }).ethTx (c % 2) kind data

/-- ETH_RX_DISCARD_x (R31, R342). -/
def State.ethDiscard (s : State) (x : Nat) : State := s.bump (bETH + 0x100 + 8 * x) 1

end Sys2Proof.Machine
end

