-- ==== Sys2Proof/Machine/Operands.lean ====
section
/-!
DEFINITION. Number formats and their arithmetic: the values of R415, conversions of R417, and binary32 operations
rounded to nearest even (R251, R404, R416).
-/

namespace Sys2Proof.Machine

/-- A value of a float format: a finite value is ± m × 2^e. -/
inductive Num where
  | nan
  | inf (neg : Bool)
  | fin (neg : Bool) (m : Nat) (e : Int)
  deriving DecidableEq, Repr

/-- A binary float format: exponent bits, fraction bits, bias; `e4m3` has no infinity and one NaN per sign (R415). -/
structure FFmt where
  eb : Nat
  fb : Nat
  bias : Int
  e4m3 : Bool := false
  /-- Canonical NaN (R416, R417). -/
  nan : Nat
  deriving DecidableEq, Repr

def fE4M3 : FFmt := { eb := 4, fb := 3, bias := 7, e4m3 := true, nan := 0x7F }
def fE5M2 : FFmt := { eb := 5, fb := 2, bias := 15, nan := 0x7E }
def fBF16 : FFmt := { eb := 8, fb := 7, bias := 127, nan := 0x7FC0 }
def fF16 : FFmt := { eb := 5, fb := 10, bias := 15, nan := 0x7E00 }
def fF32 : FFmt := { eb := 8, fb := 23, bias := 127, nan := 0x7FC00000 }

/-- Bytes of a value. -/
def FFmt.bytes (f : FFmt) : Nat := (1 + f.eb + f.fb) / 8

/-- The value of an encoding (R415). -/
def FFmt.dec (f : FFmt) (w : Nat) : Num :=
  let s := bit w (f.eb + f.fb)
  let e := fld w (f.eb + f.fb - 1) f.fb
  let m := w % 2 ^ f.fb
  if e = 2 ^ f.eb - 1 && (if f.e4m3 then m = 2 ^ f.fb - 1 else m ≠ 0) then .nan
  else if e = 2 ^ f.eb - 1 && !f.e4m3 then .inf s
  else if e = 0 then .fin s m (1 - f.bias - f.fb)
  else .fin s (m + 2 ^ f.fb) (e - f.bias - f.fb)

/-- A magnitude m × 2^e moved to exponent `q`, rounded to nearest even. -/
def roundAt (m : Nat) (e q : Int) : Nat :=
  if q ≤ e then m * 2 ^ (e - q).toNat
  else
    let d := (q - e).toNat
    let lo := m % 2 ^ d
    let hi := m / 2 ^ d
    if 2 * lo > 2 ^ d ∨ (2 * lo = 2 ^ d ∧ hi % 2 = 1) then hi + 1 else hi

/-- The largest finite encoding without its sign. -/
def FFmt.maxFin (f : FFmt) : Nat := if f.e4m3 then 0x7E else (2 ^ f.eb - 1) * 2 ^ f.fb - 1

/-- Encode a value rounded to nearest even. `sat`: a finite value beyond the largest gives the largest (R417);
otherwise it gives infinity. -/
def FFmt.enc (f : FFmt) (sat : Bool) (x : Num) : Nat :=
  let sb (n : Bool) : Nat := putB n (f.eb + f.fb)
  match x with
  | .nan => f.nan
  | .inf n => sb n + (if f.e4m3 then f.maxFin else (2 ^ f.eb - 1) * 2 ^ f.fb)
  | .fin n m e =>
    if m = 0 then sb n
    else
      let q := max (e + (Nat.log2 m : Int) - f.fb) (1 - f.bias - f.fb)
      let r := roundAt m e q
      let (r, q) := if r = 2 ^ (f.fb + 1) then (2 ^ f.fb, q + 1) else (r, q)
      let ex := if r < 2 ^ f.fb then 0 else (q + f.bias + f.fb).toNat
      let w := ex * 2 ^ f.fb + r % 2 ^ f.fb
      if w ≤ f.maxFin then sb n + w
      else if sat || f.e4m3 then sb n + f.maxFin
      else sb n + (2 ^ f.eb - 1) * 2 ^ f.fb

/-! ### Exact operations -/

def Num.neg : Num → Num
  | .nan => .nan
  | .inf s => .inf (!s)
  | .fin s m e => .fin (!s) m e

/-- The exact sum; a zero sum of values of opposite sign is +0. -/
def Num.add : Num → Num → Num
  | .nan, _ => .nan
  | _, .nan => .nan
  | .inf s, .inf t => if s = t then .inf s else .nan
  | .inf s, _ => .inf s
  | _, .inf s => .inf s
  | .fin s m e, .fin t n f =>
    let q := min e f
    let a : Int := (m * 2 ^ (e - q).toNat : Nat)
    let b : Int := (n * 2 ^ (f - q).toNat : Nat)
    let x := (if s then -a else a) + (if t then -b else b)
    if x = 0 then .fin (s && t) 0 q else .fin (decide (x < 0)) x.natAbs q

/-- The exact product; zero times infinity is a NaN. -/
def Num.mul : Num → Num → Num
  | .nan, _ => .nan
  | _, .nan => .nan
  | .inf s, .inf t => .inf (s != t)
  | .inf s, .fin t n _ => if n = 0 then .nan else .inf (s != t)
  | .fin s m _, .inf t => if m = 0 then .nan else .inf (s != t)
  | .fin s m e, .fin t n f => .fin (s != t) (m * n) (e + f)

/-- A quotient with 64 quotient bits and a sticky bit, enough for one rounding to binary32. -/
def Num.div : Num → Num → Num
  | .nan, _ => .nan
  | _, .nan => .nan
  | .inf _, .inf _ => .nan
  | .inf s, .fin t _ _ => .inf (s != t)
  | .fin s _ _, .inf t => .fin (s != t) 0 0
  | .fin s m e, .fin t n f =>
    if n = 0 then (if m = 0 then .nan else .inf (s != t))
    else
      let k := Nat.log2 n + 64
      let a := m * 2 ^ k
      .fin (s != t) (2 * (a / n) + (if a % n = 0 then 0 else 1)) (e - f - k - 1)

/-- An integer as a value. -/
def Num.ofInt (i : Int) : Num := .fin (decide (i < 0)) i.natAbs 0

/-- Order of two values; none where one is a NaN. -/
def Num.lt? (a b : Num) : Option Bool :=
  match a, b with
  | .nan, _ => none
  | _, .nan => none
  | .inf s, .inf t => some (s && !t)
  | .inf s, _ => some s
  | _, .inf t => some (!t)
  | x, y => match x.add y.neg with | .fin s m _ => some (s && m ≠ 0) | _ => some false

/-! ### binary32 arithmetic on encodings (R404, R416) -/

def f32 (w : Nat) : Num := fF32.dec w
def fAdd (a b : Nat) : Nat := fF32.enc false ((f32 a).add (f32 b))
def fSub (a b : Nat) : Nat := fF32.enc false ((f32 a).add (f32 b).neg)
def fMul (a b : Nat) : Nat := fF32.enc false ((f32 a).mul (f32 b))
def fDiv (a b : Nat) : Nat := fF32.enc false ((f32 a).div (f32 b))
def fOfInt (i : Int) : Nat := fF32.enc false (Num.ofInt i)
def fIsNan (a : Nat) : Bool := f32 a = .nan
def fFinite (a : Nat) : Bool := match f32 a with | .fin _ _ _ => true | _ => false
/-- a < b; false where either is a NaN. -/
def fLt (a b : Nat) : Bool := (Num.lt? (f32 a) (f32 b)).getD false
def fMax (a b : Nat) : Nat := if fLt a b then b else a
def fMin (a b : Nat) : Nat := if fLt b a then b else a
/-- binary32 1.0. -/
def f1 : Nat := 0x3F800000
/-- The sign bit of an encoding inverted. -/
def fNeg (a : Nat) : Nat := if a < 2 ^ 31 then a + 2 ^ 31 else a - 2 ^ 31
/-- The fixed functions of R404: any NaN is the canonical one. -/
def fFn (k a : Nat) : Nat := (Config.fixedFn k (BitVec.ofNat 32 a)).toNat
def fSqrt : Nat → Nat := fFn 0
def fExp : Nat → Nat := fFn 1
def fLn : Nat → Nat := fFn 2
def fSin : Nat → Nat := fFn 3
def fCos : Nat → Nat := fFn 4
def fTanh : Nat → Nat := fFn 5
def fPhi : Nat → Nat := fFn 6

/-- Round a value to the nearest integer, ties to even; none where it is not finite. -/
def Num.toInt : Num → Option Int
  | .fin s m e => let r : Int := (roundAt m e 0 : Nat); some (if s then -r else r)
  | _ => none

/-- Round down to an integer; none where it is not finite. -/
def Num.floor : Num → Option Int
  | .fin s m e =>
    let x : Int := if s then -(m : Int) else m
    some (if 0 ≤ e then x * 2 ^ e.toNat else x.fdiv (2 ^ (-e).toNat))
  | _ => none

/-- Clamp an integer to a range. -/
def clampI (lo hi x : Int) : Int := max lo (min hi x)

/-! ### Output conversion (R417) -/

/-- Bytes of an output format: INT8, E4M3, E5M2, BF16, binary16, binary32, ACC. -/
def outWidth (fmt : Nat) : Nat := [1, 1, 1, 2, 2, 4, 4].getD fmt 0

/-- Convert a binary32 encoding to an output format. -/
def outConv (fmt w : Nat) : Nat :=
  let x := f32 w
  match fmt with
  | 0 => match x with
    | .nan => 0
    | .inf s => if s then 0x80 else 0x7F
    | x => unsgn 8 (clampI (-128) 127 (x.toInt.getD 0))
  | 1 => fE4M3.enc true x
  | 2 => fE5M2.enc true x
  | 3 => fBF16.enc true x
  | 4 => fF16.enc true x
  | _ => w

/-- The binary32 encoding of an element of a tensor type 1 to 6: INT8, E4M3, E5M2, BF16, binary16, binary32 (R537). -/
def elemF32 (ty w : Nat) : Nat :=
  match ty with
  | 1 => fOfInt (sgn 8 (w % 256))
  | 2 => fF32.enc false (fE4M3.dec w)
  | 3 => fF32.enc false (fE5M2.dec w)
  | 4 => fF32.enc false (fBF16.dec w)
  | 5 => fF32.enc false (fF16.dec w)
  | _ => if fIsNan w then fF32.nan else w

/-! ### Accumulation (R251) -/

/-- Operand width of an acc_op in bytes. -/
def accWidth (op : Nat) : Nat := [1, 4, 8, 4, 2, 2].getD op 1

/-- One addition of an acc_op on encodings. -/
def accOne (op a b : Nat) : Nat :=
  match op with
  | 1 => (a + b) % 2 ^ 32
  | 2 => (a + b) % 2 ^ 64
  | 3 => fF32.enc false ((fF32.dec a).add (fF32.dec b))
  | 4 => fF16.enc false ((fF16.dec a).add (fF16.dec b))
  | 5 => fBF16.enc false ((fBF16.dec a).add (fBF16.dec b))
  | _ => b

/-- The bytes of a destination after an accumulating write. -/
def accBytes (op : Nat) (old new : List Byte) : List Byte :=
  let w := accWidth op
  (List.range (cdiv new.length w)).flatMap (fun i =>
    leBytes w (accOne op (leNat ((old.drop (w * i)).take w)) (leNat ((new.drop (w * i)).take w))))

/-! ### Azimuth (R433 to R436) -/

def rotl (v n : Nat) : Nat := (v * 2 ^ n + v / 2 ^ (32 - n)) % 2 ^ 32

/-- One round of the Azimuth function. -/
def azRound (k : List Nat) (x : List Nat) (r : Nat) : List Nat :=
  let m := 2 ^ 32
  let a := (k.getD (2 * r % 8) 0 + r * 0x6A5D39E1) % m
  let b := (k.getD ((2 * r + 1) % 8) 0 + r * 0x6A5D39E1) % m
  let t0 := x.getD 0 0 * 0xA3B195C5 % m
  let t1 := x.getD 1 0 * 0xE817FB2D % m
  let y2 := x.getD 2 0 ^^^ rotl ((t0 + a) % m) 7
  let y3 := x.getD 3 0 ^^^ rotl ((t1 + b) % m) 19
  [y2, y3, (t0 + y3) % m, (t1 + y2) % m]

/-- The Azimuth block of a key and a counter (R433). -/
def azimuth (k c : List Nat) : List Nat :=
  let x := (List.range 4).map (fun i => c.getD i 0 ^^^ k.getD i 0)
  let x := (List.range 10).foldl (azRound k) x
  (List.range 4).map (fun i => (x.getD i 0 + k.getD (4 + i) 0) % 2 ^ 32)

/-- The key of a draw: run seed, sample key and operation slot (R434). -/
def azKey (seedLo seedHi key slot : Nat) : List Nat :=
  [seedLo % 2 ^ 32, seedLo / 2 ^ 32, seedHi % 2 ^ 32, seedHi / 2 ^ 32, key % 2 ^ 32, key / 2 ^ 32 % 2 ^ 32, slot % 2 ^ 16, 0x415A4D31]

end Sys2Proof.Machine
end

