-- ==== Sys2Proof/Machine/StreamOps.lean ====
section
/-!
DEFINITION. Streams: descriptors and their checks, elements, transfers, and the reads and writes that the engines make
through them (chapter 10).
-/

namespace Sys2Proof.Machine

/-! ### Descriptors (R245 to R247) -/

def Desc.cnt (d : Desc) (i : Nat) : Nat := d.counts.getD i 1
/-- The stride of a dimension; that of a dimension of count 1 is ignored (R246). -/
def Desc.stride (d : Desc) (i : Nat) : Int := if d.cnt i = 1 then 0 else d.strides.getD i 0
/-- Number of elements. -/
def Desc.total (d : Desc) : Nat := d.counts.foldl (· * ·) 1

/-- Mixed-radix digits of a number, lowest first. -/
def digits : List Nat → Nat → List Nat
  | [], _ => []
  | c :: cs, n => n % c :: digits cs (n / c)

/-- The number of a digit list. -/
def undigits : List Nat → List Nat → Nat
  | c :: cs, i :: is => i + c * undigits cs is
  | _, _ => 0

/-- Address of an element (R247). -/
def Desc.addr (d : Desc) (i : List Int) : Int :=
  (d.start : Int) + d.offset + ((List.range 5).map (fun k => i.getD k 0 * d.stride k)).foldl (· + ·) 0

/-- Address of the element with a linear index. -/
def Desc.at (d : Desc) (n : Nat) : Int := d.addr ((digits d.counts n).map Int.ofNat)

/-- The descriptor in 64 bytes of the table, with the offset of the reference (R246). A device address uses 44 bits (R7). -/
def Desc.ofBytes (b : List Byte) (off : Int) : Desc :=
  let f (a n : Nat) : Nat := leNat ((b.drop a).take n)
  let acc := f 0x32 1
  let ctl := f 0x33 1
  { start := if acc % 4 = 0 then f 0 8 % 2 ^ 44 else f 0 8
    strides := (List.range 5).map (fun k => sgn 40 (f (8 + 5 * k) 5))
    counts := (List.range 5).map (fun k => f (0x21 + 3 * k) 3)
    elem := f 0x30 2, space := acc % 4, write := bit acc 2
    subPrio := ctl % 4, deadline := bit ctl 2, noMerge := bit ctl 3, acc := ctl / 16
    endpoint := f 0x34 2, rateHint := f 0x36 2, rateCap := f 0x38 2, burstKib := f 0x3A 2
    offset := off }

/-- A reserved field of the descriptor is non-zero (R246, R248). -/
def descReserved (b : List Byte) : Bool :=
  let f (a n : Nat) : Nat := leNat ((b.drop a).take n)
  f 0x32 1 / 8 ≠ 0 || f 0x3C 4 ≠ 0 || (if f 0x32 1 % 4 = 2 then f 0x34 2 / 2 ^ 14 ≠ 0 else f 0x34 2 ≠ 0)

/-! ### References and their checks at issue (R245, R248, R249) -/

/-- A reference of a command body: what it names and what its place permits. -/
structure Ref where
  /-- Which reference of the stage this is. -/
  key : Nat
  /-- The command word that holds it. -/
  word : Nat
  id : Nat
  off : Int := 0
  rsv : Bool := false
  write : Bool := false
  /-- Spaces the place permits (R248, R252). -/
  spaces : List Nat := [0, 1]
  /-- Only counts and elem_bytes are used: a hand-off takes the place of the stream (R274, R428). -/
  shapeOnly : Bool := false
  /-- A scratch stream: its descriptor may give either direction. -/
  anyDir : Bool := false
  deriving DecidableEq, Repr

/-- A 64-bit value in two words of a body. -/
def w64 (ws : List Nat) (i : Nat) : Nat := ws.getD i 0 + 2 ^ 32 * ws.getD (i + 1) 0
def wd (ws : List Nat) (i hi lo : Nat) : Nat := fld (ws.getD i 0) hi lo
def wb (ws : List Nat) (i b : Nat) : Bool := bit (ws.getD i 0) b

/-- A full stream reference at words i and i + 1 (R245). -/
def refAt (ws : List Nat) (i : Nat) (write : Bool) (spaces : List Nat := [0, 1]) : Ref :=
  let v := w64 ws i
  { key := i, word := i, id := v % 2 ^ 16, off := sgn 44 (v / 2 ^ 20), rsv := fld v 19 16 ≠ 0, write := write, spaces := spaces }

/-- A reference by stream id alone, with offset 0. -/
def refId (key word id : Nat) (write : Bool) : Ref := { key := key, word := word, id := id, write := write }

/-- Address of stream descriptor `id` in a generation (R267). -/
def State.strDescAddr (s : State) (g id : Nat) : Nat := 64 * wfld (s.cfgAt g (bSTR + 0x10)) 43 6 + 64 * id

/-- A read of a 64-byte table entry at issue: FENCED, POISON, or its bytes (R227). -/
def State.issueRead (s : State) (a : Nat) : Except Nat (List Byte) :=
  if !s.reachable a then .error stFENCED
  else if s.mem.poisoned a then .error stPOISON
  else .ok (s.mem.rds a 64)

/-- The descriptor a reference names, with the checks of R248. -/
def State.refCheck (s : State) (g : Nat) (r : Ref) : Except (Nat × Nat) Desc :=
  if r.rsv || r.id ≥ wfld (s.cfgAt g (bSTR + 0x10)) 60 44 then .error (stINVALID, r.word)
  else match s.issueRead (s.strDescAddr g r.id) with
    | .error e => .error (e, r.word)
    | .ok b =>
      let d := Desc.ofBytes b r.off
      let w := accWidth d.acc
      let odd : Bool := d.elem % w ≠ 0 || ((d.start : Int) + d.offset) % w ≠ 0 ||
        (List.range 5).any (fun k => d.cnt k ≥ 2 && d.stride k % w ≠ 0)
      if r.shapeOnly then (if d.elem = 0 || descReserved b then .error (stINVALID, r.word) else .ok { d with acc := 0, write := false })
      else if d.elem = 0 || d.space = 3 || !r.spaces.contains d.space || (!r.anyDir && d.write ≠ r.write) || descReserved b ||
         (d.space = 2 && !d.write) || d.acc ≥ 6 || (d.acc ≠ 0 && (!d.write || d.space ≠ 0 || odd)) then
        .error (stINVALID, r.word)
      else .ok d

/-- A write stream that writes one place several times without accumulation (R249). -/
def Desc.aliases (d : Desc) : Bool :=
  d.write && d.acc = 0 && (List.range 5).any (fun k => d.cnt k ≥ 2 && d.strides.getD k 0 = 0)

/-- Alias-free: no two elements share a byte, by the test of R285. -/
def Desc.aliasFree (d : Desc) : Bool :=
  let ks := (List.range 5).filter (fun k => d.cnt k ≥ 2)
  let before (j k : Nat) : Bool :=
    (d.stride j).natAbs < (d.stride k).natAbs || ((d.stride j).natAbs = (d.stride k).natAbs && j < k)
  ks.all (fun k => (d.stride k).natAbs ≥
    d.elem + ((ks.filter (fun j => before j k)).map (fun j => (d.stride j).natAbs * (d.cnt j - 1))).sum)

/-! ### Pieces and transfers (R253, R254) -/

/-- One transfer: address, length, and how many pieces it holds. -/
structure Tr where
  addr : Int
  len : Nat
  pieces : Nat
  deriving DecidableEq, Repr

/-- An element cut at line boundaries. -/
def cutLines : Nat → Int → Nat → List (Int × Nat)
  | 0, _, _ => []
  | fuel + 1, a, n =>
    if n = 0 then []
    else
      let k := min n (64 - (a % 64).toNat)
      (a, k) :: cutLines fuel (a + k) (n - k)

/-- One more piece: it joins the last transfer or starts one (R254). The list runs newest first, with the last piece. -/
def addPiece (noMerge write : Bool) (acc : List Tr × Option (Int × Nat)) (p : Int × Nat) : List Tr × Option (Int × Nat) :=
  match acc with
  | (t :: ts, some (a, n)) =>
    if !noMerge && p.1 = a + n && p.1 / 512 = t.addr / 512 then
      ({ t with len := t.len + p.2, pieces := t.pieces + 1 } :: ts, some p)
    else if !noMerge && !write && p = (a, n) then ({ t with pieces := t.pieces + 1 } :: ts, some p)
    else ({ addr := p.1, len := p.2, pieces := 1 } :: t :: ts, some p)
  | (ts, _) => ({ addr := p.1, len := p.2, pieces := 1 } :: ts, some p)

/-- The transfers of a stream in order. -/
def Desc.transfers (d : Desc) : List Tr :=
  let ps := (List.range d.total).flatMap (fun n => cutLines (d.elem + 1) (d.at n) d.elem)
  (ps.foldl (addPiece d.noMerge d.write) ([], none)).1.reverse

/-- What stops an access of a stream to a range of bytes (R253). -/
def State.accErr (s : State) (space : Nat) (a : Int) (n : Nat) : Option Nat :=
  if n = 0 then none
  else if space = 1 then
    if a < 0 || a + n > 2 ^ 64 then some stADDR_RANGE else if !s.hostUp then some stFENCED else none
  else if space = 2 then none
  else if a < 0 || a + n > 2 ^ 44 then some stADDR_RANGE
  else
    let lines := (span (a.toNat / 64) ((a.toNat + n - 1) / 64 - a.toNat / 64 + 1)).map (· * 64)
    if lines.any (fun l => (region l).isNone) then some stADDR_RANGE
    else if lines.any (fun l => !s.reachable l) then some stFENCED
    else none

/-- Bytes of a stream's space. -/
def State.spaceRd (s : State) (space : Nat) (a : Int) (n : Nat) : List Byte :=
  if space = 1 then s.hostRds a.toNat n else s.mem.rds a.toNat n

/-- Poisoned lines among the bytes of a device-memory range. -/
def State.poisonIn (s : State) (space : Nat) (a : Int) (n : Nat) : List Nat :=
  if space ≠ 0 || n = 0 || a < 0 then []
  else (span (a.toNat / 64) ((a.toNat + n - 1) / 64 - a.toNat / 64 + 1)).filter (fun l => tget false s.mem.poison l)

/-- One element of a stream as an engine sees it: its bytes, what stops the read, and the poisoned lines it met. -/
structure El where
  data : List Byte
  err : Option Nat := none
  poison : List Nat := []
  /-- The bytes it was read from: space, address, length. -/
  src : List (Nat × Int × Nat) := []
  deriving DecidableEq, Repr

/-- Read `n` bytes of a stream's space. -/
def State.elAt (s : State) (space : Nat) (a : Int) (n : Nat) : El :=
  match s.accErr space a n with
  | some e => { data := List.replicate n 0, err := some e }
  | none => { data := s.spaceRd space a n, poison := s.poisonIn space a n, src := [(space, a, n)] }

/-- Read the element with an index; outside the counts, `zero` delivers zero bytes (R278). -/
def State.elRd (s : State) (d : Desc) (i : List Int) (zero : Bool := false) : El :=
  if zero && (List.range 5).any (fun k => i.getD k 0 < 0 || i.getD k 0 ≥ d.cnt k) then { data := List.replicate d.elem 0 }
  else s.elAt d.space (d.addr i) d.elem

/-- Read the element with a linear index. -/
def State.elN (s : State) (d : Desc) (n : Nat) : El := s.elAt d.space (d.at n) d.elem

/-- Every element of a stream in order. -/
def State.elAll (s : State) (d : Desc) : List El := (List.range d.total).map (s.elN d)

/-- Poisoned reads are counted (R212). -/
def State.countPoison (s : State) (n : Nat) : State := if n = 0 then s else s.bump (bMEM + 0x410) n

/-- A write an engine makes: address, bytes, and whether they carry poison. -/
structure Wr where
  addr : Int
  data : List Byte
  poison : Bool := false
  deriving DecidableEq, Repr

/-- A write cut at line boundaries. -/
def Wr.cut (w : Wr) : List Wr :=
  (cutLines (w.data.length + 1) w.addr w.data.length).map (fun p =>
    { w with addr := p.1, data := (w.data.drop (p.1 - w.addr).toNat).take p.2 })

/-- Consecutive pieces joined into transfers (R254). -/
def joinWr : List Wr → List Wr
  | [] => []
  | w :: ws =>
    match joinWr ws with
    | [] => [w]
    | v :: vs =>
      if w.addr + w.data.length = v.addr && w.poison = v.poison && w.addr / 512 = v.addr / 512 then
        { w with data := w.data ++ v.data } :: vs
      else w :: v :: vs

/-- One write to a stream's space, accumulating where acc_op is not zero (R251). -/
def State.wrOne (s : State) (g : Option Nat) (space acc : Nat) (w : Wr) : State :=
  let a := w.addr.toNat
  if space = 1 then s.hostStore a w.data g
  else
    let old := acc ≠ 0 && s.mem.anyPoison a w.data.length
    let b := if acc = 0 then w.data else accBytes acc (s.mem.rds a w.data.length) w.data
    let s := { s with mem := s.mem.storeP a b (old || w.poison) }
    if w.poison then s.setLastUe 5 a (s.ownerOf a) else s

/-- Writes in order up to the first that cannot be made; its status is the answer. -/
def State.wrAll (s : State) (g : Option Nat) (space acc : Nat) : List Wr → State × Option Nat
  | [] => (s, none)
  | w :: ws =>
    match s.accErr space w.addr w.data.length with
    | some e => (s, some e)
    | none => (s.wrOne g space acc w).wrAll g space acc ws

/-- Write elements of a stream, given by linear index and bytes. -/
def State.wrEls (s : State) (d : Desc) (l : List (Nat × List Byte × Bool)) (g : Option Nat := none) : State × Option Nat :=
  let ws := l.map (fun e => { addr := d.at e.1, data := e.2.1, poison := e.2.2 : Wr })
  s.wrAll g d.space d.acc (if d.acc ≠ 0 then ws else if d.noMerge then ws.flatMap Wr.cut else joinWr (ws.flatMap Wr.cut))

/-! ### Active streams (R248, R254 to R257) -/

/-- The active stream of a reference of a stage. -/
def State.strmOf (s : State) (t k key : Nat) : Option (Nat × Strm) :=
  (s.str.strm.filterMap (fun e => match e.2 with
    | some x => if x.task = t && x.stage = k && x.key = key then some (e.1, x) else none
    | none => none)).head?

/-- The descriptor a stage copied for a reference. -/
def State.descOf (s : State) (t k key : Nat) : Desc := ((s.strmOf t k key).map (fun e => e.2.desc)).getD {}

/-- A reference was named and copied. -/
def State.hasDesc (s : State) (t k key : Nat) : Bool := (s.strmOf t k key).isSome

/-- The queue's transfers presented and not yet ended (R255). -/
def State.qOut (s : State) (q : Nat) : Nat :=
  (s.str.xfer.filter (fun e => match e.2 with | some x => x.queue = q | none => false)).length +
  (s.str.strm.filter (fun e => match e.2 with
    | some x => x.presented.isSome && (match s.task x.task with | some y => y.queue = q | none => false)
    | none => false)).length

/-- Time-to-empty in ns for tte_source BUFFER (R258); the rate has 16 fraction bits. -/
def tteBuffer (level rate : Nat) : Nat :=
  if level = 0 then 0
  else if rate < 65536 then 16776960
  else min (level * 1000 * 65536 / rate) 16776960

/-- Time-to-empty of a stream (R258, R259); the deadline is one the owning command carries. -/
def State.tte (s : State) (x : Strm) : Nat :=
  if x.desc.deadline then
    let dl := match s.task x.task with | some y => y.deadline | none => 0
    if dl ≤ s.ns then 0 else min (dl - s.ns) 16776960
  else tteBuffer x.level x.rate

/-- Present the oldest transfer of a stream where the conditions of R255 and R256 hold. -/
def State.present (s : State) (n : Nat) : State :=
  match tget none s.str.strm n with
  | none => s
  | some x =>
    if x.presented.isSome || x.ended then s
    else match s.task x.task with
      | none => s
      | some y =>
        let ts := x.desc.transfers
        match ts[x.cursor]? with
        | none => { s with str := { s.str with strm := tset none s.str.strm n (some { x with ended := true }) } }
        | some tr =>
          let lim := wfld (s.cfgAt y.gen (rQ y.queue + 0x10)) 22 11 + 1
          let lead := s.cf (bSTR + 0x20) 47 32
          let held := (lead ≠ 0 && !x.desc.write && s.tte x > lead * 1000) ||
            (x.desc.rateCap ≠ 0 && x.bucket < tr.len) || s.qOut y.queue ≥ lim
          if held then s
          else
            let x := { x with
              presented := some { q := s.tte x / 256, seq := s.str.seq }
              cursor := x.cursor + 1
              bucket := if x.desc.rateCap = 0 then x.bucket else x.bucket - tr.len }
            let s := { s with str := { s.str with seq := s.str.seq + 1, strm := tset none s.str.strm n (some x) } }
            (s.bump (bSTR + 0x40) 1).bump (bSTR + 0x48) (tr.pieces - 1)

/-- Present what can be presented, stream by stream. -/
def State.presentAll (s : State) : State := (s.str.strm.map Prod.fst).foldl State.present s

/-- The streams of a stage have moved everything: what was not yet presented counts now, and none is outstanding. -/
def State.endStreams (s : State) (t k : Nat) : State :=
  s.str.strm.foldl (fun s e => match e.2 with
    | some x =>
      if x.task = t && x.stage = k && !x.ended then
        let rest := x.desc.transfers.drop x.cursor
        let s := (s.bump (bSTR + 0x40) rest.length).bump (bSTR + 0x48) ((rest.map (fun r => r.pieces - 1)).sum)
        { s with str := { s.str with
            strm := tset none s.str.strm e.1 (some { x with ended := true, presented := none, cursor := x.cursor + rest.length })
            xfer := s.str.xfer.filter (fun f => match f.2 with | some z => decide (z.stream ≠ e.1) | none => false) } }
      else s
    | none => s) s

end Sys2Proof.Machine
end

