-- ==== Sys2Proof/Machine/TileOps.lean ====
section
/-!
DEFINITION. The tile clause, the iteration space, the checks of a stage at issue and what every engine row shares
(chapters 9 to 11).
-/

namespace Sys2Proof.Machine

/-! ### The tile clause (R272, R273) -/
def tExt (ws : List Nat) : List Nat := [wd ws 12 31 16, wd ws 12 15 0, wd ws 13 31 24, wd ws 13 23 16, wd ws 13 15 8]
/-- Dimension numbers, innermost first. -/
def tOrder (ws : List Nat) : List Nat := (List.range 5).map (fun k => wd ws 14 (7 + 3 * k) (5 + 3 * k))
def inDepth (ws : List Nat) : Nat := wd ws 14 3 2 + 1
def outDepth (ws : List Nat) : Nat := wd ws 14 1 0 + 1
/-- pad_mode is ZERO (R278). -/
def padZero (ws : List Nat) : Bool := wd ws 11 31 30 = 1
def keepPrev (ws : List Nat) : Bool := wb ws 11 29
def paramReuse (ws : List Nat) : Bool := wb ws 11 28

/-- Words of the clause that break R273. -/
def clauseBad (ws : List Nat) : List Nat :=
  (if wd ws 11 31 30 ≥ 2 then [11] else []) ++
  (if wd ws 12 31 16 = 0 || wd ws 12 15 0 = 0 then [12] else []) ++
  (if wd ws 13 31 24 = 0 || wd ws 13 23 16 = 0 || wd ws 13 15 8 = 0 then [13] else []) ++
  (if wd ws 14 31 20 ≠ 0 || !(List.range 5).all (fun d => (tOrder ws).contains d) then [14] else [])

/-- Effective extents (R275). -/
def effExt (ws : List Nat) (e : List Nat) : List Nat :=
  (List.range 5).map (fun d => min ((tExt ws).getD d 1) (e.getD d 1))

/-- Tiles in each dimension (R275). -/
def tileCounts (ws e : List Nat) : List Nat :=
  (List.range 5).map (fun d => cdiv (e.getD d 1) (max 1 ((effExt ws e).getD d 1)))

def prod (l : List Nat) : Nat := l.foldl (· * ·) 1

/-- The tiles in visit order, as tile coordinates (R275). -/
def tileVisits (ws e : List Nat) : List (List Nat) :=
  let n := tileCounts ws e
  let o := tOrder ws
  (List.range (prod n)).map (fun v =>
    let ds := digits (o.map (fun d => n.getD d 1)) v
    (List.range 5).map (fun d => ds.getD (o.idxOf d) 0))

/-- The unmasked output elements of a tile, in ascending linear index (R275, R277). -/
def tileEls (ws e j : List Nat) : List (List Nat) :=
  let t := effExt ws e
  let lo := (List.range 5).map (fun d => j.getD d 0 * t.getD d 1)
  let n := (List.range 5).map (fun d => min (t.getD d 1) (e.getD d 1 - lo.getD d 0))
  (List.range (prod n)).map (fun v => (List.range 5).map (fun d => lo.getD d 0 + (digits n v).getD d 0))

/-- A byte count rounded up to 64 (R280). -/
def up64 (n : Nat) : Nat := cdiv n 64 * 64

/-- Core tile extents in dimensions 0 and 1 (R276). -/
def coreExt (ws t : List Nat) : Nat × Nat :=
  (min (2 ^ wd ws 13 7 4) (t.getD 0 1), min (2 ^ wd ws 13 3 0) (t.getD 1 1))

/-! ### What a kind's chapter says of a stage, for its checks -/

/-- The checks of one stage, as its kind's chapter gives them. -/
structure SInfo where
  /-- Offending words that the fields alone show. -/
  bad : List Nat := []
  refs : List Ref := []
  /-- Key of the principal output (R274). -/
  out : Nat := 0
  /-- Extents of the iteration space; those of the principal output where none are given. -/
  ext : Option ((Nat → Desc) → List Nat) := none
  /-- Offending words that the descriptors show, by key. -/
  rel : (Nat → Desc) → List Nat := fun _ => []
  /-- Terms of R280 from the descriptors and the effective extents. -/
  bins : (Nat → Desc) → List Nat → List Nat := fun _ _ => []
  bouts : (Nat → Desc) → List Nat → List Nat := fun _ _ => []
  scratch : (Nat → Desc) → List Nat → Nat := fun _ _ => 0
  /-- Accumulator bytes per output element. -/
  acc : Option Nat := none
  /-- Key of the parameter stream. -/
  par : Option Nat := none
  /-- Write streams under R286, by key. -/
  tiled : List Nat := []
  /-- What the stage copies beside stream descriptors. -/
  aux : (Nat → Desc) → List Nat := fun _ => []
  deadline : Nat := 0

/-- What issue keeps of a stage that passed its checks. -/
structure SOk where
  descs : List (Ref × Desc)
  info : SInfo
  ext : List Nat

def SOk.desc (x : SOk) (key : Nat) : Desc := ((x.descs.find? (fun p => p.1.key = key)).map Prod.snd).getD {}

/-- A status with its detail and result. -/
abbrev Fail := Nat × Nat × Nat

/-- The lowest of a list of words, as an INVALID completion. -/
def invalidAt (l : List Nat) : Option Fail :=
  match l with
  | [] => none
  | w :: ws => some (stINVALID, ws.foldl min w, 0)

/-- Fields, references and relations of a stage (R229, R248, R249, R273, R286). -/
def State.stageRefs (s : State) (g : Nat) (ws : List Nat) (i : SInfo) : Except Fail SOk :=
  let rs := i.refs.map (fun r => (r, s.refCheck g r))
  let badRefs := rs.filterMap (fun p => match p.2 with | .error (e, w) => if e = stINVALID then some w else none | .ok _ => none)
  match invalidAt (i.bad ++ clauseBad ws ++ badRefs) with
  | some f => .error f
  | none =>
    match rs.findSome? (fun p => match p.2 with | .error (e, w) => some (e, w, 0) | .ok _ => none) with
    | some f => .error f
    | none =>
      let ds := rs.filterMap (fun p => match p.2 with | .ok d => some (p.1, d) | .error _ => none)
      let x : SOk := { descs := ds, info := i, ext := [] }
      let e := match i.ext with
        | some f => f x.desc
        | none => (List.range 5).map (x.desc i.out).cnt
      let split : Bool := i.tiled.any (fun k => !(x.desc k).aliasFree &&
        (List.range 5).any (fun d => (effExt ws e).getD d 1 ≠ e.getD d 1 && (span (d + 1) (4 - d)).any (fun m => e.getD m 1 ≥ 2)))
      match invalidAt (i.rel x.desc) with
      | some f => .error f
      | none =>
        match ds.find? (fun p => p.2.aliases) with
        | some p => .error (stALIAS_WRITE, p.1.word, 0)
        | none => if split then .error (stINVALID, 12, 0) else .ok { x with ext := e }

/-- Parameter-bank bytes of a kind in a generation, those of its instance 0 (R279, R295, R297). -/
def State.bankBytes (s : State) (g kind : Nat) : Nat := 1024 * wfld (s.cfgAt g (bSTR + 0x3000 + 8 * kindBay kind)) 10 0

/-- Bytes of a parameter stream (R280). -/
def SOk.parBytes (x : SOk) : Nat :=
  match x.info.par with
  | some k => (x.desc k).total * (x.desc k).elem
  | none => 0

/-- The shape check of stage k, with the hand-off bytes it consumes (R281). -/
def State.shapeCheck (s : State) (g k kind : Nat) (ws : List Nat) (x : SOk) (hand : Nat) : Option Fail :=
  let t := effExt ws x.ext
  let bank := s.bankBytes g kind
  let f := inDepth ws * ((x.info.bins x.desc t).map up64).sum + outDepth ws * ((x.info.bouts x.desc t).map up64).sum +
    up64 hand + up64 (x.info.scratch x.desc t)
  let a := match x.info.acc with
    | some w => (coreExt ws t).1 * (coreExt ws t).2 * w
    | none => 0
  let p := x.parBytes
  let fail (test n : Nat) : Option Fail := some (stTILE_SHAPE, 256 * k + test, min n (2 ^ 64 - 1))
  if f > 4194304 - 2 * bank then fail 1 f
  else if a > 65536 then fail 2 a
  else if p > bank then fail 3 p
  else none

/-- Bytes of one hand-off slot (R287). -/
def slotBytes (ws e : List Nat) (elem : Nat) : Nat := up64 (prod (effExt ws e) * elem)

/-! ### Running a stage -/

/-- The device runs commands: main logic up, no stop, no sleep entry (R90, R648). -/
def State.running (s : State) : Bool := s.mainRunning && s.flt.state ≠ .stopped && !s.pwr.sleepEntry

/-- An instance works: powered, not fenced, not held by debug (R224, R642, R677). -/
def State.instRuns (s : State) (n : Nat) : Bool :=
  s.running && s.powered (bayDom n) && !s.fencedU n && s.haltOf n ≠ .halted

/-- The parameter set of a stage is resident and loaded for its task (R291). -/
def State.parReady (s : State) (t : Nat) (g : Stage) : Bool :=
  g.par.isNone || (tget {} s.str.inst g.inst).banks.any (fun b => match b with
    | some x => x.loaded && x.users.contains t
    | none => false)

def modStage (x : Task) (k : Nat) (f : Stage → Stage) : Task :=
  { x with stages := (List.range x.stages.length).filterMap (fun i => (x.stages[i]?).map (fun g => if i = k then f g else g)) }

/-- The ranges of a Bay that a stage's buffers take, by R282: inputs, outputs with scratch, hand-off slots. -/
def stageBufs (ws : List Nat) (x : SOk) (hand : Nat × Nat) : List (Nat × Nat) :=
  let t := effExt ws x.ext
  [ (64 * wd ws 15 31 16, inDepth ws * ((x.info.bins x.desc t).map up64).sum)
  , (64 * wd ws 15 15 0, outDepth ws * ((x.info.bouts x.desc t).map up64).sum + up64 (x.info.scratch x.desc t))
  , hand ].filter (fun r => r.2 ≠ 0)

/-- A range of a Bay, cut where it wraps to offset 0 (R283). -/
def bayCut (r : Nat × Nat) : List (Nat × Nat) :=
  let o := r.1 % 4194304
  let n := min r.2 4194304
  if o + n ≤ 4194304 then [(o, n)] else [(o, 4194304 - o), (0, o + n - 4194304)]

/-- Buffers of a stage leave free values in the Bay (R283): what lies in a buffer is not fixed by the manual. -/
def State.bayUse (s : State) (n : Nat) (bufs : List (Nat × Nat)) : State :=
  (bufs.flatMap bayCut).foldl (fun s r => s.fresh (fun k s =>
    let a := bayBase n + r.1
    { s with mem := s.mem.undef a (a + r.2) (k + 1) })) s

/-- Two ranges of a Bay share a byte. -/
def bayMeet (p q : Nat × Nat) : Bool :=
  (bayCut p).any (fun a => (bayCut q).any (fun b => overlap a.1 a.2 b.1 b.2))

/-- Some of the ranges overlap one another. -/
def bayClash : List (Nat × Nat) → Bool
  | [] => false
  | r :: rs => rs.any (bayMeet r) || bayClash rs

/-- The parameter bank that holds a task's set on an instance. -/
def State.bankOf (s : State) (t n : Nat) : Option Bank :=
  ((tget {} s.str.inst n).banks.filterMap (fun b => match b with
    | some x => if x.users.contains t then some x else none
    | none => none)).head?

/-- The stage's outputs cannot be known: its own buffers overlap, or under YIELD those of another task (R283, R284). -/
def State.stageClash (s : State) (t : Nat) (g : Stage) : Bool :=
  let bank := match s.bankOf t g.inst with | some b => [(b.off, b.bytes)] | none => []
  bayClash (g.bufs ++ bank) ||
  (s.cb (bSTR + 0x1000 + 8 * g.inst) 31 && (s.taskList.any (fun e => e.1 ≠ t && e.2.stages.any (fun h =>
    h.inst = g.inst && h.bufs.any (fun r => (g.bufs ++ bank).any (bayMeet r))))))

/-- A task has a stage on an instance that has not ended. -/
def State.worksOn (s : State) (n t : Nat) : Bool :=
  match s.task t with
  | some x => x.stages.any (fun g => g.inst = n && g.res.isNone) && !s.que.reissue.contains t &&
      x.stages.all (fun g => match g.res with | some r => r.status = stOK || r.status = stDAMAGED | none => true)
  | none => false

/-- The task an instance works on: the one it switched to, else the one issued first (R264). -/
def State.curTask (s : State) (n : Nat) : Option Nat :=
  match (tget ({} : Inst) s.str.inst n).cur with
  | some t => if s.worksOn n t then some t else (s.tasksOn n).find? (s.worksOn n)
  | none => (s.tasksOn n).find? (s.worksOn n)

/-- An instance may work on a task: it is its current one; a halting instance ends only the task it was running (R677),
one of a draining domain only what has started (R83). -/
def State.mayWork (s : State) (n t : Nat) : Bool :=
  s.curTask n = some t && (s.haltOf n = .running || (tget ({} : Inst) s.str.inst n).cur = some t) &&
  (s.domOn (bayDom n) || (match s.task t with | some x => x.started | none => false))

/-- An engine row for stage k of task t: nothing happens unless the stage is there, is of the row's kind and opcode,
has not ended, has its parameters, and every earlier stage has handed its tiles over. -/
def State.eng (s : State) (t k kind op : Nat) (f : Task → Stage → State → State) : State :=
  match s.task t with
  | none => s
  | some x =>
    match x.stages[k]? with
    | none => s
    | some g =>
      if g.kind = kind && g.op = op && g.res.isNone && s.instRuns g.inst && s.mayWork g.inst t && s.parReady t g &&
         (x.stages.take k).all (fun h => match h.res with | some r => r.status = stOK || r.status = stDAMAGED | none => false) then
        f x g (s.bayUse g.inst g.bufs)
      else s

/-- A stage ends: its result stands, its streams are done, and the Bay tiles not yet counted count (R296). -/
def State.endStage (s : State) (t k : Nat) (r : Res) (hand : List (List Byte) := []) : State :=
  let left := ((s.task t).bind (fun x => x.stages[k]?)).map (fun g => (g.inst, g.nTiles - g.tiles))
  let s := (s.modTask t (fun x => { modStage x k (fun g => { g with res := some r, handoff := hand, tiles := g.nTiles }) with started := true })).endStreams t k
  let s := s.fresh (fun _ s => s)
  match left with
  | some (n, c) => if r.status = stOK || r.status = stDAMAGED then s.bump (bSTR + 0x4000 + 16 * n) c else s
  | none => s

/-- The parameter set of a stage as it lies in its bank (R291, R292). -/
def State.parData (s : State) (t : Nat) (g : Stage) : List Byte :=
  match s.bankOf t g.inst with
  | some b => s.mem.rds (bayBase g.inst + b.off) b.bytes
  | none => []

/-- What the previous stage handed over, tile by tile. -/
def handIn (x : Task) (k : Nat) : List (List Byte) :=
  if k = 0 then [] else match x.stages[k - 1]? with | some g => g.handoff | none => []

/-- The principal output descriptor of the stage before stage k. -/
def State.handDesc (s : State) (t k : Nat) (x : Task) : Desc :=
  match x.stages[k - 1]? with | some g => s.descOf t (k - 1) g.out | none => {}

/-- The element with an index of the producer's output, as visit j of stage k finds it in its slot; what does not lie
in that slot is a free value (R283, R287). -/
def State.handElem (s : State) (x : Task) (k : Nat) (pd : Desc) (j : Nat) (i : List Nat) : El :=
  match x.stages[k - 1]? with
  | none => { data := List.replicate pd.elem 0 }
  | some p =>
    let e := (List.range 5).map pd.cnt
    let w := effExt p.words e
    let c := (tileVisits p.words e).getD j []
    let o := (List.range 5).map (fun d => i.getD d 0 - c.getD d 0 * w.getD d 1)
    let inside := (List.range 5).all (fun d => c.getD d 0 * w.getD d 1 ≤ i.getD d 0 && o.getD d 0 < w.getD d 1)
    if inside then { data := ((p.handoff.getD j []).drop (undigits w o * pd.elem)).take pd.elem }
    else { data := (List.range pd.elem).map (fun b => BitVec.ofNat 8 (s.freeAt 0 [j, undigits e i, b])) }

/-- The stage's output goes to a hand-off buffer. -/
def handsOut (x : Task) (k : Nat) : Bool := k + 1 < x.stages.length

/-- The bytes of tile j as it lies in a hand-off slot: full tile extents in ascending linear index; a masked element
holds free values (R277, R287). -/
def State.handBytes (s : State) (ws e j : List Nat) (elem : Nat) (val : List Nat → List Byte) : List Byte :=
  let t := effExt ws e
  (List.range (prod t)).flatMap (fun v =>
    let i := (List.range 5).map (fun d => j.getD d 0 * t.getD d 1 + (digits t v).getD d 0)
    if (List.range 5).all (fun d => i.getD d 0 < e.getD d 1) then val i
    else (List.range elem).map (fun b => BitVec.ofNat 8 (s.freeAt 1 (j ++ [v, b]))))

/-- Bytes of the slot of visit j from byte offset o; a byte outside the slot is a free value (R283, R428). -/
def State.slotRd (s : State) (hand : List (List Byte)) (j : Nat) (o : Int) (n : Nat) : List Byte :=
  let b := hand.getD j []
  (List.range n).map (fun (i : Nat) =>
    let p : Int := o + i
    if 0 ≤ p ∧ p < b.length then b.getD p.toNat 0 else BitVec.ofNat 8 (s.freeAt 2 [j, if p < 0 then 1 else 0, p.natAbs]))

/-- One unit of a stage's work: the reads it needs and the writes it makes, by stream. -/
structure Work where
  reads : List El
  /-- Key, element and bytes with their poison. -/
  writes : List (Nat × Nat × List Byte × Bool)

/-- The first failure among the reads of a list of work units: its place and status. -/
def firstErr : Nat → List Work → Option (Nat × Nat)
  | _, [] => none
  | n, w :: ws => match w.reads.findSome? El.err with
    | some e => some (n, e)
    | none => firstErr (n + 1) ws

/-- The writes of one unit, stream by stream in key order. -/
def State.wrWork (s : State) (t k : Nat) (w : Work) : State × Option Nat :=
  ((w.writes.map Prod.fst).eraseDups).foldl (fun r key => match r with
    | (s, some e) => (s, some e)
    | (s, none) => s.wrEls (s.descOf t k key) ((w.writes.filter (fun x => x.1 = key)).map Prod.snd) ((s.task t).map Task.gen)) (s, none)

/-- Units in order until a write fails. -/
def State.wrWorks (s : State) (t k : Nat) : List Work → State × Option Nat
  | [] => (s, none)
  | w :: ws => match s.wrWork t k w with
    | (s, some e) => (s, some e)
    | (s, none) => s.wrWorks t k ws

/-- Units whose bytes are free values, where the stage's buffers overlap. -/
def State.clashed (s : State) (c : Bool) (ws : List Work) : List Work :=
  if !c then ws
  else ws.map (fun w => { w with writes := w.writes.map (fun x =>
    (x.1, x.2.1, (List.range x.2.2.1.length).map (fun i => BitVec.ofNat 8 (s.freeAt 3 [x.1, x.2.1, i])), x.2.2.2)) })

/-- A run of bytes: its space, first address and length. -/
abbrev Span := Nat × Int × Nat

/-- Two runs share a byte. -/
def Span.meets (a b : Span) : Bool := a.1 = b.1 && a.2.1 < b.2.1 + b.2.2 && b.2.1 < a.2.1 + a.2.2

/-- The smallest run of a space that holds the runs of that space. -/
def hull (sp : Nat) (l : List Span) : Option Span :=
  (l.filter (fun x => x.1 = sp)).foldl (fun h x => match h with
    | none => some x
    | some y =>
      let lo := min x.2.1 y.2.1
      some (sp, lo, (max (x.2.1 + x.2.2) (y.2.1 + y.2.2) - lo).toNat)) none

/-- A run shares a byte with one of a list. -/
def meetsAny (l : List Span) (a : Span) : Bool := (hull a.1 l).any a.meets && l.any a.meets

/-- The bytes that one write of a unit goes to. -/
def State.wrSpan (s : State) (t k : Nat) (x : Nat × Nat × List Byte × Bool) : Span :=
  let d := s.descOf t k x.1
  (d.space, d.at x.2.1, x.2.2.1.length)

/-- The units in order; what a unit makes of bytes that an earlier unit of the stage writes is free, as the order of
those transfers is open (R545). -/
def State.torn (s : State) (t k : Nat) : List Span → Nat → List Work → List Work
  | _, _, [] => []
  | old, n, w :: ws =>
    let w' := if (w.reads.flatMap El.src).any (meetsAny old) then
        { w with writes := w.writes.map (fun x =>
          (x.1, x.2.1, (List.range x.2.2.1.length).map (fun i => BitVec.ofNat 8 (s.freeAt 4 [n, x.1, x.2.1, i])), x.2.2.2)) }
      else w
    w' :: s.torn t k (old ++ w.writes.map (s.wrSpan t k)) (n + 1) ws

/-- A byte that two output streams of the stage write holds a free value, as no rule orders the two writes (R250). -/
def State.shared (s : State) (t k : Nat) (ws : List Work) : List Work :=
  let all := (ws.flatMap Work.writes).map (fun x => (x.1, s.wrSpan t k x))
  let keys := (all.map Prod.fst).eraseDups
  let of (p : Nat → Bool) : List Span := (all.filter (fun x => p x.1)).map Prod.snd
  if keys.length < 2 then ws
  else ws.map (fun w => { w with writes := w.writes.map (fun x =>
    let sp := s.wrSpan t k x
    let others := of (fun q => decide (q ≠ x.1))
    if !meetsAny others sp then x
    else (x.1, x.2.1, (List.range x.2.2.1.length).map (fun i =>
      if meetsAny others (sp.1, sp.2.1 + (i : Nat), 1) then BitVec.ofNat 8 (s.freeAt 5 [sp.1, (sp.2.1 + (i : Nat)).toNat / 2 ^ 32, (sp.2.1 + (i : Nat)).toNat % 2 ^ 32])
      else x.2.2.1.getD i 0), x.2.2.2)) })

/-- Do a stage's units. Where a read fails, the writes of a free number of the units before it have been performed
(R253). The answer is the state and the failing status. -/
def State.runWorks (s : State) (t k : Nat) (ws : List Work) : State × Option Nat :=
  let ws := s.clashed ((s.task t).any (fun x => (x.stages[k]?).any (s.stageClash t))) ws
  let ws := s.shared t k (s.torn t k [] 0 ws)
  match firstErr 0 ws with
  | none => { s with free := s.free + 1 }.wrWorks t k ws
  | some (n, e) =>
    let c := Config.freeValue (s.free + 1) 0 % (n + 1)
    (({ s with free := s.free + 2 }.wrWorks t k (ws.take c)).1, some e)

/-- Bytes read and written of one element per index, as a unit of work. -/
def copyUnit (key : Nat) (r : El) (n : Nat) (data : List Byte) : Work := { reads := [r], writes := [(key, n, data, !r.poison.isEmpty)] }

/-- A unit made of several. -/
def Work.join (l : List Work) : Work := { reads := l.flatMap Work.reads, writes := l.flatMap Work.writes }

/-- Lines read poisoned by a list of units. -/
def worksPoison (ws : List Work) : Nat := (ws.map (fun w => ((w.reads.flatMap El.poison).eraseDups).length)).sum

end Sys2Proof.Machine
end

