-- ==== Sys2Proof/Machine/Flags.lean ====
section
/-!
DEFINITION. Damage, thresholds and the outcome of a command that handles samples: the flags a stage reports with
(R307, R361 to R363).
-/

namespace Sys2Proof.Machine

/-- damage_bp = ⌈10,000 × M / T⌉ (R361). -/
def damageBp (m t : Nat) : Nat := cdiv (10000 * m) (max 1 t)

/-- The damage threshold of the pipeline that a ticket's context names, in a generation (R361). -/
def State.damageThr (s : State) (g ticket : Nat) : Nat :=
  let p := (s.ctx (ticket % 2 ^ 21)).pipe
  let v := wfld (s.cfgAt g (rPipe p)) 27 14
  if v = 0 then 200 else v

/-- How one sample of a command came out. -/
structure Outcome where
  ticket : Nat
  /-- Status of the sample (R243). -/
  status : Nat
  /-- The report it sends: fault, cause and damage; none where it sends no report. -/
  report : Option (Bool × Nat × Nat)
  deriving DecidableEq, Repr

/-- A sample decoded or computed with some damage (R362): `cause` counts where the damage is not zero. -/
def State.damaged (s : State) (g ticket bp cause : Nat) : Outcome :=
  { ticket := ticket, status := if bp > s.damageThr g ticket then stDAMAGED else stOK
    report := some (false, if bp = 0 then 0 else cause, bp) }

/-- A sample that fails with a cause (R362). -/
def failedSample (ticket status cause : Nat) : Outcome := { ticket := ticket, status := status, report := some (true, cause, 10000) }

/-- The reports of a list of outcomes for a stage. -/
def reportsOf (stage : Nat) (l : List Outcome) : List Report :=
  l.filterMap (fun o => o.report.map (fun r => { ticket := o.ticket, stage := stage, fault := r.1, cause := r.2.1, damage := r.2.2 }))

/-- The command's result over its samples (R362): DAMAGED unless each is OK, or of a status that counts as OK. -/
def sampleRes (stage : Nat) (okToo : List Nat) (l : List Outcome) : Res :=
  let bad (o : Outcome) : Bool := o.status ≠ stOK && !okToo.contains o.status
  let n := (l.filter bad).length
  { status := if n = 0 then stOK else stDAMAGED
    detail := if n = 0 then 0 else l.findIdx bad
    result := put n 32 32 + put l.length 0 32
    reports := reportsOf stage l }

/-- Outcomes that share a ticket with the one before report once, with the largest damage (R430). -/
def mergeOutcomes : List Outcome → List Outcome
  | [] => []
  | o :: os =>
    match mergeOutcomes os with
    | [] => [o]
    | p :: ps =>
      if o.ticket = p.ticket then
        (match o.report, p.report with
         | some a, some b => { (if a.1 || (!b.1 && a.2.2 ≥ b.2.2) then o else p) with report := some (a.1 || b.1, if a.1 || (!b.1 && a.2.2 ≥ b.2.2) then a.2.1 else b.2.1, max a.2.2 b.2.2) }
         | some _, none => o
         | none, _ => p) :: ps
      else o :: p :: ps

/-- Ticket elements of a stream, by index. -/
def State.ticketAt (s : State) (d : Desc) (n : Nat) : Nat := leNat (s.elN d n).data % 2 ^ 32

/-- The block of a counter-mode draw for a sample, in the generation a command carries (R434, R435). -/
def State.draw1 (s : State) (g ticket slot d : Nat) : List Nat :=
  azimuth (azKey (s.cfgAt g bLDG).toNat (s.cfgAt g (bLDG + 8)).toNat (s.ctx (ticket % 2 ^ 21)).key slot) [d, 0, 0, 0]

end Sys2Proof.Machine
end

