-- ==== Sys2Proof/Machine/Boot.lean ====
section
/-!
DEFINITION. Start-up from the boot flash: bring-up, calibration, verification, and flash commands (chapter 5).
The records of the start-up program are in BootRec.
-/

namespace Sys2Proof.Machine

/-! ### The flash (R108, R110) -/

def State.flashRd (s : State) (a n : Nat) : List Byte := (List.range n).map (fun i => tget 0xFF s.flash (a + i))
def State.flashLe (s : State) (a n : Nat) : Nat := leNat (s.flashRd a n)

/-- Size S of the flash. -/
def State.flashSize (s : State) : Nat := 2 ^ s.boot.densLog2

/-- Slot length (R110). -/
def State.slotLen (s : State) : Nat := (s.flashSize - 0x40000) / 2

/-- Flash address of the slot of copy 1 (A) or 2 (B) (R110). -/
def State.slotAddr (s : State) (copy : Nat) : Nat := 0x40000 + (copy - 1) * s.slotLen

/-! ### Copy selection and its end (R120 to R123) -/

/-- STRAP_IMG_SEL as sampled. -/
def State.imgSel (s : State) : Nat := (s.pins.straps.getD {}).imgSel.val

/-- The first permitted copy (R120). -/
def State.firstCopy (s : State) : Nat := if s.imgSel = 2 then 2 else 1

/-- A copy after this one is permitted (R120). -/
def State.moreCopies (s : State) (copy : Nat) : Bool := copy = 1 && (s.imgSel = 0 || s.imgSel = 3)

/-- Record the result of a copy. -/
def State.setResult (s : State) (copy r : Nat) : State :=
  { s with boot := if copy = 1 then { s.boot with aRes := r } else { s.boot with bRes := r } }

/-- Configuration Request Retry Status ends; the first time after a cold start BAR2's size is taken (R122, R616). -/
def State.endRetry (s : State) : State :=
  if s.hif.bar2Taken then s
  else { s with hif := { s.hif with bar2Log2 := s.cf (bHIF + 0x20) 63 56, bar2Taken := true } }

/-- µs since the cold start or its last restart (R134). -/
def State.bootElapsed (s : State) : Nat := (s.spine - s.boot.startT) / 2000 % 2 ^ 32

/-- No permitted copy remains (R120, R123). -/
def State.toNoImage (s : State) : State :=
  let s := { s with
    boot := { s.boot with state := .noImage, bootUs := s.bootElapsed }
    pins := { s.pins with alertNoImage := true } }
  s.endRetry

/-- Try the copy after `copy`, or enter NO_IMAGE. -/
def State.nextCopy (s : State) (copy : Nat) : State :=
  if s.moreCopies copy then { s with boot := { s.boot with state := .verify, copy := 2, prog := [], sections := [], pc := 0 } }
  else s.toNoImage

/-! ### FLASH_INIT and CAL (R109, R126) -/

/-- The Vault's self-tests of a cold start (R181): they leave it READY or in ERROR; a tampered Vault stays so,
and reports a tamper event that came while the main rail was down (R183). -/
def State.vaultTests (s : State) (ok : Bool) : State :=
  if s.vlt.state = .tampered then
    (if s.vlt.tamperDue then { s with vlt := { s.vlt with tamperDue := false } }.faultC3 0x13 uVLT else s)
  else if ok then { s with vlt := { s.vlt with state := .ready, seeded := true, drbgReqs := 0 } }
  else { s with vlt := { s.vlt with state := .error } }.faultC1 0x12 uVLT

/-- R109, R181: the flash is up, or has failed: every permitted copy then fails with result 12. -/
def execFlashInitDone (ok octal vaultOk : Bool) (densLog2 : Nat) (s : State) : Host.Outcome State Fault Refusal :=
  if s.boot.state ≠ .flashInit then .next s
  else
    let s := s.vaultTests vaultOk
    if ok && 25 ≤ densLog2 then
      let fb := (s.pins.straps.getD {}).nvmFb
      .next { s with boot := { s.boot with
        state := .cal
        densLog2 := min densLog2 27
        nvClkMhz := if !fb && octal then 200 else 25
        nvmMode := if fb then 2 else if octal then 1 else 3 } }
    else
      let c := s.firstCopy
      let s := (s.setResult c 12).whenB (s.moreCopies c) (·.setResult 2 12)
      .next s.toNoImage

/-- The calibration region's verdict: 1 valid, 2 format or CRC, 3 identity (R126). -/
def State.calVerdict (s : State) : Nat :=
  let body := s.flashRd 0 0x22000
  let zeroed := body.take 0x3C ++ leBytes 4 0 ++ body.drop 0x40
  if leNat (body.take 4) ≠ 0x4C414355 || leNat (body.drop 4 |>.take 2) ≠ 1 || leNat (body.drop 0x10 |>.take 4) ≠ 0x22000 ||
      leNat (body.drop 0x3C |>.take 4) ≠ crc32 zeroed then 2
  else if leNat (body.drop 8 |>.take 8) ≠ Config.deviceId.toNat then 3
  else 1

/-- The seed slice a lane's 64 bytes give (R125). -/
def seedSlice (b : List Byte) : Slice :=
  { ctle := Config.seedParam b 0, dfe := (span 1 12).map (Config.seedParam b), phase := Config.seedParam b 13 }

/-- The valid region's values take effect (R126, R127). -/
def State.calApply (s : State) : State :=
  let vf := (List.range (25 * 128)).foldl (fun t k => tset 60 t (256 * (k / 128 + 1) + k % 128) (s.flashLe (0x140 + k) 1)) []
  let seed := (List.range 24).foldl (fun t l => tset {} t l (seedSlice (s.flashRd (0x1000 + 64 * l) 64))) []
  let losB := (List.range 24).foldl (fun t l => tset (40 * 256 + 120) t l (256 * s.flashLe (0x1600 + 2 * l) 1 + s.flashLe (0x1601 + 2 * l) 1)) []
  { s with
    clk := { s.clk with vf := vf, seed := seed, losB := losB }
    stg := { s.stg with gens := s.stg.gens.map (fun g => (g.1, (sdCfg losB).foldl (fun t e => tset 0 t e.1 e.2) g.2)) } }

/-- R126, R127: the region has been read; its values, or the defaults with a C0 fault, take effect, and the islands that
run move to the table's voltage. -/
def execCalDone (s : State) : Host.Outcome State Fault Refusal :=
  if s.boot.state ≠ .cal then .next s
  else
    let v := s.calVerdict
    let s := if v = 1 then s.calApply
      else { s with clk := { s.clk with vf := [], seed := [], losB := [] } }.faultC0 0x14 uCal
    let s := { s with boot := { s.boot with
      state := .verify, cal := v, copy := s.firstCopy
      calInfo := s.flashRd 0x3C 4 ++ s.flashRd 0x14 4 } }
    .next ((s.lanesReset true).restartIslands)

/-! ### VERIFY (R111 to R115) -/

/-- Section-table entries of a copy, with their flash addresses (R111, R112). -/
def State.readSections (s : State) (base : Nat) : Nat → Nat → Nat → List Section
  | 0, _, _ => []
  | n + 1, i, at' =>
    let e := base + 0x100 + 64 * i
    let len := s.flashLe (e + 4) 4
    { kind := s.flashLe e 1, flags := s.flashLe (e + 1) 1, len := len, target := s.flashLe (e + 8) 8 % 2 ^ 44
      digest := s.flashRd (e + 0x10) 48, addr := at' } ::
    s.readSections base n (i + 1) (at' + (len + 4095) / 4096 * 4096)

/-- The sections satisfy R113. -/
def sectionsOk (ss : List Section) : Bool :=
  (ss.filter (fun x => x.kind = 1)).length = 1 && (ss.filter (fun x => x.kind = 2)).length = 1 &&
  ss.all (fun x => if x.kind = 1 then x.len ≤ 0x40000 else (1 ≤ x.kind && x.kind ≤ 4) || !bit x.flags 0)

/-- The section's bytes match its digest. -/
def State.digestOk (s : State) (x : Section) : Bool := Config.sha384 (s.flashRd x.addr x.len) = x.digest

/-- The POLICY section is as R168 states, and as the approved fuse requires. -/
def policyOk (approved : Bool) (p : List Byte) : Bool :=
  let f (a n : Nat) := leNat (p.drop a |>.take n)
  let zero (a n : Nat) := (p.drop a |>.take n).all (· = 0)
  p.length = 4096 && f 0 4 = 0x4C4F5056 && f 4 2 = 1 && f 6 2 < 16 && (1 ≤ f 8 1 && f 8 1 ≤ 8) && f 9 1 ≤ 32 &&
  (10 ≤ f 0xA 2 && f 0xA 2 ≤ 3600) && (1 ≤ f 0xC 1 && f 0xC 1 ≤ 15) && zero 0xD 19 &&
  zero (0x20 + 48 * f 8 1) (384 - 48 * f 8 1) && zero (0x1A0 + 48 * f 9 1) (1536 - 48 * f 9 1) && zero 0x7A0 2144 &&
  (!approved || (bit (f 6 2) 0 && bit (f 6 2) 2 && !bit (f 6 2) 1))

/-- The Vault accepts a policy: a changed digest clears every key and ends every session (R168, R169). -/
def Vlt.accept (v : Vlt) (p : List Byte) : Vlt :=
  let d := Config.sha384 p
  let v := if v.policyDigest.isSome && v.policyDigest ≠ some d then
      { v with
        kek := []
        keys := tmap {} (fun k => { k with key := none }) v.keys, genOff := v.genOff + 1
        cache := [], host := v.host.ended, dbg := v.dbg.ended }
    else v
  { v with policyDigest := some d, policy := some p, pinEn := bit (leNat (p.drop 6 |>.take 2)) 2 }

/-- The result of checking a copy: 0 where it is valid (R115, R133). -/
def State.checkCopy (s : State) (copy : Nat) : Nat :=
  let b := s.slotAddr copy
  let f (a n : Nat) := s.flashLe (b + a) n
  let cnt := f 0x14 2
  let ss := s.readSections b cnt 0 (b + 0x2000)
  let len := f 0x10 4
  let slot := f 0x1000 1
  let pub := s.flashRd (b + 0x1004) 97
  if f 0 4 ≠ 0x31584D55 || f 4 2 ≠ 1 || f 6 2 ≠ 4096 || cnt < 2 || cnt > 60 || !sectionsOk ss then 2
  else if len > s.slotLen || ss.any (fun x => x.addr + x.len > b + len) then 3
  else if slot > 3 || tget none s.vlt.fuses.imgKey slot ≠ some (Config.sha384 pub) || tget false s.vlt.fuses.imgRevoked slot then 4
  else if s.vlt.state = .error || !Config.ecdsaVerify pub (s.flashRd b 4096) (s.flashRd (b + 0x1068) 48) (s.flashRd (b + 0x1098) 48) then 5
  else if f 0xC 4 < s.vlt.fuses.svn then 6
  else if !bit (f 0x16 2) 1 then 7
  else if ss.any (fun x => (x.kind = 1 || x.kind = 2) && !s.digestOk x) then 8
  else match ss.find? (fun x => x.kind = 2) with
    | some x => if policyOk s.vlt.fuses.approved (s.flashRd x.addr x.len) then 0 else 9
    | none => 2

/-- One 16-byte program record (R116). -/
def recOf (b : List Byte) : Rec :=
  { op := leNat (b.take 1), rsvd := leNat (b.drop 1 |>.take 1), arg := leNat (b.drop 2 |>.take 2)
    off := leNat (b.drop 4 |>.take 4), data := leNat (b.drop 8 |>.take 8) }

/-! ### The next record (R116, R117, R121, R124) -/

/-- A record failed: the copy's result, the boot reset, then the next copy, or NO_IMAGE after a replay (R121, R124). -/
def State.recFail (s : State) (code : Nat) : State :=
  let c := s.boot.copy
  let i := min s.boot.pc 4095
  let replay := s.boot.replay
  let s := (s.setResult c code).bootReset
  let s := { s with boot := { s.boot with failRec := if code = 10 || code = 11 then i else 0, retained := false, replay := false } }
  if replay then s.toNoImage else s.nextCopy c

/-- A record is one that cannot run whatever the device's state (R117). -/
def State.recBad (s : State) (r : Rec) : Bool :=
  if r.op = 1 || r.op = 3 then r.off % 4 ≠ 0
  else if r.op = 2 then r.off % 8 ≠ 0
  else if r.op = 5 then !s.boot.replay && (match s.boot.sections[r.arg]? with | some x => x.kind ≠ 3 | none => true)
  else !(r.op = 4 || r.op = 6)

/-- After a record has run: a next record that cannot run, or a program that ends without END, fails the copy (R117). -/
def State.settle (s : State) : State :=
  match s.boot.prog[s.boot.pc]? with
  | none => s.recFail 10
  | some r => if s.recBad r then s.recFail 10 else s

/-- R115, R120: the checks of the selected copy end: it runs, or the next copy is tried. -/
def execVerifyDone (s : State) : Host.Outcome State Fault Refusal :=
  if s.boot.state ≠ .verify then .next s
  else
    let c := s.boot.copy
    let r := s.checkCopy c
    if r ≠ 0 then .next ((s.setResult c r).nextCopy c)
    else
      let b := s.slotAddr c
      let ss := s.readSections b (s.flashLe (b + 0x14) 2) 0 (b + 0x2000)
      let bytes (k : Nat) := match ss.find? (fun x => x.kind = k) with | some x => s.flashRd x.addr x.len | none => []
      let pb := bytes 1
      let prog := (List.range (pb.length / 16)).map (fun i => recOf (pb.drop (16 * i) |>.take 16))
      .next { s with
        vlt := s.vlt.accept (bytes 2)
        boot := { s.boot with
          state := .execute, prog := prog, sections := ss, pc := 0, retained := false, replay := false
          header := s.flashRd b 4096, keySlot := s.flashLe (b + 0x1000) 1, svn := s.flashLe (b + 0xC) 4, imgVer := s.flashLe (b + 8) 4 } }.settle

/-- R132: a write of retry restarts the cold start in NO_IMAGE. -/
def State.bootRetry (s : State) : State := if s.boot.state = .noImage then s.restartBoot else s

def execBootRetry (p : Path) (s : State) : Host.Outcome State Fault Refusal :=
  if s.wgate p (bNVC + 0x20) then .next s.bootRetry else .next s

/-! ### Flash commands (R129 to R131) -/

/-- NVC_FL_BUF as bytes. -/
def State.flBuf (s : State) : List Byte := (List.range 32).flatMap (fun i => leBytes 8 (s.reg (bNVC + 0x400 + 8 * i)).toNat)
def State.setFlBuf (s : State) (b : List Byte) : State :=
  (List.range 32).foldl (fun s i => s.setReg (bNVC + 0x400 + 8 * i) (BitVec.ofNat 64 (leNat (b.drop (8 * i) |>.take 8)))) s

/-- A command ends with a result; a program or an erase returns both unlock registers to zero (R130). -/
def State.flEnd (s : State) (op : FlOp) (res : Nat) : State :=
  let s := { s with boot := { s.boot with flBusy := none, flResult := res } }
  if op = .program || op = .erase then (s.setReg (bNVC + 0x118) 0).setReg (bNVC + 0x120) 0 else s

/-- Flash bytes a program or an erase touches. -/
def flSpan (op : FlOp) : Nat := match op with | .program => 256 | .erase => 65536 | _ => 0

/-- The unlock registers refuse a program or an erase (R130): the calibration region, the slot of the running copy. -/
def State.flLocked (s : State) (op : FlOp) (a : Nat) : Bool :=
  let run := s.slotAddr s.boot.copy
  flSpan op ≠ 0 &&
    ((a < 0x40000 && s.reg (bNVC + 0x118) ≠ 0xCA1B) ||
     (s.boot.state = .running && run ≤ a && a < run + s.slotLen && s.reg (bNVC + 0x120) ≠ 0xAC71))

/-- A write to NVC_FL_CMD (R129 to R131). The address is tested after the state and before the unlock registers. -/
def State.flCmd (s : State) (op : FlOp) : State :=
  let a := (s.reg (bNVC + 0x100)).toNat
  let al := if op = .erase then 65536 else 256
  if s.boot.flBusy.isSome then s.setBits (bNVC + 0x110) (2 ^ 30)
  else if s.boot.state ≠ .running && s.boot.state ≠ .noImage then s.flEnd op 1
  else if op ≠ .status && (a % al ≠ 0 || s.flashSize ≤ a) then s.flEnd op 3
  else if s.flLocked op a then s.flEnd op 1
  else { s with boot := { s.boot with flBusy := some op, flAddr := a } }

def execFlashRead (p : Path) (s : State) : Host.Outcome State Fault Refusal :=
  if s.wgate p (bNVC + 0x108) then .next (s.flCmd .read) else .next s
def execFlashProgram (p : Path) (s : State) : Host.Outcome State Fault Refusal :=
  if s.wgate p (bNVC + 0x108) then .next (s.flCmd .program) else .next s
def execFlashErase (p : Path) (s : State) : Host.Outcome State Fault Refusal :=
  if s.wgate p (bNVC + 0x108) then .next (s.flCmd .erase) else .next s
def execFlashStatus (p : Path) (s : State) : Host.Outcome State Fault Refusal :=
  if s.wgate p (bNVC + 0x108) then .next (s.flCmd .status) else .next s

/-- R129: the command finishes. -/
def execFlashCmdDone (status : Byte) (s : State) : Host.Outcome State Fault Refusal :=
  match s.boot.flBusy with
  | none => .next s
  | some .read => .next ((s.setFlBuf (s.flashRd s.boot.flAddr 256)).flEnd .read 0)
  | some .program => .next ({ s with flash := tsplice 0xFF s.flash s.boot.flAddr s.flBuf }.flEnd .program 0)
  | some .erase => .next ({ s with flash := tclear s.flash s.boot.flAddr (s.boot.flAddr + 65536) }.flEnd .erase 0)
  | some .status => .next ((s.setFlBuf (s.flBuf.set 0 status)).flEnd .status 0)

/-- R129: a program or an erase has not finished in time; what the page or sector holds is left open. -/
def execFlashCmdTimeout (s : State) : Host.Outcome State Fault Refusal :=
  match s.boot.flBusy with
  | some .program => .next (s.flashAbort.flEnd .program 2)
  | some .erase => .next (s.flashAbort.flEnd .erase 2)
  | _ => .next s

/-- R122: 900 ms after the cold start. -/
def execConfigRetryEnd (s : State) : Host.Outcome State Fault Refusal :=
  if s.bootRuns then .next { s with boot := { s.boot with crsEnd := true } }.endRetry else .next s

end Sys2Proof.Machine
end

