-- ==== Sys2Proof/Machine/VaultOps.lean ====
section
/-! DEFINITION. Mailboxes, roles, keys and attestation of the Vault: what its services share (chapter 7). -/

namespace Sys2Proof.Machine

/-! ### Mailboxes (R164, R165) -/

/-- Base of a mailbox buffer: p = 0 host, 1 debug. -/
def mbxBuf (dbg : Bool) : Nat := bVLT + 0x1000 + (if dbg then 0x1000 else 0)

/-- Request word i of 8 bytes. -/
def State.mbx64 (s : State) (dbg : Bool) (i : Nat) : Nat := (s.reg (mbxBuf dbg + 8 * i)).toNat

/-- The bytes of a mailbox from byte `a` on. -/
def State.mbxBytes (s : State) (dbg : Bool) (a n : Nat) : List Byte :=
  (List.range n).map (fun i => BitVec.ofNat 8 (s.mbx64 dbg ((a + i) / 8) / 2 ^ (8 * ((a + i) % 8))))

/-- A little-endian field of the request payload; offsets count from byte 8. -/
def State.mbxF (s : State) (dbg : Bool) (a n : Nat) : Nat := leNat (s.mbxBytes dbg (8 + a) n)

def State.vpath (s : State) (dbg : Bool) : VPath := if dbg then s.vlt.dbg else s.vlt.host
def State.setVpath (s : State) (dbg : Bool) (v : VPath) : State :=
  { s with vlt := if dbg then { s.vlt with dbg := v } else { s.vlt with host := v } }

/-- A write of go: the request joins the order of service (R164). -/
def State.mbxGo (s : State) (dbg : Bool) : State :=
  let v := s.vpath dbg
  if v.busy then s
  else
    let s := s.setVpath dbg { v with busy := true }
    { s with vlt := { s.vlt with order := s.vlt.order ++ [dbg] } }

/-- The response is written, the status set, busy cleared, and the host's event raised (R164, R630). -/
def State.mbxRespond (s : State) (dbg : Bool) (status : Nat) (payload : List Byte) : State :=
  let b := leBytes 4 status ++ leBytes 4 (8 + payload.length) ++ payload
  let b := b ++ leBytes ((8 - b.length % 8) % 8) 0
  let s := (List.range (b.length / 8)).foldl
    (fun s i => s.setReg (mbxBuf dbg + 8 * i) (BitVec.ofNat 64 (leNat (b.drop (8 * i) |>.take 8)))) s
  let s := s.setVpath dbg { s.vpath dbg with busy := false, status := status }
  let s := { s with vlt := { s.vlt with order := s.vlt.order.drop 1 } }
  if dbg then s else s.event 0

/-- The request at the front of the order of service is this path's. -/
def State.mbxFront (s : State) (dbg : Bool) : Bool := s.vlt.order.head? = some dbg

/-- Service code and total length of a request. -/
def State.mbxCode (s : State) (dbg : Bool) : Nat := s.mbx64 dbg 0 % 2 ^ 16
def State.mbxLen (s : State) (dbg : Bool) : Nat := s.mbx64 dbg 0 / 2 ^ 32

/-- Payload length of a service's request (R167); none for an unknown code. -/
def svcLen (c : Nat) : Option Nat :=
  if c ∈ [0x01, 0x02, 0x04, 0x43, 0x45, 0x50, 0x51, 0x52, 0x60] then some 0
  else if c = 0x03 then some 200
  else if c ∈ [0x10, 0x20, 0x40] then some 52
  else if c ∈ [0x11, 0x21, 0x22, 0x30, 0x41, 0x42] then some 4
  else if c = 0x44 then some 32
  else none

/-- The request is well formed for service `c` (R165). -/
def State.mbxIs (s : State) (dbg : Bool) (c : Nat) : Bool :=
  s.mbxFront dbg && s.mbxCode dbg = c && svcLen c = some (s.mbxLen dbg - 8) && 8 ≤ s.mbxLen dbg

/-- Services the Vault serves in its state (R181, R183); it is unavailable before its first self-tests have passed. -/
def State.svcOpen (s : State) (c : Nat) : Bool :=
  match s.vlt.state with
  | .ready => true
  | .tampered => c ∈ [0x01, 0x02, 0x03, 0x04, 0x51, 0x50]
  | _ => c ∈ [0x01, 0x50, 0x60]

/-- Who may use a service (R160, R167). -/
inductive Need where | any | session | co | user
  deriving DecidableEq, Repr

def VPath.may (v : VPath) : Need → Bool
  | .any => true
  | .session => v.sess.isSome
  | .co => v.sess = some .co
  | .user => v.sess = some .user

/-- One request: state, then role, then the service itself (R162, R167, R181). -/
def State.serve (s : State) (dbg : Bool) (c : Nat) (need : Need) (f : State → State) : State :=
  if !s.mbxIs dbg c then s
  else if !s.svcOpen c then s.mbxRespond dbg stFENCED []
  else if !(s.vpath dbg).may need then s.mbxRespond dbg stDENIED []
  else f s

/-! ### Keys (R171 to R173, R182) -/

def Vlt.slot (v : Vlt) (i : Nat) : KeySlot := tget {} v.keys i

/-- The generation a key slot reports (R171, R173). -/
def Vlt.slotGen (v : Vlt) (i : Nat) : Nat := ((v.slot i).gen + v.genOff) % 256

/-- One more generation of a slot, with the key it now holds. -/
def Vlt.setSlot (v : Vlt) (i : Nat) (k : Option Key) : Vlt :=
  { v with keys := tset {} v.keys i { gen := (v.slot i).gen + 1, key := k } }

/-- Every copy of a slot leaves both ING caches (R173). -/
def Vlt.dropCopies (v : Vlt) (i : Nat) : Vlt :=
  { v with cache := tmap [] (fun l => l.filter (fun c => decide (c.slot ≠ i))) v.cache }

/-- Zeroisation (R182): key and KEK slots, DRBG state, sessions, nonces and caches; every slot's generation advances. -/
def Vlt.zeroise (v : Vlt) : Vlt :=
  { v with
    kek := [], keys := tmap {} (fun k => { k with key := none }) v.keys, genOff := v.genOff + 1, cache := []
    host := v.host.ended, dbg := v.dbg.ended, seeded := true, drbgReqs := 0 }

/-! ### The DRBG (R178) -/

/-- Draw bytes. -/
def State.draw (s : State) (n : Nat) (f : List Byte → State → State) : State :=
  s.fresh (fun k s => f ((List.range n).map (Config.drbg k)) { s with vlt := { s.vlt with drbgReqs := s.vlt.drbgReqs + 1 } })

/-! ### Status registers (R186, R187) -/

/-- Approved mode (R185). -/
def State.approvedMode (s : State) : Bool :=
  let f := match s.vlt.policy with | some p => leNat (p.drop 6 |>.take 2) | none => 0
  s.vlt.fuses.approved && s.vlt.fuses.debugLock && s.vlt.fuses.ownerSet && bit f 0 && bit f 2 && s.vlt.state = .ready

def roleCode : Option Role → Nat
  | none => 0
  | some .co => 1
  | some .user => 2

/-- VLT_STATUS (R186). -/
def State.vltStatus (s : State) : Nat :=
  put Config.romVersion 48 16 + put (s.vlt.kek.length) 40 5 + put s.vlt.state.ctorIdx 29 3 + putB s.approvedMode 28 +
  put (roleCode s.vlt.host.sess) 26 2 + put (roleCode s.vlt.dbg.sess) 24 2 + putB s.vlt.policy.isSome 23 +
  put (s.vlt.keys.filter (fun e => e.2.key.isSome)).length 0 13

/-- VLT_FUSE_STAT (R187). -/
def State.vltFuseStat (s : State) : Nat :=
  let f := s.vlt.fuses
  putB f.decommissioned 31 + putB f.approved 30 + putB f.debugLock 29 + putB f.ownerSet 28 +
  ((List.range 4).map (fun i => putB (tget false f.imgRevoked i) (24 + i) + putB (tget none f.imgKey i).isSome (20 + i))).sum +
  put f.svn 0 7

/-- VLT_TAMPER (R187). -/
def State.vltTamper (s : State) : Nat := putB s.vlt.pinEn 4 + put s.vlt.tamper 0 4

/-! ### Faults of the Vault (R181) -/

/-- A failed self-test or health test: ERROR and a C1 fault. -/
def State.vaultError (s : State) : State :=
  let s := if s.vlt.state = .tampered then s else { s with vlt := { s.vlt with state := .error } }
  if s.mainRunning then s.faultC1 0x12 uVLT else s

/-- The Vault is up for encrypted records (R181, R183). -/
def State.vaultUp (s : State) : Bool := s.vlt.state = .ready && !s.fencedU uVLT

/-! ### Attestation (R180) -/

/-- The measurements, by index from 1 (R180). -/
def State.measurements (s : State) : List (List Byte) :=
  [ Config.romDigest, Config.sha384 s.boot.header
  , (match s.vlt.policy with | some p => Config.sha384 p | none => List.replicate 48 0)
  , leBytes 4 s.vltFuseStat
  , leBytes 1 s.boot.cal ++ s.boot.calInfo
  , leBytes 1 (s.vltStatus / 2 ^ 24) ++ leBytes 4 s.vltTamper ]

/-- Requests the responder supports, by SPDM request code: GET_DIGESTS, GET_CERTIFICATE, CHALLENGE, GET_VERSION,
GET_MEASUREMENTS, GET_CAPABILITIES, NEGOTIATE_ALGORITHMS. -/
def spdmKnown : List Nat := [0x81, 0x82, 0x83, 0x84, 0xE0, 0xE1, 0xE3]

/-- The answer to an SPDM request: ERROR Unspecified (0x05) in state ERROR, ERROR UnsupportedRequest (0x07) for a request
outside the support list, else what the standard gives over the measurements. -/
def State.spdm (s : State) (req : List Byte) : List Byte :=
  let ver := leNat (req.take 1)
  let code := leNat (req.drop 1 |>.take 1)
  let error (e : Nat) : List Byte := leBytes 1 ver ++ leBytes 1 0x7F ++ leBytes 1 e ++ leBytes 1 code
  if s.vlt.state = .error then error 0x05
  else if !spdmKnown.contains code then error 0x07
  else Config.spdmAnswer s.vlt.spdm req s.measurements

/-- The version a request settles, once NEGOTIATE_ALGORITHMS has been answered. -/
def State.spdmNext (s : State) (req : List Byte) : Nat :=
  if leNat (req.drop 1 |>.take 1) = 0xE3 then leNat (req.take 1) else s.vlt.spdm

end Sys2Proof.Machine
end

