-- ==== Sys2Proof/Machine/IngOps.lean ====
section
/-! DEFINITION. Records of a FETCH: manifests, keys, their sources, framing, and what their end or failure does
(R323 to R331, R335 to R339). -/

namespace Sys2Proof.Machine

/-- A counter of ING (R343). -/
def ingCtr (i : Nat) : Nat := bING + 0x200 + 8 * i

/-! ### The body and its checks (R326, R328) -/

def ingPipe (ws : List Nat) : Nat := wd ws 4 31 24

/-- The checks of a FETCH stage. -/
def ingInfo (ws : List Nat) (hout : Bool) : SInfo :=
  { bad := (if wd ws 4 20 16 ≠ 0 then [4] else []) ++ (if ws.getD 9 0 ≠ 0 then [9] else []) ++
      (if ws.getD 10 0 ≠ 0 then [10] else []) ++ (if wd ws 11 27 0 ≠ 0 then [11] else [])
    refs := [{ refAt ws 5 true with shapeOnly := hout }, refAt ws 7 true]
    out := 5
    rel := fun d =>
      let o := d 5
      (if o.elem ≠ 4096 || o.cnt 2 ≠ 1 || o.cnt 3 ≠ 1 || o.cnt 4 ≠ 1 then [5] else []) ++
      (if (d 7).elem ≠ 64 || (d 7).cnt 0 < o.cnt 1 || (span 1 4).any (fun k => (d 7).cnt k ≠ 1) then [7] else []) ++
      (if (tExt ws).getD 0 0 ≠ o.cnt 0 then [12] else [])
    bouts := fun d t => (if hout then [] else [(d 5).cnt 0 * 4096 * t.getD 1 1]) ++ [64 * t.getD 1 1]
    scratch := fun _ _ => 524288
    tiled := if hout then [] else [5] }

/-- The stage checks of the kind by opcode. -/
def ingStageInfo (op : Nat) (ws : List Nat) (hout : Bool) : Option (Except Fail SInfo) :=
  if op = 1 then some (.ok (ingInfo ws hout)) else none

/-! ### Manifest entries (R301, R323 to R325) -/

/-- A field of a manifest entry. -/
def manF (m : List Byte) (a n : Nat) : Nat := leNat ((m.drop a).take n)
def manEnc (m : List Byte) : Bool := manF m 0x16 2 ≠ 0xFFFF

def IngRec.src (r : IngRec) : Nat := manF r.man 0 1
def IngRec.loc (r : IngRec) : Nat := manF r.man 8 8
def IngRec.stored (r : IngRec) : Nat := manF r.man 0x10 4
def IngRec.tgt (r : IngRec) : Nat := manF r.man 1 1
def IngRec.ticket (r : IngRec) : Nat := manF r.entry 8 4

/-- R325. -/
def State.manBad (s : State) (m : List Byte) : Bool :=
  manF m 0 1 > 2 || manF m 2 1 > 4 || manF m 3 1 > 1 || manF m 0x1D 3 ≠ 0 || manF m 0x2C 4 ≠ 0 || manF m 0x10 4 = 0 ||
  (manEnc m && manF m 0x14 2 > manF m 0x10 4) || manF m 1 1 ≥ 64 || (manF m 0 1 = 2 && !s.tgtOn (manF m 1 1))

/-- Bytes read whole: the status that stops the read, POISON for a poisoned line, or the data. -/
def State.ingRd (s : State) (space : Nat) (a : Int) (n : Nat) : Except Nat (List Byte) :=
  let e := s.elAt space a n
  match e.err with
  | some c => .error c
  | none => if e.poison.isEmpty then .ok e.data else .error stPOISON

/-- Address of a record's manifest entry: host space or not, and where (R301, R323). -/
def State.manRef (s : State) (g : Nat) (r : IngRec) : Except Nat (Bool × Int) :=
  let key := manF r.entry 0 8
  let shard := fld key 47 32
  if shard ≥ wfld (s.cfgAt g (rPipe r.pipe + 0x18)) 43 27 then .error stFORMAT
  else match s.ingRd 0 ((wfld (s.cfgAt g (rPipe r.pipe + 0x10)) 43 0 + 16 * shard : Nat) : Int) 16 with
    | .error e => .error e
    | .ok b =>
      let v := leNat (b.drop 8)
      if fld v 5 1 ≠ 0 then .error stINVALID
      else
        let base := if bit v 0 then put (fld v 63 6) 6 58 else put (fld v 43 6) 6 38
        .ok (bit v 0, (base + 64 * (key % 2 ^ 32) : Nat))

/-! ### Keys (R172, R175) -/

/-- Pin a record to its slot's current key copy: the status that ends it, or the state and its pin; no pin while the cache
is full of pinned entries. -/
def State.pinKey (s : State) (inst : Nat) (m : List Byte) : Except Nat (State × Option (Nat × Nat)) :=
  let sl := manF m 0x16 2
  if !s.vaultUp then .error stFENCED
  else match (s.vlt.slot sl).key with
    | none => .error stKEY_EMPTY
    | some k =>
      if sl ≥ 4096 then .error stKEY_EMPTY
      else if k.dataset ≠ manF m 0x18 4 then .error stDENIED
      else
        let g := s.vlt.slotGen sl
        let l : List CachedKey := tget [] s.vlt.cache inst
        let put (s : State) (l : List CachedKey) : State := { s with vlt := { s.vlt with cache := tset [] s.vlt.cache inst l } }
        if l.any (fun c => c.slot = sl && c.gen = g) then
          .ok (put s (l.map (fun (c : CachedKey) => if c.slot = sl && c.gen = g then { c with pins := c.pins + 1 } else c)), some (sl, g))
        else
          let e : CachedKey := { slot := sl, gen := g, key := k.key, pins := 1 }
          let s := s.bump (bVLT + 0x48) 1
          if l.length < 64 then .ok (put s (l ++ [e]), some (sl, g))
          else if l.any (fun c => c.pins = 0) then .ok (put s (l.eraseP (fun c => c.pins = 0) ++ [e]), some (sl, g))
          else .ok (s, none)

/-- The key copy a record is pinned to; none once it was cleared (R173). -/
def State.pinnedKey (s : State) (r : IngRec) : Option (List Byte) :=
  r.pin.bind (fun p => ((tget [] s.vlt.cache r.inst).find? (fun c => c.slot = p.1 && c.gen = p.2)).map CachedKey.key)

/-! ### Sources (R331, R335) -/

/-- Requests of a host read: pieces cut at 4 KiB boundaries and Max Read Request Size (R331, R618). -/
def hostCuts (mrrs : Nat) : Nat → Nat → Nat → List (Nat × Nat)
  | 0, _, _ => []
  | fuel + 1, a, n =>
    if n = 0 then []
    else
      let k := min n (min (max 1 mrrs) (4096 - a % 4096))
      (a, k) :: hostCuts mrrs fuel (a + k) (n - k)

/-- A tag not in use and not quarantined (R619). -/
def Hif.freeTag (h : Hif) : Nat :=
  ((List.range (h.reads.length + h.quarantine.length + 1)).find? (fun t => (tget none h.reads t).isNone && !h.quarantine.contains t)).getD 0

/-- Send read requests to the host for a range (R618). -/
def State.hostAsk (s : State) (a n : Nat) (x : HostRead) : State :=
  (hostCuts (min 4096 s.hif.mrrs) (n + 1) a n).foldl (fun s p =>
    let tag := s.hif.freeTag
    let s := s.emit (.hostRead tag p.1 p.2)
    { s with hif := { s.hif with reads := tset none s.hif.reads tag (some { x with addr := p.1, len := p.2 }) } }) s

def State.setRec (s : State) (r : IngRec) : State :=
  { s with ing := { s.ing with recs := s.ing.recs.map (fun (q : IngRec) => if q.task = r.task && q.idx = r.idx then r else q) } }

def State.recOf (s : State) (t i : Nat) : Option IngRec := s.ing.recs.find? (fun r => r.task = t && r.idx = i)

/-- Reads that cover a record in a namespace (R335). -/
def IngRec.readCount (r : IngRec) (lba : Nat) : Nat :=
  cdiv ((r.loc + r.stored - 1) / lba - r.loc / lba + 1) (131072 / lba)

/-- Ready connections of a target with room in their queue (R335, R341). -/
def State.readyConns (s : State) (tgt : Nat) : List Nat :=
  ([2 * tgt, 2 * tgt + 1]).filter (fun c => (s.conn c).state = .ready && (s.conn c).reads.length < s.cf (rTgt tgt + 0x10) 31 24)

/-- Send the Reads of a record that its connections take now. -/
def State.sendReads (s : State) (r : IngRec) : State :=
  match r.toSend with
  | none => s
  | some n =>
    (List.range n).foldl (fun s _ =>
      let cs := s.readyConns r.tgt
      match cs[s.ing.turn % max 1 cs.length]?, s.recOf r.task r.idx with
      | some c, some q =>
        let k := s.conn c
        let cid := k.freeCid
        let s := s.setConn c { k with reads := tset none k.reads cid (some { task := r.task, record := r.idx }) }
        let s := (s.setRec { q with toSend := q.toSend.map (· - 1), left := q.left + 1 }).roceSend c "nvme_read"
          (leBytes 2 cid ++ leBytes 4 (manF r.man 4 4))
        { s with ing := { s.ing with turn := s.ing.turn + 1 } }
      | _, _ => s) s

/-- Work out the Reads of a record whose target is connected, and send them: REMOTE for a namespace the target lacks or
whose LBA size is refused (R335). -/
def State.planReads (s : State) (r : IngRec) : State × Option Nat :=
  if r.toSend.isSome then (s.sendReads r, none)
  else
    match ([2 * r.tgt, 2 * r.tgt + 1].map s.conn).find? (fun k => k.state = .ready) with
    | none => (s, none)
    | some k =>
      match k.ns.find? (fun e => e.1 = manF r.man 4 4) with
      | none => (s, some stREMOTE)
      | some (_, lba) =>
        if lba ≠ 512 && lba ≠ 4096 then (s, some stREMOTE)
        else
          let r := { r with toSend := some (r.readCount lba) }
          ((s.setRec r).sendReads r, none)

/-- The source of a record is asked for its stored bytes (R331, R335). -/
def State.askSource (s : State) (r : IngRec) : State × Option Nat :=
  match r.src with
  | 0 => (s.setRec { r with toSend := some 0 }, none)
  | 1 =>
    match s.accErr 1 (r.loc : Nat) r.stored with
    | some e => (s, some e)
    | none => ((s.setRec { r with toSend := some 0 }).hostAsk r.loc r.stored { addr := 0, len := 0, task := some r.task, record := some r.idx }, none)
  | _ =>
    let s := s.setRec r
    let s := (s.tgtPorts r.tgt).foldl (fun s x => s.connStart (2 * r.tgt + x)) s
    if [2 * r.tgt, 2 * r.tgt + 1].all (fun c => (s.conn c).state = .none) then (s, some stREMOTE)
    else s.planReads r

/-- A record takes its key and asks its source. -/
def State.recKey (s : State) (r : IngRec) : State × Option Nat :=
  if !manEnc r.man then s.askSource { r with keyWait := false }
  else match s.pinKey r.inst r.man with
    | .error e => (s.setRec r, some e)
    | .ok (s, none) => (s.setRec { r with keyWait := true }, none)
    | .ok (s, some p) => s.askSource { r with pin := some p, keyWait := false }

/-- A record starts (R329 steps 1 to 3). -/
def State.recStart (s : State) (g : Nat) (r : IngRec) : State × Option Nat :=
  match s.manRef g r with
  | .error e => (s, some e)
  | .ok (host, a) =>
    let s := if host then s.ccRead g a.toNat 64 else s
    match s.ingRd (if host then 1 else 0) a 64 with
    | .error e => (s, some e)
    | .ok m => if s.manBad m then (s, some stINVALID) else s.recKey { r with man := m, started := true }

/-! ### Failure (R330) -/

/-- The damage cause of a record status. -/
def ingCause (st : Nat) : Nat :=
  if st = stAUTH_FAIL then 3 else if st = stPOISON then 4 else if st = stKEY_EMPTY ∨ st = stDENIED then 6
  else if st = stFENCED then 7 else if st = stTIMEOUT ∨ st = stREMOTE then 9 else 1

/-- What a failed record counts (R176, R343). -/
def State.recCount (s : State) (st : Nat) : State :=
  if st = stFORMAT ∨ st = stOVERFLOW then s.err (ingCtr 7)
  else if st = stTIMEOUT then s.err (ingCtr 8)
  else if st = stREMOTE then s.err (ingCtr 9)
  else if st = stAUTH_FAIL then s.err (bVLT + 0x50)
  else s

/-- Admission entries go back ahead of the untaken ones, in order. -/
def State.ringReturn (s : State) (p : Nat) (es : List (List Byte)) (taken : Nat) : State :=
  let pl : Pipe := tget {} s.ldg.pipe p
  let head := pl.admHead - es.length
  let lg := s.pipeF p 6 63 59
  let s := (List.range es.length).foldl (fun s (j : Nat) =>
    s.store (put (s.pipeF p 6 43 4) 4 40 + 16 * ((head + j) % 2 ^ lg)) (es.getD j [])) s
  { s with ldg := { s.ldg with pipe := tset {} s.ldg.pipe p { pl with admHead := head, admOut := pl.admOut - taken } } }

/-- Records of a command, by index. -/
def State.recsOf (s : State) (t : Nat) : List IngRec := s.ing.recs.filter (fun r => decide (r.task = t))

/-- Records of a command fail: it completes with the first one's status, and the others return to their ring. -/
def State.ingFail (s : State) (t : Nat) (bad : List (Nat × Nat)) : State :=
  match bad, s.task t with
  | (i, st) :: _, some x =>
    let stage := wd ((x.stages.getD 0 { kind := 0, op := 0, inst := 0, words := [] }).words) 4 23 21
    let rs := s.recsOf t
    let back := rs.filter (fun r => !bad.any (fun b => b.1 = r.idx))
    let s := bad.foldl (fun s b => s.recCount b.2) s
    let reports := bad.filterMap (fun b => (rs.find? (fun r => r.idx = b.1)).map (fun r =>
      { ticket := r.ticket, stage := stage, fault := true, cause := ingCause b.2, damage := 10000 : Report }))
    let s := s.ingForget t
    let s := { s with ing := { s.ing with recs := s.ing.recs.filter (fun r => decide (r.task ≠ t)) } }
    let s := match rs.head? with
      | some r => s.ringReturn r.pipe (back.map IngRec.entry) rs.length
      | none => s
    (s.bump (ingCtr 3) back.length).endStage t 0
      { status := st, detail := i, result := put bad.length 32 32 + put back.length 0 32, reports := reports }
  | _, _ => s

/-- Do something to records in turn; those that fail fail together. -/
def State.recsDo (s : State) (rs : List IngRec) (f : State → IngRec → State × Option Nat) : State × List (Nat × Nat × Nat) :=
  rs.foldl (fun (a : State × List (Nat × Nat × Nat)) r =>
    let (s, e) := f a.1 r
    match e with
    | some st => (s, a.2 ++ [(r.task, r.idx, st)])
    | none => (s, a.2)) (s, [])

/-- Every command with a failed record ends. -/
def State.failAllOf (s : State) (bad : List (Nat × Nat × Nat)) : State :=
  ((bad.map Prod.fst).eraseDups).foldl (fun s t => s.ingFail t ((bad.filter (fun b => b.1 = t)).map Prod.snd)) s

/-- Records that waited for the key cache of an instance try again. -/
def State.keyRetry (s : State) (inst : Nat) : State :=
  let (s, bad) := s.recsDo (s.ing.recs.filter (fun r => r.inst = inst && r.keyWait)) State.recKey
  s.failAllOf bad

/-- Records of a target whose Reads can be sent now. -/
def State.pumpReads (s : State) (tgt : Nat) : State :=
  let (s, bad) := s.recsDo (s.ing.recs.filter (fun r => r.started && !r.keyWait && r.done.isNone && r.src = 2 && r.tgt = tgt)) State.planReads
  s.failAllOf bad

/-- A target to which no connection is left fails its unfinished records with REMOTE (R335). -/
def State.tgtLost (s : State) (tgt : Nat) : State :=
  if [2 * tgt, 2 * tgt + 1].any (fun c => (s.conn c).state ≠ .none) then s
  else s.failAllOf ((s.ing.recs.filter (fun r => r.started && !r.keyWait && r.done.isNone && r.src = 2 && r.tgt = tgt &&
      (r.toSend ≠ some 0 || r.left ≠ 0))).map (fun r => (r.task, r.idx, stREMOTE)))

/-! ### Framing (R338, R339) -/

def fieldTypes : List Nat := [1, 2, 3, 4, 5, 0xFF]

/-- The fields of a WREC record from its table on: offset, type and length of each; none where it is not well formed. The
body ends at its last field or at that field's zero padding. -/
def wrecFields (b : List Byte) (n : Nat) : Nat → Nat → Option (List (Nat × Nat × Nat))
  | 0, pos =>
    let up := cdiv pos 8 * 8
    if pos = b.length || (up = b.length && (b.drop pos).all (· = 0)) then some [] else none
  | left + 1, pos =>
    let k := n - (left + 1)
    let e := (b.drop (16 + 8 * k)).take 8
    let at' := if k = 0 then pos else cdiv pos 8 * 8
    let len := leNat (e.drop 4)
    if !fieldTypes.contains (leNat (e.take 1)) || !((b.drop pos).take (at' - pos)).all (· = 0) || at' + len > b.length then none
    else (wrecFields b n left (at' + len)).map (fun l => (at', leNat (e.take 1), len) :: l)

/-- R338. -/
def wrec (b : List Byte) : Option (List (Nat × Nat × Nat)) :=
  let f (a n : Nat) : Nat := leNat ((b.drop a).take n)
  let n := f 5 1
  let body := 16 + 8 * n
  if b.length < 16 || f 0 4 ≠ 0x43455257 || f 4 1 ≠ 1 || n = 0 || n > 6 || f 6 2 ≠ 0 || b.length ≠ body + f 8 4 || crc32 (b.drop body) ≠ f 0xC 4 then none
  else wrecFields b n n body

/-- Fields of a plaintext by the framing of its manifest entry. -/
def framed (m b : List Byte) : Option (List (Nat × Nat × Nat)) :=
  if manF m 3 1 = 1 then wrec b
  else if fieldTypes.contains (manF m 0x1C 1) then some [(0, manF m 0x1C 1, b.length)] else none

/-- The information entry (R328). -/
def ingEntry (ticket : Nat) (b : List Byte) (fs : List (Nat × Nat × Nat)) : List Byte :=
  (leBytes 4 ticket ++ leBytes 4 b.length ++ leBytes 2 stOK ++ leBytes 1 fs.length ++ leBytes 5 0 ++
    fs.flatMap (fun f => leBytes 8 (put f.1 0 24 + put f.2.1 24 8 + put f.2.2 32 32)) ++ leBytes 48 0).take 64

/-! ### The end of a record (R329, R337) -/

/-- Plaintext of the stored bytes: decrypted and decompressed into a slot of `cap` bytes; the status that ends the record. -/
def State.recPlain (s : State) (r : IngRec) (b : List Byte) (cap : Nat) : Except Nat (List Byte) :=
  let m := r.man
  let inflate (c : List Byte) : Except Nat (List Byte) :=
    match (if manF m 2 1 = 0 then some c else Config.inflate (manF m 2 1) c) with
    | none => .error stFORMAT
    | some p => if p.length > cap then .error stOVERFLOW else .ok p
  if !manEnc m then inflate b
  else match s.pinnedKey r with
    | none => .error stKEY_EMPTY
    | some k =>
      if !s.vaultUp then .error stFENCED
      else
        let (p, ok) := Config.gcmOpen k ((m.drop 0x20).take 12) (b.take (manF m 0x14 2)) (b.drop (manF m 0x14 2)) ((m.drop 0x30).take 16)
        if ok then inflate p else .error stAUTH_FAIL

/-- The record's stored bytes as its source gave them. -/
def State.recStored (s : State) (r : IngRec) (data : List Byte) : Except Nat (List Byte) :=
  match r.src with
  | 0 => s.ingRd 0 (r.loc % 2 ^ 44 : Nat) r.stored
  | 1 => .ok (s.hostRds r.loc r.stored)
  | _ => .ok data

/-- Host reads of a record that are outstanding. -/
def State.recWaits (s : State) (t i : Nat) : Bool :=
  s.hif.reads.any (fun e => match e.2 with | some h => h.task = some t && h.record = some i | none => false)

/-- Page `pg` of a plaintext, zero beyond its end. -/
def pageOf (b : List Byte) (pg : Nat) : List Byte := ((b.drop (4096 * pg)).take 4096 ++ List.replicate 4096 0).take 4096

/-- The writes of one Bay tile of records (R285, R328). -/
def ingTile (rs : List IngRec) (hout : Bool) (o : Desc) : Work :=
  { reads := []
    writes := rs.flatMap (fun r => match r.done with
      | some (b, e) =>
        (if hout then [] else (List.range (cdiv b.length 4096)).map (fun pg => (5, undigits o.counts [pg, r.idx, 0, 0, 0], pageOf b pg, false))) ++
        [(7, r.idx, e, false)]
      | none => []) }

/-- Some record of the command has finished: its tile is written when the tile's records have, and the command ends with
its last record (R329, R330). -/
def State.ingTiles (s : State) (t i : Nat) : State :=
  match s.task t with
  | none => s
  | some x =>
    let rs := s.recsOf t
    let ws := (x.stages.getD 0 { kind := 0, op := 0, inst := 0, words := [] }).words
    let o := s.descOf t 0 5
    let e := ((List.range 5).map o.cnt).set 1 rs.length
    let t1 := max 1 ((effExt ws e).getD 1 1)
    let mine := rs.filter (fun r => decide (r.idx / t1 = i / t1))
    if mine.any (fun r => r.done.isNone) then s
    else match s.runWorks t 0 [ingTile mine (handsOut x 0) o] with
      | (s, some c) => s.endStage t 0 { status := c }
      | (s, none) =>
        if rs.any (fun r => r.done.isNone) then s
        else
          let hb := if handsOut x 0 then (tileVisits ws e).map (fun j => s.handBytes ws e j 4096 (fun v =>
              match (rs[v.getD 1 0]?).bind IngRec.done with
              | some (b, _) =>
                if v.getD 0 0 < cdiv b.length 4096 then pageOf b (v.getD 0 0)
                else (List.range 4096).map (fun k => BitVec.ofNat 8 (s.freeAt 6 [v.getD 1 0, v.getD 0 0, k]))
              | none => [])) else []
          s.endStage t 0
            { status := stOK, result := rs.length
              reports := rs.map (fun r => { ticket := r.ticket, stage := wd ws 4 23 21, fault := false, cause := 0, damage := 0 }) } hb

/-- A FETCH has its record: what is left of its records goes, and their ring entries are given up (R330). -/
def State.ingTaskEnd (s : State) (t : Nat) : State :=
  let rs := s.recsOf t
  match rs.head? with
  | none => s
  | some r =>
    let s := s.ingForget t
    let s := { s with ing := { s.ing with recs := s.ing.recs.filter (fun q => decide (q.task ≠ t)) } }
    s.ringReturn r.pipe [] rs.length

end Sys2Proof.Machine
end

