-- ==== Sys2Proof/Machine/Ing.lean ====
section
/-! DEFINITION. Ingress: FETCH, its records and their sources (chapter 13). -/

namespace Sys2Proof.Machine

/-- Take up to n entries of a pipeline's admission ring for a task (R327). -/
def State.ringTake (s : State) (t inst p n : Nat) : State :=
  let pl : Pipe := tget {} s.ldg.pipe p
  let lg := s.pipeF p 6 63 59
  let rs := (List.range n).map (fun i =>
    { task := t, idx := i, inst := inst, pipe := p
      entry := s.mem.rds (put (s.pipeF p 6 43 4) 4 40 + 16 * ((pl.admHead + i) % 2 ^ lg)) 16 : IngRec })
  { s with
    ing := { s.ing with recs := s.ing.recs ++ rs }
    ldg := { s.ldg with pipe := tset {} s.ldg.pipe p { pl with admHead := pl.admHead + n, admOut := pl.admOut + n } } }

/-- Records of a task that have not started start, on the instance that runs it. -/
def State.startRecs (s : State) (t inst g : Nat) : State :=
  let (s, bad) := s.recsDo ((s.recsOf t).filter (fun r => !r.started)) (fun s r => s.recStart g { r with inst := inst })
  s.failAllOf bad

/-- R327 to R329: the command takes its admission entries once enough are there, and its records start. -/
def execFetch (t k : Nat) (s : State) : Host.Outcome State Fault Refusal :=
  .next (s.eng t k 0 1 (fun x g s =>
    let p := ingPipe g.words
    let n := (s.descOf t k 5).cnt 1
    let pl : Pipe := tget {} s.ldg.pipe p
    let have' := pl.admTail - pl.admHead
    if !(s.recsOf t).isEmpty then s.startRecs t g.inst x.gen
    else if have' < n && !x.waitOver then s
    else if have' = 0 then (if pl.state = .running then s else s.endStage t k {})
    else
      let s := s.modTask t (fun x => { x with started := true })
      (s.ringTake t g.inst p (min n have')).startRecs t g.inst x.gen))

/-- R327: wait_us has passed. -/
def execFetchWaitExpiry (t : Nat) (s : State) : Host.Outcome State Fault Refusal :=
  .next (s.modTask t (fun x => { x with waitOver := true }))

/-- A record of a running FETCH whose source has answered, with its stage. -/
def State.recReady (s : State) (t i : Nat) : Option (IngRec × Stage) :=
  match s.task t, s.recOf t i with
  | some x, some r =>
    match x.stages.head? with
    | some g =>
      if g.kind = 0 && g.op = 1 && g.res.isNone && s.instRuns g.inst && r.started && !r.keyWait && r.done.isNone &&
         r.toSend = some 0 && r.left = 0 && !s.recWaits t i then some (r, g) else none
    | none => none
  | _, _ => none

/-- R174, R176, R329, R330, R337 to R339: a record is decrypted, decompressed and parsed; `data` are the stored bytes an
NVMe-oF target delivered. -/
def execRecordDone (t i : Nat) (data : List Byte) (s : State) : Host.Outcome State Fault Refusal :=
  match s.recReady t i with
  | none => .next s
  | some (r, g) =>
    if r.src = 2 && data.length ≠ r.stored then .next s
    else match s.recStored r data with
      | .error e => .next ((s.whenB (e = stPOISON) (·.countPoison 1)).ingFail t [(i, e)])
      | .ok b =>
        let s := s.bump (ingCtr 1) b.length
        match s.recPlain r b (4096 * (s.descOf t 0 5).cnt 0) with
        | .error e => .next ((s.ingFail t [(i, e)]).keyRetry g.inst)
        | .ok p =>
          match framed r.man p with
          | none => .next ((s.ingFail t [(i, stFORMAT)]).keyRetry g.inst)
          | some fs =>
            let s := (s.bump (ingCtr 0) 1).bump (ingCtr 2) p.length
            let s := s.whenB r.pin.isSome (fun s =>
              let sl := manF r.man 0x16 2
              match (s.vlt.slot sl).key with
              | some key => if s.vlt.slotGen sl = (r.pin.getD (0, 0)).2 then
                  { s with vlt := { s.vlt with keys := tset {} s.vlt.keys sl { s.vlt.slot sl with key := some { key with records := key.records + 1 } } } }
                else s
              | none => s)
            let s := (s.unpinKey r).setRec { r with pin := none, done := some (p, ingEntry r.ticket p fs) }
            .next ((s.ingTiles t i).keyRetry g.inst)

/-- R331, R651: a record's host read has no completion after host_fetch_us; what arrives later is discarded. -/
def execHostFetchTimeout (t i : Nat) (s : State) : Host.Outcome State Fault Refusal :=
  match s.recOf t i with
  | some r => if s.recWaits t i && r.done.isNone then .next ((s.ingFail t [(i, stTIMEOUT)]).keyRetry r.inst) else .next s
  | none => .next s

/-! ### NVMe over Fabrics (R335, R336) -/

/-- R335: an attempt to connect ends: the target is connected, with the LBA sizes of its namespaces, or 100 ms have passed. -/
def execNvmeConnect (tgt port : Nat) (ok : Bool) (ns : List (Nat × Nat)) (s : State) : Host.Outcome State Fault Refusal :=
  let c := 2 * tgt + port
  let k := s.conn c
  if port ≥ 2 || k.state = .ready then .next s
  else if ok then
    if k.state = .connecting && (s.ethPort port).up then
      .next ((s.setConn c { k with state := .ready, ns := ns, unacked := 0, retries := 0, rnrs := 0 }).pumpReads tgt)
    else .next s
  else .next ((s.setConn c { k with state := .none }).tgtLost tgt)

/-- R335, R336: the response capsule of a Read: it ends a quarantine, or completes the Read with its NVMe status. -/
def execNvmeResponse (tgt port cid status : Nat) (s : State) : Host.Outcome State Fault Refusal :=
  let c := 2 * tgt + port
  let k := s.conn c
  match tget none k.reads cid with
  | none => .next s
  | some rd =>
    let s := s.setConn c { k with reads := tset none k.reads cid none }
    if rd.quar then .next (s.pumpReads tgt)
    else match s.recOf rd.task rd.record with
      | none => .next (s.pumpReads tgt)
      | some r =>
        if status ≠ 0 then .next (((s.ingFail rd.task [(rd.record, stREMOTE)]).keyRetry r.inst).pumpReads tgt)
        else .next ((s.setRec { r with left := r.left - 1 }).pumpReads tgt)

/-- R336, R651: fabric_cmd_ms passes without a Read's response: its chunk and identifier are quarantined. -/
def execFabricCmdTimeout (tgt port cid : Nat) (s : State) : Host.Outcome State Fault Refusal :=
  let c := 2 * tgt + port
  let k := s.conn c
  match tget none k.reads cid with
  | none => .next s
  | some rd =>
    if rd.quar then .next s
    else
      let s := s.setConn c { k with reads := tset none k.reads cid (some { rd with quar := true }) }
      match s.recOf rd.task rd.record with
      | none => .next s
      | some r => .next ((s.ingFail rd.task [(rd.record, stTIMEOUT)]).keyRetry r.inst)

/-- R336: a quarantine has lasted 2 × fabric_cmd_ms: the queue pair disconnects and reconnects, which ends every
quarantine on it. -/
def execQuarantineReconnect (tgt port cid : Nat) (s : State) : Host.Outcome State Fault Refusal :=
  let c := 2 * tgt + port
  let k := s.conn c
  match tget none k.reads cid with
  | none => .next s
  | some rd =>
    if !rd.quar then .next s
    else
      let s := s.setConn c { k with state := .none, reads := k.reads.filter (fun e => match e.2 with | some r => !r.quar | none => false) }
      .next ((s.bump (ingCtr 6) 1).connStart c)

/-- R335: Keep Alive to a connected target, every KATO / 2. -/
def execKeepAlive (tgt : Nat) (s : State) : Host.Outcome State Fault Refusal :=
  .next ([2 * tgt, 2 * tgt + 1].foldl (fun s c => if (s.conn c).state = .ready then s.roceSend c "keep_alive" [] else s) s)

end Sys2Proof.Machine
end

