-- ==== Sys2Proof/Machine/LdgOps.lean ====
section
/-! DEFINITION. The schedule, its permutation, the pin sets and the retirement of batches (chapter 12). -/

namespace Sys2Proof.Machine

/-- An LDG event counter (R320). -/
def ldgCtr (i : Nat) : Nat := bLDG + 0x100 + 8 * i

/-! ### Shards and the schedule (R301 to R304) -/

/-- A read of device memory by the Ledger; nothing where it cannot be made. -/
def State.ldgRd (s : State) (a n : Nat) : Option Nat := if (s.accErr 0 (a : Nat) n).isSome || s.mem.anyPoison a n then none else some (s.mem.le a n)

def State.schedLen (s : State) (p : Nat) : Nat := s.pipeF p 3 63 44
def State.batchSize (s : State) (p : Nat) : Nat := s.pipeF p 0 55 40
def State.reserves (s : State) (p : Nat) : Nat := s.pipeF p 0 39 36
def State.policy (s : State) (p : Nat) : Nat := s.pipeF p 0 62 61
def State.tailShort (s : State) (p : Nat) : Bool := s.cb (rPipe p) 60

/-- The whole schedule as shard numbers (R302). -/
def State.sched (s : State) (p : Nat) : Option (List Nat) :=
  (List.range (s.schedLen p)).mapM (fun i => (s.ldgRd (s.pipeF p 1 43 0 + 4 * i) 4).map (· % 2 ^ 16))

/-- The record count of a shard (R301). -/
def State.shardRecords (s : State) (p sh : Nat) : Option Nat :=
  if sh ≥ s.pipeF p 3 43 27 then some 0 else s.ldgRd (s.pipeF p 2 43 0 + 16 * sh) 4

/-- The sample key of a record (R23). -/
def sampleKey (epoch shard idx : Nat) : Nat := put epoch 48 16 + put shard 32 16 + put idx 0 32

/-- The shuffle word F(i, r) (R304). -/
def State.shuffleWord (s : State) (epoch shard i r : Nat) : Nat :=
  (azimuth (azKey (s.cfg bLDG).toNat (s.cfg (bLDG + 8)).toNat (sampleKey epoch shard r) 65535) [i, 0, 0, 0]).getD 0 0

/-- The half width h of R304: the smallest of at least 1 with 2^(2h) ≥ n. -/
def permHalf (n : Nat) : Nat := ((List.range 17).find? (fun h => 1 ≤ h && n ≤ 2 ^ (2 * h))).getD 16

/-- feistel(x) (R304). -/
def State.feistel (s : State) (epoch shard h x : Nat) : Nat :=
  let r := (List.range 4).foldl (fun (a : Nat × Nat) i =>
    (a.2, a.1 ^^^ (s.shuffleWord epoch shard i a.2 % 2 ^ h))) (x / 2 ^ h, x % 2 ^ h)
  r.1 * 2 ^ h + r.2

/-- Walk the permutation until it falls below n. -/
def State.permWalk (s : State) (epoch shard h n : Nat) : Nat → Nat → Nat
  | 0, x => x
  | fuel + 1, x => if x < n then x else s.permWalk epoch shard h n fuel (s.feistel epoch shard h x)

/-- perm_s(p) on 0 to n - 1 (R304). -/
def State.perm (s : State) (epoch shard n p : Nat) : Nat :=
  let h := permHalf n
  s.permWalk epoch shard h n (2 ^ (2 * h)) (s.feistel epoch shard h p)

/-- Position of a block entry within its shard (R303). -/
def schedPos (sched : List Nat) (w b j : Nat) : Nat :=
  let m := sched.length / w
  let idx := b % m * w + j
  let sh := sched.getD idx 0
  b / m * sched.count sh + (sched.take idx).count sh

/-- Shard of entry j of batch b. -/
def schedShard (sched : List Nat) (w b j : Nat) : Nat := sched.getD (b % (sched.length / w) * w + j) 0

/-- Record counts of the shards a schedule names. -/
def State.shardTable (s : State) (p : Nat) (sched : List Nat) : Option (List (Nat × Nat)) :=
  sched.eraseDups.mapM (fun sh => (s.shardRecords p sh).map (fun n => (sh, n)))

def lookupN (l : List (Nat × Nat)) (k : Nat) : Nat := match l.find? (fun e => e.1 = k) with | some e => e.2 | none => 0

/-- Entry j of batch b is exhausted (R303). -/
def exhausted (sched : List Nat) (recs : List (Nat × Nat)) (w b j : Nat) : Bool :=
  decide (lookupN recs (schedShard sched w b j) ≤ schedPos sched w b j)

/-- The last batch of an epoch: the highest with a main entry not exhausted (R305). -/
def lastBatch (sched : List Nat) (recs : List (Nat × Nat)) (bs w : Nat) : Option Nat :=
  let m := sched.length / w
  let one (idx : Nat) : Option Nat :=
    let sh := sched.getD idx 0
    let before := (sched.take idx).count sh
    let n := lookupN recs sh
    if idx % w ≥ bs || n ≤ before then none else some ((n - 1 - before) / sched.count sh * m + idx / w)
  (List.range sched.length).foldl (fun best i => match best, one i with
    | none, x => x
    | some a, some b => some (max a b)
    | some a, none => some a) none

/-- The first batch at or above `b` of this device's share that is not skipped (R305, R306). -/
def nextBatch (sched : List Nat) (recs : List (Nat × Nat)) (bs w stride b last : Nat) : Option Nat :=
  ((List.range ((last + stride - b) / stride)).map (fun i => b + i * stride)).find? (fun x =>
    x ≤ last && (List.range bs).any (fun j => !exhausted sched recs w x j))

/-! ### Pin sets (R313, R450) -/

/-- Tables that GTH_PIN_p lists. -/
def State.pinTables (s : State) (p : Nat) : List Nat :=
  (List.range 16).filterMap (fun e =>
    let v := s.cf (bGTH + 0x10000 + 0x20 * p + 8 * (e / 4)) (16 * (e % 4) + 15) (16 * (e % 4))
    if bit v 15 then some (v % 4096) else none)

/-- A free pin set. -/
def State.freePin (s : State) : Option Nat := (List.range 1024).find? (fun i => tget {} s.ldg.pins i = {})

/-- A pipeline leaves its current pin set, which frees when no context names it. -/
def State.leavePin (s : State) (p : Nat) : State :=
  let pl := tget {} s.ldg.pipe p
  let s := { s with ldg := { s.ldg with pipe := tset {} s.ldg.pipe p { pl with curPin := 0xFFFF } } }
  if pl.curPin = 0xFFFF then s
  else
    let x := tget {} s.ldg.pins pl.curPin
    let used := x.count ≠ 0 || s.ldg.pipe.any (fun e => e.2.curPin = pl.curPin)
    if used then s else { s with ldg := { s.ldg with pins := tset {} s.ldg.pins pl.curPin {} } }

/-- A new current pin set of a pipeline, where one is free and the pipeline lists tables. -/
def State.newPin (s : State) (p : Nat) : State :=
  let ts := s.pinTables p
  match s.freePin with
  | none => s
  | some i =>
    if ts.isEmpty then s
    else
      let s := s.leavePin p
      let x : PinSet := { tables := ts.map (fun t => (t, match s.verCurrent t with | some v => v.version | none => 0)) }
      { s with ldg := { s.ldg with
          pins := tset {} s.ldg.pins i x
          pipe := tset {} s.ldg.pipe p { tget {} s.ldg.pipe p with curPin := i } } }

/-! ### Retirement (R312) -/

def State.openBatch (s : State) (e : Nat) : Option Batch := tget none s.ldg.batch e

/-- The identifier of an open batch. -/
def Batch.id (b : Batch) : Nat := batchId b.epoch b.pipe b.num

/-- Contexts of a batch in slot order. -/
def Batch.ctxs (b : Batch) : List Nat := (b.mains ++ b.reserves).filterMap Prod.snd

/-- A BATCH trace record (R664). -/
def State.batchTrace (s : State) (id event dsn : Nat) : State :=
  s.trace 0x05 uLDG (leBytes 8 id ++ leBytes 1 event ++ leBytes 3 0 ++ leBytes 4 dsn)

/-- A delivered batch: journalled, its PACKED contexts freed, its entry released. -/
def State.ldgDelivered (s : State) (e dsn : Nat) : State :=
  match s.openBatch e with
  | none => s
  | some b =>
    let s := (s.journal 0x03 b.pipe b.id dsn 0).batchTrace b.id 2 dsn
    let s := (b.ctxs.filter (fun c => (s.ctx c).state = .packed && (s.ctx c).batchRef = e)).foldl State.freeCtx s
    { s with ldg := { s.ldg with batch := tset none s.ldg.batch e none } }

/-- A batch returned undelivered keeps its contexts. -/
def State.ldgUndelivered (s : State) (e dsn : Nat) : State :=
  match s.openBatch e with
  | none => s
  | some b => (s.journal 0x04 b.pipe b.id dsn 0).batchTrace b.id 3 dsn

end Sys2Proof.Machine
end

