-- ==== Sys2Proof/Machine/NglOps.lean ====
section
/-! DEFINITION. Flits, replay and training of the Nguorn ports, shared by the rows of chapter 24. -/

namespace Sys2Proof.Machine

/-- CRC-64 over the first 248 bytes of a flit. The manual names the ECMA-182 polynomial and leaves its bit order open. -/
def flitCrc (b : List Byte) : Nat := Config.crc64 b % 2 ^ 64

/-- Header bits that every flit carries: acknowledgement and cumulative credits (R558). -/
def Port.header (x : Port) : Nat :=
  put (x.expected + 4095) 20 12 + putB x.ackValid 32 +
  put (x.eaten.getD 0 0 / 232) 36 12 + put (x.eaten.getD 1 0 / 232) 48 12 + put (x.eaten.getD 2 0 / 232) 60 12 +
  put (x.eaten.getD 3 0 / 232) 72 12

/-- The 256 bytes of a flit. -/
def flitBytes (hdr : Nat) (payload : List Byte) : List Byte :=
  let b := leBytes 16 hdr ++ (payload ++ List.replicate 232 0).take 232
  b ++ leBytes 8 (flitCrc b)

/-- Send one flit. -/
def State.sendFlit (s : State) (p kind vc seq nak : Nat) (payload : List Byte) : State :=
  let x := s.port p
  let h := kind + (if kind = 1 then put vc 4 2 + put seq 8 12 else 0) + x.header + (if kind = 3 then put nak 84 12 else 0)
  s.emit (.flit p kind seq (flitBytes h payload))

/-- A PAD message of n bytes, n a multiple of 8 (R569). -/
def padMsg (n : Nat) : List Byte := if n = 0 then [] else leBytes 4 0 ++ leBytes 4 n ++ List.replicate (n - 8) 0

/-- Take up to n bytes of a channel's stream: what is taken, what is left, and the messages wholly taken. -/
def takeStream : Nat → List (List Byte) → List Byte × List (List Byte) × Nat
  | _, [] => ([], [], 0)
  | n, m :: ms =>
    if n = 0 then ([], m :: ms, 0)
    else if m.length ≤ n then
      let (b, r, k) := takeStream (n - m.length) ms
      (m ++ b, r, k + 1)
    else (m.take n, m.drop n :: ms, 0)

/-- The CTRL messages still unfinished take their last flit's number as they end. -/
def markCtrl (seq : Nat) : Nat → List (List Byte × Option Nat) → List (List Byte × Option Nat)
  | 0, l => l
  | _, [] => []
  | n + 1, (b, none) :: l => (b, some seq) :: markCtrl seq n l
  | n + 1, (b, some q) :: l => (b, some q) :: markCtrl seq (n + 1) l

/-- A new DATA flit on a channel (R562, R565, R567). -/
def State.sendData (s : State) (p v : Nat) : State :=
  let x := s.port p
  let (b, rest, k) := takeStream 232 (x.tx.getD v [])
  let b := b ++ padMsg (232 - b.length)
  let s := (s.sendFlit p 1 v x.nextSeq 0 b).bump (nglCtr p 0) 1
  s.setPort p { x with
    tx := x.tx.set v rest
    retry := x.retry ++ [{ seq := x.nextSeq, vc := v, data := b }]
    nextSeq := (x.nextSeq + 1) % 4096
    sent := x.sent.set v (x.sent.getD v 0 + 1)
    ctrl := if v = 0 then markCtrl x.nextSeq k x.ctrl else x.ctrl }

/-- A channel has bytes and a credit, and the retry buffer has room (R562, R566). -/
def Port.canSend (x : Port) (v : Nat) : Bool := !(x.tx.getD v []).isEmpty && x.avail v > 0 && x.retry.length < 512

/-- Weight of a channel (R582). -/
def State.weight (s : State) (p v : Nat) : Nat :=
  if v = 1 then s.cf (bNGL + 0x1008 + 0x100 * p) 11 8 else if v = 2 then s.cf (bNGL + 0x1008 + 0x100 * p) 7 4
  else s.cf (bNGL + 0x1008 + 0x100 * p) 3 0

/-- The channel after v in the turn GRSP, GREQ, BATCH (R566). -/
def nextTurn (v : Nat) : Nat := if v = 3 then 2 else if v = 2 then 1 else 3

/-- The channel that the weighted round robin serves now and what is left of its turn. -/
def State.rrPick (s : State) (p : Nat) (x : Port) : Option (Nat × Nat) :=
  if x.rrLeft > 0 && x.canSend x.rrVc then some (x.rrVc, x.rrLeft - 1)
  else
    let a := nextTurn x.rrVc
    let b := nextTurn a
    let c := nextTurn b
    ([a, b, c].find? x.canSend).map (fun v => (v, s.weight p v - 1))

/-- Flits up to and including a sequence number are acknowledged (R562). -/
def Port.acked (x : Port) (seq : Nat) : Port :=
  match x.retry.findIdx? (fun f => f.seq = seq) with
  | none => x
  | some i =>
    let gone := (x.retry.take (i + 1)).map Flit.seq
    { x with
      retry := x.retry.drop (i + 1)
      replay := x.replay.bind (fun r => if r - (i + 1) < (x.retry.drop (i + 1)).length then some (r - (i + 1)) else none)
      ctrl := x.ctrl.filter (fun c => match c.2 with | some q => !gone.contains q | none => true) }

/-- The acknowledgement and credit fields of a good flit (R559). -/
def Port.used (x : Port) (ack : Option Nat) (cum : List Nat) : Port :=
  let x := match ack with | some q => x.acked q | none => x
  { x with freed := (List.range 4).map (fun v => cum.getD v 0 % 4096) }

/-- Start a replay at an index of the retry buffer (R562). -/
def State.startReplay (s : State) (p i : Nat) : State :=
  (s.setPort p { s.port p with replay := some i }).bump (nglCtr p 5) 1

/-- A NAK for the expected number is due, once per number (R560). -/
def Port.wantNak (x : Port) : Port :=
  if x.nakFor = some x.expected then x else { x with nakDue := true, nakFor := some x.expected }

/-- Training takes its next step; RETRAIN keeps its name (R556). -/
def State.trainTo (s : State) (p : Nat) (st : PortState) (sub : Nat) : State :=
  let x := s.port p
  if x.state = .retrain then s.setPort p { x with sub := sub, slot := 0, gotInit := false, peerSeen := false, sentSeen := false }
  else s.portTo p st x.cause

/-- A port is in a training state, by its name or inside RETRAIN. -/
def Port.isIn (x : Port) (st : PortState) (sub : Nat) : Bool := x.state = st || (x.state = .retrain && x.sub = sub)

/-- A RETRAIN attempt begins at FEC_LOCK (R556, R563). -/
def State.toRetrain (s : State) (p cause code : Nat) : State :=
  let s := (s.portTo p .retrain cause).err (nglCtr p 7)
  let s := s.setPort p { s.port p with attempts := 0, sub := 0 }
  s.faultC1 code (uPort p) 0

/-- The port becomes ACTIVE: counters at 0, the peer's credits taken; a fence for exhaustion is lifted and logged, and
waiting messages go (R557, R563). -/
def State.toActive (s : State) (p : Nat) (adv : List Nat) : State :=
  let old := (s.port p).state
  let s := s.setPort p { state := old, cause := (s.port p).cause, peer := (s.port p).peer, adv := adv }
  let s := s.portTo p .active (s.port p).cause
  let s := if (s.funit (uPort p)).state = .fenced || (s.funit (uPort p)).state = .recovering then s.recovered (uPort p) else s
  s.flushWait

end Sys2Proof.Machine
end

