-- ==== Sys2Proof/Machine/Ngl.lean ====
section
/-! DEFINITION. The rows of the Nguorn link: training, flits, replay and the receipt of messages (chapter 24). -/

namespace Sys2Proof.Machine

/-! ### Training (R556, R557) -/

/-- R556: PMD training finishes. -/
def execPmdTrainDone (p : Nat) (s : State) : Host.Outcome State Fault Refusal :=
  if (s.port p).state = .pmdTrain then .next (s.portTo p .fecLock (s.port p).cause) else .next s

/-- R556: eight good codewords. -/
def execFecLockDone (p : Nat) (s : State) : Host.Outcome State Fault Refusal :=
  if (s.port p).isIn .fecLock 0 then .next (s.trainTo p .flitSync 1) else .next s

/-- R556: sixteen good IDLE flits. -/
def execFlitSyncDone (p : Nat) (s : State) : Host.Outcome State Fault Refusal :=
  if (s.port p).isIn .flitSync 1 then .next (s.trainTo p .param 2) else .next s

/-- PARAM refuses the peer: DETECT with cause 4 (R557). -/
def State.paramRefuse (s : State) (p : Nat) : State := (s.portTo p .detect 4).detectExit p

/-- R557: a good INIT flit in PARAM. `seen` is the peer's seen bit. -/
def execInitFlit (p version kind port id count : Nat) (adv : List Nat) (seen : Bool) (ack : Option Nat) (cum : List Nat) (s : State) :
    Host.Outcome State Fault Refusal :=
  let x := s.port p
  if !x.isIn .param 2 then .next s
  else
    let s := s.setPort p (x.used ack cum)
    let bad := version ≠ 1 || (List.range 4).any (fun v => adv.getD v 0 < 8) || (adv.take 4).sum > 4096 ||
      (x.state = .retrain && (match x.peer with | some q => q.id ≠ id | none => false))
    if bad then .next (s.paramRefuse p)
    else
      let y := { s.port p with peer := some { kind := kind, id := id, port := port, count := count }, gotInit := true, peerSeen := (s.port p).peerSeen || seen, adv := adv.take 4 }
      let s := s.setPort p y
      if y.peerSeen && y.sentSeen then .next (s.toActive p (adv.take 4)) else .next s

/-- R556: a training state's limit passes. -/
def execTrainingTimeout (p : Nat) (s : State) : Host.Outcome State Fault Refusal :=
  let c := match (s.port p).state with
    | .pmdTrain => 1 | .fecLock => 2 | .flitSync => 3 | .param => 4 | _ => 0
  if c = 0 then .next s else .next ((s.portTo p .detect c).detectExit p)

/-- R556: a RETRAIN attempt takes more than 2 ms; the third failure gives up. -/
def execRetrainAttemptTimeout (p : Nat) (s : State) : Host.Outcome State Fault Refusal :=
  let x := s.port p
  if x.state ≠ .retrain then .next s
  else if x.attempts + 1 ≥ 3 then .next ((s.portTo p .detect 7).detectExit p)
  else .next (s.setPort p { x with attempts := x.attempts + 1, sub := 0, slot := 0, gotInit := false, peerSeen := false, sentSeen := false })

/-- The payload of an INIT flit (R557). -/
def State.initPayload (s : State) (p : Nat) : List Byte :=
  let x := s.port p
  let c := bNGL + 0x1000 + 0x100 * p
  let pol := match s.vlt.policy with | some b => leNat (b.drop 6 |>.take 2) | none => 0
  leBytes 2 1 ++ leBytes 1 0 ++ leBytes 1 p ++ leBytes 2 s.devId ++ leBytes 2 0 ++
  leBytes 2 (s.cf c 47 38) ++ leBytes 2 (s.cf c 37 28) ++ leBytes 2 (s.cf c 27 18) ++ leBytes 2 (s.cf c 17 8) ++
  leBytes 1 (putB x.gotInit 0 + putB (bit pol 3) 1) ++
  (match x.peer with | some q => if x.gotInit then leBytes 2 q.id ++ leBytes 1 q.port else leBytes 3 0 | none => leBytes 3 0)

/-- A slot in PARAM: an INIT every 64 slots, else an IDLE. -/
def State.paramSlot (s : State) (p : Nat) : State :=
  let x := s.port p
  let s := s.setPort p { x with slot := x.slot + 1, sentSeen := x.sentSeen || (x.slot % 64 = 0 && x.gotInit) }
  if x.slot % 64 ≠ 0 then s.sendFlit p 0 0 0 0 []
  else
    let s := s.sendFlit p 2 0 0 0 (s.initPayload p)
    if x.gotInit && x.peerSeen then s.toActive p x.adv else s

/-! ### Transmission (R562, R566) -/

/-- One replayed flit. -/
def State.replaySlot (s : State) (p i : Nat) : State :=
  let x := s.port p
  match x.retry[i]? with
  | none => s.setPort p { x with replay := none }
  | some f =>
    if f.sends ≥ 8 then s.toRetrain p 5 0x0D
    else
      let s := (s.sendFlit p 1 f.vc f.seq 0 f.data).bump (nglCtr p 6) 1
      s.setPort p { x with
        retry := x.retry.set i { f with sends := f.sends + 1 }
        replay := if i + 1 < x.retry.length then some (i + 1) else none }

/-- R566: one slot of the transmitter. -/
def execFlitSlotTx (p : Nat) (s : State) : Host.Outcome State Fault Refusal :=
  let x := s.port p
  if x.isIn .param 2 then .next (s.paramSlot p)
  else if x.isIn .flitSync 1 then .next (s.sendFlit p 0 0 0 0 [])
  else if x.state ≠ .active then .next s
  else if x.nakDue then
    .next (((s.sendFlit p 3 0 0 x.expected []).setPort p { x with nakDue := false }).bump (nglCtr p 4) 1)
  else match x.replay with
    | some i => .next (s.replaySlot p i)
    | none =>
      if x.canSend 0 then .next (s.sendData p 0)
      else match s.rrPick p x with
        | some (v, left) => .next ((s.setPort p { x with rrVc := v, rrLeft := left }).sendData p v)
        | none => .next (s.sendFlit p 0 0 0 0 [])

/-! ### Reception (R559 to R562) -/

/-- R560: a good DATA flit. -/
def execDataFlitRx (p vc seq : Nat) (payload : List Byte) (ack : Option Nat) (cum : List Nat) (s : State) :
    Host.Outcome State Fault Refusal :=
  let x := s.port p
  if x.state ≠ .active then .next s
  else
    let x := x.used ack cum
    if seq ≠ x.expected then .next (s.setPort p x.wantNak)
    else
      .next ((s.setPort p { x with
        expected := (x.expected + 1) % 4096, ackValid := true, nakFor := none, nakDue := false
        rx := x.rx.set (vc % 4) (x.rx.getD (vc % 4) [] ++ (payload ++ List.replicate 232 0).take 232) }).bump (nglCtr p 1) 1)

/-- R559, R560: a flit that is not good. -/
def execBadFlit (p : Nat) (s : State) : Host.Outcome State Fault Refusal :=
  let x := s.port p
  if x.state = .active then .next ((s.setPort p x.wantNak).err (nglCtr p 3))
  else if x.isIn .flitSync 1 || x.isIn .param 2 then .next (s.err (nglCtr p 3))
  else .next s

/-- R560: a microsecond with the expected number unchanged repeats its NAK. -/
def execNakRepeat (p : Nat) (s : State) : Host.Outcome State Fault Refusal :=
  let x := s.port p
  if x.state = .active && x.nakFor = some x.expected then .next (s.setPort p { x with nakDue := true }) else .next s

/-- R562: a good NAK flit. -/
def execNakRx (p nak : Nat) (ack : Option Nat) (cum : List Nat) (s : State) : Host.Outcome State Fault Refusal :=
  let x := s.port p
  if x.state ≠ .active then .next s
  else
    let x := x.used ack cum
    match x.retry.findIdx? (fun f => f.seq = nak) with
    | none => .next (s.setPort p x)
    | some 0 =>
      if x.replay.isSome then .next (s.setPort p x) else .next ((s.setPort p x).startReplay p 0)
    | some (_ + 1) =>
      let x := x.acked ((nak + 4095) % 4096)
      if x.replay.isSome then .next (s.setPort p x) else .next ((s.setPort p x).startReplay p 0)

/-- R562: the oldest flit stays unacknowledged for replay_ns. -/
def execReplayTimer (p : Nat) (s : State) : Host.Outcome State Fault Refusal :=
  let x := s.port p
  if x.state = .active && !x.retry.isEmpty then .next (s.startReplay p 0) else .next s

/-- R563: retry is exhausted. -/
def execRetryExhausted (p : Nat) (s : State) : Host.Outcome State Fault Refusal :=
  let x := s.port p
  if x.state = .active && !x.retry.isEmpty then .next (s.toRetrain p 5 0x0D) else .next s

/-- R559: a good IDLE flit while ACTIVE. -/
def execIdleFlitRx (p : Nat) (ack : Option Nat) (cum : List Nat) (s : State) : Host.Outcome State Fault Refusal :=
  let x := s.port p
  if x.state = .active then .next (s.setPort p (x.used ack cum)) else .next s

/-- R581: uncorrectable codewords of a second above fec_warn. -/
def execFecWarn (p uncorrectable : Nat) (s : State) : Host.Outcome State Fault Refusal :=
  if (s.port p).state ≠ .disabled && uncorrectable > s.cf (bNGL + 0x10) 31 0 then .next (s.faultC0 0x0F (uPort p) uncorrectable)
  else .next s

/-! ### Messages (R569, R570, R587) -/

/-- Least length of a message of a type, its header and own fields (R571 to R578). -/
def msgMin (type : Nat) : Nat := [8, 0x30, 0x30, 0x20, 0x20, 0x20, 0x28, 0x20, 0x18].getD type 0

/-- Bytes of a channel's stream are consumed (R567). -/
def Port.eat (x : Port) (v n : Nat) : Port :=
  { x with rx := x.rx.set v ((x.rx.getD v []).drop n), eaten := x.eaten.set v (x.eaten.getD v 0 + n) }

/-- A message is discarded and counted. -/
def State.msgDiscard (s : State) (p : Nat) : State := s.err (nglCtr p 9)

/-- R570, R587: the message at the front of a channel's stream: dispatched, discarded, or a framing error. -/
def execMessageRx (p v : Nat) (s : State) : Host.Outcome State Fault Refusal :=
  let x := s.port p
  let b := x.rx.getD v []
  let f (a n : Nat) : Nat := leNat ((b.drop a).take n)
  let len := f 4 4
  if x.state ≠ .active || v ≥ 4 || b.length < 8 then .next s
  else if len % 8 ≠ 0 || len < 8 || len > 16777216 then .next (s.toRetrain p 6 0x0E)
  else if b.length < len then .next s
  else
    let s := s.setPort p (x.eat v len)
    let type := f 0 1
    if type = 0 then .next s
    else if type > 8 || type = 1 || msgVc type ≠ v || len < max 16 (msgMin type) then .next (s.msgDiscard p)
    else if f 0xA 2 ≠ s.devId then .next (s.msgDiscard p)
    else
      let m : RxMsg := { port := p, type := type, poison := bit (f 1 1) 0, srcEp := bit (f 8 2) 15, src := f 8 2 % 2 ^ 14, body := (b.take len).drop 16 }
      let sub := leNat (m.body.take 2)
      let known := type ≠ 8 || (1 ≤ sub && sub ≤ 4) || (0x100 ≤ sub && sub ≤ 0x109)
      let pol := match s.vlt.policy with | some q => leNat (q.drop 6 |>.take 2) | none => 0
      let foreign := (type = 2 && leNat (m.body.take 2) ≠ s.cf (bNGL + 0x8100) 47 32) ||
        (type = 8 && 0x100 ≤ sub && sub ≤ 0x107 && leNat ((m.body.drop 8).take 2) ≠ s.cf (bNGL + 0x8100) 47 32)
      if !known || (type = 8 && sub = 2 && !bit pol 3) || (type = 7 && !m.srcEp) || foreign then .next (s.msgDiscard p)
      else .next { s with ngl := { s.ngl with inbox := s.ngl.inbox ++ [m] } }

/-- R588: a destination's trunk has had no ACTIVE member for unreach_us: its waiting messages are handled. -/
def execUnreachTimeout (toEp : Bool) (d : Nat) (s : State) : Host.Outcome State Fault Refusal :=
  let none' := match s.route toEp d with | some tr => (s.member tr 0).isNone | none => true
  if !none' then .next s
  else
    let key := if toEp then 2048 + d else d
    let mine (w : WaitMsg) : Bool := dstKey w.msg = key
    let gone := s.ngl.wait.filter (fun w => mine w && w.msg.type ≠ 1)
    let s := { s with ngl := { s.ngl with
      wait := s.ngl.wait.filter (fun w => !(mine w && w.msg.type ≠ 1))
      dom := { s.ngl.dom with unreach := (key :: s.ngl.dom.unreach).eraseDups } } }
    let pages := s.ngl.wait.filter (fun w => mine w && w.msg.type = 1)
    .next ((gone ++ pages).foldl (fun s w => s.unreachMsg w.msg) s)

/-! ### Echo (R578) -/

/-- The oldest received message of a type and, for CTRL, a subtype. -/
def State.inMsg (s : State) (type sub : Nat) : Option RxMsg :=
  s.ngl.inbox.find? (fun m => m.type = type && (type ≠ 8 || leNat (m.body.take 2) = sub))

/-- It is taken from the inbox. -/
def State.popMsg (s : State) (m : RxMsg) : State := { s with ngl := { s.ngl with inbox := s.ngl.inbox.erase m } }

/-- A CTRL message (R578). -/
def ctrlMsg (toEp : Bool) (dst sub : Nat) (body : List Byte) : Msg :=
  { dst := dst, toEp := toEp, type := 8, payload := leBytes 2 sub ++ leBytes 6 0 ++ body }

/-- A field of a CTRL body, which starts at offset 0x18 of the message. -/
def RxMsg.fld (m : RxMsg) (a n : Nat) : Nat := leNat ((m.body.drop (8 + a)).take n)

/-- R578: an ECHO_REQ is answered with its token and the time of receipt. -/
def execEchoReq (s : State) : Host.Outcome State Fault Refusal :=
  match s.inMsg 8 3 with
  | none => .next s
  | some m => .next ((s.popMsg m).gateMsg (uPort m.port) (ctrlMsg m.srcEp m.src 4 (leBytes 8 (m.fld 0 8) ++ leBytes 8 s.ns)))

end Sys2Proof.Machine
end

