-- ==== Sys2Proof/Machine/PakOps.lean ====
section
/-! DEFINITION. Batch layouts, build buffers, the batch image and its offers (chapter 21). -/

namespace Sys2Proof.Machine

/-! ### State access -/

/-- A field of PAK_PIPE_p in the current configuration: word, high bit, low bit (R507). -/
def State.pakF (s : State) (p w hi lo : Nat) : Nat := s.cf (rPak p + 8 * w) hi lo
/-- The pipeline delivers to the host. -/
def State.pakHost (s : State) (p : Nat) : Bool := s.cb (rPak p) 63

def State.pakPipe (s : State) (p : Nat) : PakPipe := tget {} s.pak.pipe p
def State.setPakPipe (s : State) (p : Nat) (x : PakPipe) : State := { s with pak := { s.pak with pipe := tset {} s.pak.pipe p x } }
def State.pakBatch (s : State) (e : Nat) : Option PakBatch := tget none s.pak.batch e
def State.setPakBatch (s : State) (e : Nat) (x : Option PakBatch) : State := { s with pak := { s.pak with batch := tset none s.pak.batch e x } }
def State.pakDest (s : State) (k : Nat) : Dest := tget {} s.pak.dest k
def State.setPakDest (s : State) (k : Nat) (x : Dest) : State := { s with pak := { s.pak with dest := tset {} s.pak.dest k x } }

/-- A counter of a PAK instance (R508). -/
def pakCtr (bay k : Nat) : Nat := bPAK + 0x1000 + 0x100 * (bay - 44) + 8 * k

/-! ### Layouts and sizes (R488 to R490, R499, R500) -/

/-- Token slots of an image array rounded to pages. -/
def pages (n : Nat) : Nat := cdiv n 4096

/-- Pages of a field's image (R499). -/
def PakField.pages (f : PakField) (bs : Nat) : Nat :=
  if f.packed then
    Machine.pages (f.maxRows * f.rowLen * f.tokBytes) + Machine.pages (f.maxRows * f.rowLen * 2) + Machine.pages (f.maxRows * f.rowLen * 4)
  else Machine.pages (bs * f.size)

/-- Bytes of the longest trailer (R500). -/
def trailerMax (fs : List PakField) (bs : Nat) : Nat :=
  64 + 16 * fs.length + 16 * bs + 8 * cdiv bs 64 + 8 * bs * (fs.filter PakField.packed).length

/-- First page of field i, and of the trailer at i = length. -/
def fieldPage (fs : List PakField) (bs i : Nat) : Nat := ((fs.take i).map (·.pages bs)).sum

def pageCount (fs : List PakField) (bs : Nat) : Nat := fieldPage fs bs fs.length + Machine.pages (trailerMax fs bs)

/-- Bytes of a field's part of a staging slot (R489). -/
def PakField.part (f : PakField) : Nat := up64 (if f.packed then f.size * f.tokBytes else f.size)

/-- Offset of a field's part in a staging slot, and the slot's size at i = length. -/
def partOff (fs : List PakField) (i : Nat) : Nat := 64 + ((fs.take i).map PakField.part).sum

/-- Address of a staging slot. -/
def stageAddr (addr : Nat) (fs : List PakField) (bs slot : Nat) : Nat := addr + 4096 * pageCount fs bs + slot * partOff fs fs.length

/-- A field entry of a layout block, unless it breaks R488. -/
def PakField.ofBytes (b : List Byte) : Option PakField :=
  let f (a n : Nat) : Nat := leNat ((b.drop a).take n)
  let x : PakField := { packed := f 0 1 = 1, tokBytes := f 1 1, maxRows := f 2 2, size := f 4 4, rowLen := f 8 4, padId := f 0xC 4 }
  let good := f 0 1 ≤ 1 && f 0x10 16 = 0 &&
    (if f 0 1 = 1 then (f 1 1 = 2 || f 1 1 = 4) && 1 ≤ f 2 2 && 1 ≤ f 8 4 && f 8 4 ≤ 131072 && 1 ≤ f 4 4 && f 4 4 ≤ f 8 4
     else f 1 1 = 0 && f 2 2 = 0 && 1 ≤ f 4 4 && f 4 4 ≤ 16777216 && f 8 4 = 0)
  if good then some x else none

/-- The layout block of a pipeline, where every check of R490 passes. -/
def State.readLayout (s : State) (p : Nat) : Option (List PakField) :=
  let a := put (s.pakF p 0 43 6) 6 38
  let f (o n : Nat) : Option Nat := s.ldgRd (a + o) n
  match f 0 4, f 4 2, f 6 1, f 7 57 with
  | some magic, some ver, some n, some rsv =>
    if magic ≠ 0x4C4B5057 || ver ≠ 1 || n < 1 || n > 8 || rsv ≠ 0 then none
    else
      let fs := (List.range n).mapM (fun i => (s.ldgRd (a + 0x40 + 32 * i) 32).bind (fun v => PakField.ofBytes (leBytes 32 v)))
      fs.filter (fun fs =>
        let bs := s.batchSize p
        decide (4096 * pageCount fs bs + (bs + s.reserves p) * partOff fs fs.length ≤ s.pakF p 2 63 32))
  | _, _, _, _ => none

/-! ### Build buffers (R491) -/

/-- A pipeline's free build buffer of lowest number. -/
def State.freeBuf (s : State) (p : Nat) : Option Nat := (List.range (s.pakF p 2 12 0)).find? (fun i => (tget none s.pak.buf (4096 * p + i)).isNone)

/-- The buffer in use for an open batch of a pipeline. -/
def State.bufOf (s : State) (p e : Nat) : Option (Nat × PakBuf) :=
  (s.pak.buf.filterMap (fun x => match x.2 with
    | some b => if x.1 / 4096 = p && b.entry = e && !b.gone then some (x.1, b) else none
    | none => none)).head?

def State.setBuf (s : State) (k : Nat) (b : PakBuf) : State :=
  { s with pak := { s.pak with buf := tset none s.pak.buf k (if b.gone && b.users.isEmpty then none else some b) } }

/-- Admission takes a buffer for a batch and zeroes the deposit masks of its staging slots. -/
def State.takeBuf (s : State) (p e : Nat) : State :=
  match s.freeBuf p with
  | none => s
  | some i =>
    let addr := put (s.pakF p 1 43 12) 12 32 + i * s.pakF p 2 63 32
    let fs := (s.pakPipe p).fields
    let s := s.setBuf (4096 * p + i) { entry := e, addr := addr }
    (List.range (s.batchSize p + s.reserves p)).foldl (fun s j => s.store (stageAddr addr fs (s.batchSize p) j + 8) [0]) s

/-- A delivered or freed batch gives its buffer up. -/
def State.dropBuf (s : State) (p e : Nat) : State :=
  match s.bufOf p e with
  | some (k, b) => s.setBuf k { b with gone := true }
  | none => s

/-- A command's record is written: it holds no buffer any more. -/
def State.pakTaskEnd (s : State) (t : Nat) : State :=
  s.pak.buf.foldl (fun s x => match x.2 with
    | some b => if b.users.contains t then s.setBuf x.1 { b with users := b.users.filter (fun u => decide (u ≠ t)) } else s
    | none => s) s

/-! ### Builds (R496 to R500, R505) -/

/-- Builds in progress on an instance. -/
def State.buildsOn (s : State) (n : Nat) : Nat :=
  (s.pak.batch.filter (fun x => match x.2 with | some b => b.inst = some n && !b.built | none => false)).length

/-- The instance for a build: powered, not fenced, fewest builds, fewer than 4. -/
def State.buildInst (s : State) : Option Nat :=
  (kindBays 7).foldl (fun best n =>
    if !s.instOk n || s.buildsOn n ≥ 4 then best
    else match best with
      | none => some n
      | some b => if s.buildsOn n < s.buildsOn b then some n else best) none

/-- Closed batches without an instance take one, in entry order. -/
def State.pakAssign (s : State) : State :=
  s.pak.batch.foldl (fun s x => match s.pakBatch x.1 with
    | some b => if b.inst.isNone && !b.built then (match s.buildInst with
        | some n => s.setPakBatch x.1 (some { b with inst := some n })
        | none => s) else s
    | none => s) s

/-- First fit of R497: rows' fills, the place of each entry and the spilled count. -/
def packRows (rowLen maxRows : Nat) : List Nat → List Nat → List (Option (Nat × Nat)) × List Nat × Nat
  | fill, [] => ([], fill, 0)
  | fill, n :: ns =>
    if n = 0 then
      let r := packRows rowLen maxRows fill ns
      (none :: r.1, r.2)
    else match (List.range fill.length).find? (fun r => fill.getD r 0 + n ≤ rowLen) with
      | some r =>
        let q := packRows rowLen maxRows (fill.set r (fill.getD r 0 + n)) ns
        (some (r, fill.getD r 0) :: q.1, q.2)
      | none =>
        if fill.length < maxRows then
          let q := packRows rowLen maxRows (fill ++ [n]) ns
          (some (fill.length, 0) :: q.1, q.2)
        else
          let q := packRows rowLen maxRows fill ns
          (none :: q.1, q.2.1, q.2.2 + 1)

/-- A composition-list entry (R311). -/
def Comp.bytes (c : Comp) : List Byte := leBytes 8 c.key ++ leBytes 1 c.status ++ leBytes 1 c.cause ++ leBytes 2 0 ++ leBytes 4 c.replaced

/-- Bytes padded with zeros to whole pages. -/
def padPages (b : List Byte) : List Byte := b ++ List.replicate ((4096 - b.length % 4096) % 4096) 0

/-- An image as built. -/
structure Image where
  bytes : List Byte
  comp : List Comp
  /-- Keys of the entries masked for poison. -/
  lost : List Nat
  spilled : Nat
  ranges : List (List (Nat × Nat))

/-- The staging slot of a key with a deposit in it. -/
def State.stageOf (s : State) (b : PakBatch) (w key : Nat) : Option Nat :=
  ((List.range w).map (stageAddr b.addr b.fields b.batchSize)).find? (fun a => s.mem.le a 8 = key && s.mem.le (a + 8) 1 ≠ 0)

/-- One placed sample of a packed field: entry, row, start, tokens. -/
abbrev Placed := Nat × Nat × Nat × List Nat

/-- The three arrays of a packed field (R497). -/
def packedImage (f : PakField) (ps : List Placed) : List Byte :=
  let rowOf (r : Nat) : List Placed := ps.filter (fun p => p.2.1 = r)
  let cells (r : Nat) : List (Nat × Nat × Nat) :=
    let used := (List.range (rowOf r).length).flatMap (fun i =>
      match (rowOf r)[i]? with
      | some p => (List.range p.2.2.2.length).map (fun j => (p.2.2.2.getD j 0, i + 1, j))
      | none => [])
    used ++ List.replicate (f.rowLen - used.length) (f.padId, 0, 0)
  let all := (List.range f.maxRows).flatMap cells
  padPages (all.flatMap (fun c => leBytes f.tokBytes c.1)) ++ padPages (all.flatMap (fun c => leBytes 2 c.2.1)) ++
    padPages (all.flatMap (fun c => leBytes 4 c.2.2))

/-- Build the image of a batch (R496 to R500); the delivery fields stay zero until an offer. -/
def State.buildImage (s : State) (b : PakBatch) (w : Nat) : Image :=
  let fs := b.fields
  let bs := b.batchSize
  let slot (c : Comp) : Option Nat := if c.status ≥ 2 then none else s.stageOf b w c.key
  let cnt (a i : Nat) : Nat := if bit (s.mem.le (a + 8) 1) i then s.mem.le (a + 32 + 4 * i) 4 else 0
  let bad (a : Nat) : Bool := s.mem.anyPoison a 64 || (List.range fs.length).any (fun i => match fs[i]? with
    | some f => bit (s.mem.le (a + 8) 1) i && s.mem.anyPoison (a + partOff fs i) (if f.packed then cnt a i * f.tokBytes else f.size)
    | none => false)
  let lost (c : Comp) : Bool := match slot c with | some a => bad a | none => false
  let comp := b.comp.map (fun c => if lost c then { c with status := 2, cause := 4 } else c)
  let src := b.comp.map (fun c => if lost c then none else slot c)
  let at' (k : Nat) : Option Nat := src.getD k none
  let n := comp.length
  let fields := (List.range fs.length).map (fun i =>
    match fs[i]? with
    | none => (([] : List Byte), 0, 0, ([] : List (Option (Nat × Nat × Nat))))
    | some f =>
      if f.packed then
        let ns := (List.range n).map (fun k => match at' k with | some a => min (cnt a i) f.size | none => 0)
        let (pl, fill, sp) := packRows f.rowLen f.maxRows [] ns
        let ps := (List.range n).filterMap (fun k => match pl.getD k none, at' k with
          | some (r, st), some a => some (k, r, st, (List.range (ns.getD k 0)).map (fun j => s.mem.le (a + partOff fs i + f.tokBytes * j) f.tokBytes))
          | _, _ => none)
        (packedImage f ps, fill.length, sp, (List.range n).map (fun k => (pl.getD k none).map (fun q => (q.1, q.2, ns.getD k 0))))
      else
        let area (k : Nat) : List Byte := match at' k with
          | some a => if bit (s.mem.le (a + 8) 1) i then s.mem.rds (a + partOff fs i) f.size else List.replicate f.size 0
          | none => List.replicate f.size 0
        (padPages ((List.range bs).flatMap area), 0, 0, []))
  let trailer0 := fieldPage fs bs fs.length
  let poison := b.comp.any lost
  let mask := (List.range (cdiv bs 64)).flatMap (fun q => leBytes 8 (((List.range 64).map (fun j => putB (at' (64 * q + j)).isSome j)).sum))
  let segs := ((List.range fs.length).map (fun i => match fs[i]?, fields[i]? with
    | some f, some x => if f.packed then (List.range n).flatMap (fun k => match x.2.2.2.getD k none with
        | some (r, st, len) => leBytes 8 (put r 0 16 + put st 16 24 + put len 40 24)
        | none => leBytes 8 0xFFFF) else []
    | _, _ => [])).flatten
  let head := leBytes 4 0x52544257 ++ leBytes 2 1 ++ leBytes 1 fs.length ++ leBytes 1 (putB poison 0) ++ leBytes 8 b.id ++
    leBytes 4 0 ++ leBytes 2 0 ++ leBytes 2 n ++ leBytes 2 bs ++ leBytes 2 b.substituted ++ leBytes 2 b.masked ++ leBytes 2 b.dropped ++
    leBytes 4 (pageCount fs bs) ++ leBytes 4 trailer0 ++ leBytes 8 0 ++ leBytes 16 0
  let table := (List.range fs.length).flatMap (fun i => match fs[i]?, fields[i]? with
    | some f, some x => leBytes 4 (fieldPage fs bs i) ++
        leBytes 4 (if f.packed then f.maxRows * f.rowLen * (f.tokBytes + 6) else bs * f.size) ++ leBytes 2 x.2.1 ++ leBytes 2 x.2.2.1 ++ leBytes 4 0
    | _, _ => [])
  let trailer := head ++ table ++ comp.flatMap Comp.bytes ++ mask ++ segs
  let tp := Machine.pages (trailerMax fs bs)
  let tail := trailer ++ List.replicate (4096 * tp - trailer.length) 0
  let listOff := 4096 * trailer0 + 64 + 16 * fs.length
  let segOff := listOff + 16 * n + 8 * cdiv bs 64
  let ranges := (List.range n).map (fun k =>
    (listOff + 16 * k, 16) :: (List.range fs.length).flatMap (fun i => match fs[i]?, fields[i]? with
      | some f, some x =>
        let o := 4096 * fieldPage fs bs i
        if f.packed then
          let cells := f.maxRows * f.rowLen
          let segI := segOff + 8 * n * ((fs.take i).filter PakField.packed).length
          (segI + 8 * k, 8) :: (match x.2.2.2.getD k none with
            | some (r, st, len) =>
              let c := r * f.rowLen + st
              let o2 := o + 4096 * Machine.pages (cells * f.tokBytes)
              [(o + c * f.tokBytes, len * f.tokBytes), (o2 + 2 * c, 2 * len), (o2 + 4096 * Machine.pages (cells * 2) + 4 * c, 4 * len)]
            | none => [])
        else [(o + k * f.size, f.size)]
      | _, _ => []))
  { bytes := (fields.map Prod.fst).flatten ++ tail
    comp := comp
    lost := (b.comp.filter lost).map Comp.key
    spilled := (fields.map (fun x => x.2.2.1)).sum
    ranges := ranges }

/-- A declared loss of a sample (R505, R649). -/
def State.declareLoss (s : State) (p key : Nat) (bay : Nat) : State :=
  (((s.journal 0x05 p key 4 0).logOnly 0 0x1B uLDG 4 { declared := true }).err (bFLT + 0x1038)).err (pakCtr bay 10)

/-! ### Destinations and offers (R501 to R506) -/

/-- The destination of a batch: key and, for an endpoint, its ID as the endpoint table names it. -/
def State.destKey (s : State) (p num : Nat) : Nat :=
  if s.pakHost p then 16384 * p
  else 16384 * p + num / max 1 (s.pipeF p 5 31 16) % max 1 (s.pakF p 3 14 0)

def State.destEp (s : State) (k : Nat) : Nat := s.mem.le (s.pakF (k / 16384) 4 43 0 + 2 * (k % 16384)) 2

/-- The report of an offer (R506). -/
def State.offerReport (s : State) (b : PakBatch) (dsn status : Nat) : State :=
  let p := b.pipe
  if !s.cb (rPak p + 0x28) 0 then s
  else
    let n := tget 0 s.pak.rpt p
    let lg := s.pakF p 5 63 59
    let a := put (s.pakF p 5 43 4) 4 40 + 16 * (n % 2 ^ lg)
    let rec0 := leBytes 8 b.id ++ leBytes 4 dsn ++ leBytes 2 status ++ leBytes 1 b.offers ++ leBytes 1 ((n / 2 ^ lg + 1) % 2)
    let s := { s with pak := { s.pak with rpt := tset 0 s.pak.rpt p (n + 1) } }
    if (s.accErr 0 (a : Nat) 16).isSome then s else s.store a rec0

/-- A page message of an offer or a step page. -/
def pageKey (m : Msg) : Nat × Nat × Nat := (leNat (m.payload.take 8), leNat ((m.payload.drop 8).take 4), leNat ((m.payload.drop 16).take 1))

/-- Pages not yet on a port's line are taken back: those at the gate, waiting, and whole in a transmit stream. -/
def State.purge (s : State) (hit : Nat × Nat × Nat → Nat → Bool) : State :=
  let page (m : Msg) : Bool := m.type = 1 && hit (pageKey m) m.dst
  let whole (b : List Byte) : Bool := b.length ≥ 16 && b.length = leNat ((b.drop 4).take 4) && page (msgOf b)
  { s with
    flt := { s.flt with gate := s.flt.gate.filter (fun e => match e.2 with | .msg m => !page m | _ => true) }
    ngl := { s.ngl with
      wait := s.ngl.wait.filter (fun w => !page w.msg)
      port := tmap {} (fun x => { x with tx := x.tx.set 1 ((x.tx.getD 1 []).filter (fun b => !whole b)) }) s.ngl.port } }

/-- The place of an offer's image in the receive area (R501). -/
def State.slotOff (s : State) (b : PakBatch) (dsn : Nat) : Nat :=
  dsn % max 1 (s.pakF b.pipe 3 47 32) * (pageCount b.fields b.batchSize * 4096)

/-- Entries whose bytes lie in a poisoned line of the image are declared lost as it is sent (R505). -/
def State.sendLoss (s : State) (b : PakBatch) (bay : Nat) : State :=
  (List.range b.comp.length).foldl (fun s k =>
    if (b.ranges.getD k []).any (fun r => s.mem.anyPoison (b.addr + r.1) r.2) then
      s.declareLoss b.pipe ((b.comp.getD k { key := 0, status := 0 }).key) bay
    else s) s

/-- Hand on the pages of a destination's offer where nothing holds them: all are sent in order (R502, R503, R505). -/
def State.pushOffer (s : State) (k : Nat) : State :=
  let d := s.pakDest k
  let p := k / 16384
  match d.cur with
  | none => s
  | some o =>
    match s.pakBatch o.entry with
    | none => s
    | some b =>
      let bay := b.inst.getD 44
      let n := pageCount b.fields b.batchSize
      let tp := fieldPage b.fields b.batchSize b.fields.length
      let room := (o.dsn + 2 ^ 32 - wfld (s.reg (bPAK + 0x20000 + 8 * p)) 31 0) % 2 ^ 32 < s.pakF p 3 47 32
      let down := s.flt.state = .stopped || s.flt.state = .c2Recovery
      if o.sent || down || !s.instOk bay || (s.pakHost p && (!s.hostUp || !room)) then s
      else
        let s := s.setPakDest k { d with cur := some { o with sent := true } }
        let s := (s.sendLoss b bay).bump (pakCtr bay 2) n
        if s.pakHost p then
          (List.range n).foldl (fun s i =>
            s.hostStore ((s.pakF p 4 63 0 + s.slotOff b o.dsn + 4096 * i) % 2 ^ 64) (s.mem.rds (b.addr + 4096 * i) 4096)) s
        else
          let ep := s.destEp k % 2 ^ 14
          (List.range n).foldl (fun s i =>
            let body := leBytes 8 b.id ++ leBytes 4 o.dsn ++ leBytes 4 i ++ leBytes 1 0 ++ leBytes 1 p ++ leBytes 2 4096 ++ leBytes 4 0 ++
              leBytes 8 (s.slotOff b o.dsn + 4096 * i) ++ s.mem.rds (b.addr + 4096 * i) 4096
            let m : Msg := { dst := ep, toEp := true, type := 1, payload := body, poison := s.mem.anyPoison (b.addr + 4096 * i) 4096 }
            if i < tp then s.sendMsg bay m else s.gateMsg bay m) s

/-- The current offer of a destination ends without delivery; its batch goes back to the tail of the queue (R503). The
batch's report and journal entry are written, and the counters rise. -/
def State.endOffer (s : State) (k : Nat) (timeout : Bool) : State :=
  let d := s.pakDest k
  match d.cur with
  | none => s
  | some o =>
    let s := s.setPakDest k { d with cur := none, queue := d.queue ++ [o.entry] }
    match s.pakBatch o.entry with
    | none => s
    | some b =>
      let bay := b.inst.getD 44
      let s := s.purge (fun x _ => x.1 = b.id && x.2.1 = o.dsn && x.2.2 = 0)
      let s := (s.ldgUndelivered o.entry o.dsn).offerReport b o.dsn stUNDELIVERED
      let s := s.bump (pakCtr bay 4) 1
      s.whenB timeout (·.err (pakCtr bay 9))

/-- Every offer in progress ends (R504, R647). -/
def State.endOffers (s : State) (which : Option Nat) : State :=
  s.pak.dest.foldl (fun s x => match (s.pakDest x.1).cur with
    | some o =>
      let mine := match which, s.pakBatch o.entry with
        | none, _ => true
        | some n, some b => b.inst = some n
        | some _, none => false
      if mine then s.endOffer x.1 false else s
    | none => s) s

/-- A PAK instance is gone: its builds begin again elsewhere and its offers end (R504). -/
def State.pakLeave (s : State) (n : Nat) : State :=
  let s := s.endOffers (some n)
  let s := { s with pak := { s.pak with
    batch := tmap none (fun (x : Option PakBatch) => x.map (fun (b : PakBatch) => if b.inst = some n then { b with inst := none } else b)) s.pak.batch } }
  s.pakAssign

/-- Every PAK instance that is fenced, or whose domain is not ON, gives up its builds and offers (R504). -/
def State.pakSync (s : State) : State := (kindBays 7).foldl (fun s n => if s.instOk n then s else s.pakLeave n) s

/-- The current offer is delivered (R502): reported to the Ledger, its buffer given up. -/
def State.delivered (s : State) (k : Nat) : State :=
  let d := s.pakDest k
  match d.cur with
  | none => s
  | some o =>
    let s := s.setPakDest k { d with cur := none }
    match s.pakBatch o.entry with
    | none => s
    | some b =>
      let s := (s.bump (pakCtr (b.inst.getD 44) 3) 1).offerReport b o.dsn stOK
      let s := (s.setPakBatch o.entry none).dropBuf b.pipe o.entry
      s.ldgDelivered o.entry o.dsn

end Sys2Proof.Machine
end

