-- ==== Sys2Proof/Machine/FabOps.lean ====
section
/-! DEFINITION. Fabric time, and the shuffle domain's state changes and messages (R518, R589 to R605). -/

namespace Sys2Proof.Machine

/-! ### The domain's configuration (R589, R611) -/

def State.domRole (s : State) : Nat := s.cf (rDom 0) 63 62
def State.domNum (s : State) : Nat := s.cf (rDom 0) 47 32
def State.domTerm (s : State) : Nat := s.cf (rDom 0) 31 16

/-- Member-table entries: index and device, those with bit 15 set. -/
def State.memberTbl (s : State) : List (Nat × Nat) :=
  (List.range (s.cf (rDom 1) 63 52)).filterMap (fun i =>
    let e := s.mem.le (put (s.cf (rDom 2) 43 6) 6 38 + 2 * i) 2
    if bit e 15 then some (i, fld e 10 0) else none)

/-- Every other device of the domain. -/
def State.others (s : State) : List Nat := (s.memberTbl.map Prod.snd).filter (fun d => decide (d ≠ s.devId))

/-- The endpoint of an endpoint-table entry. -/
def State.domEp (s : State) (i : Nat) : Nat := fld (s.mem.le (put (s.cf (rDom 3) 43 6) 6 38 + 2 * i) 2) 13 0

def State.epCount (s : State) : Nat := s.cf (rDom 1) 35 21

def State.setDomn (s : State) (d : Domn) : State := { s with ngl := { s.ngl with dom := d } }

/-- A counter of R612. -/
def fabCtr (k : Nat) : Nat := bNGL + 0xC000 + 8 * k

/-- The domain state changes, with a DOMAIN trace record (R590, R664). -/
def State.domSet (s : State) (st : DomRole) : State :=
  let d := s.ngl.dom
  let s := s.setDomn { d with state := st }
  if d.state = st then s
  else s.trace 0x07 uDomain (leBytes 1 d.state.ctorIdx ++ leBytes 1 st.ctorIdx ++ leBytes 2 d.heldTerm ++ leBytes 2 d.heldRoot)

/-- A domain message waits at the release gate (R641). -/
def State.domSend (s : State) (m : Msg) : State := s.gateMsg uDomain m

/-- One message to each of several destinations. -/
def State.domSendAll (s : State) (m : Nat → Msg) (ds : List Nat) : State := ds.foldl (fun s d => s.domSend (m d)) s

/-- The current (epoch, step); (0, 0) before one is held. -/
def Domn.cur (d : Domn) : Nat × Nat := d.token.getD (0, 0)

/-- Body of ROOT_BEAT, ROOT_CLAIM and ROOT_ACK before the fabric time (R610). -/
def State.rootBody (s : State) (term : Nat) (t : Nat × Nat) : List Byte :=
  leBytes 2 s.domNum ++ leBytes 2 term ++ leBytes 2 t.1 ++ leBytes 2 0 ++ leBytes 8 t.2

/-- The token message (R572). -/
def State.tokenMsg (s : State) (toEp : Bool) (d : Nat) : Msg :=
  let x := s.ngl.dom
  { dst := d, toEp := toEp, type := 2
    payload := leBytes 2 s.domNum ++ leBytes 2 x.cur.1 ++ leBytes 4 0 ++ leBytes 8 x.cur.2 ++ leBytes 8 x.tokenT ++ leBytes 8 x.deadline }

/-- The root issues a token to every endpoint and every other member (R591). -/
def State.issueToken (s : State) (t : Nat × Nat) : State :=
  let s := s.setDomn { s.ngl.dom with
    token := some t, tokenT := s.ns, deadline := s.ns + s.cf (rDom 4) 31 0 * 1000, late := false, doneEps := [] }
  let s := (List.range s.epCount).foldl (fun s i => s.domSend (s.tokenMsg true (s.domEp i))) s
  (s.domSendAll (s.tokenMsg false) s.others).bump (fabCtr 1) 1

/-- Lexicographic order of two (epoch, step) pairs. -/
def stepLt (a b : Nat × Nat) : Bool := a.1 < b.1 || (a.1 = b.1 && a.2 < b.2)

/-- A claimant with its quorum becomes ROOT and issues the latest token it learned (R591, R596, R605). -/
def State.enterRoot (s : State) : State :=
  let d := s.ngl.dom
  let s := s.domSet .root
  let s := s.setDomn { s.ngl.dom with heldRoot := s.devId, heldTerm := s.domTerm, rootHeld := true, lease := false }
  let s := s.whenB (s.timeSrc = 3) State.servoHold
  s.issueToken (d.best.getD (s.cf (rDom 5) 63 48, s.cf (rDom 5) 47 0))

/-- A claim begins, or begins again (R590, R599). -/
def State.startClaim (s : State) : State :=
  let s := s.domSet .claiming
  s.setDomn { s.ngl.dom with acks := [], claimed := false, best := none }

/-- LEAVE with a cause to the held root; a ROOT tells every member (R602, R603). -/
def State.leaveDomain (s : State) (cause : Nat) : State :=
  let d := s.ngl.dom
  if d.state = .out then s
  else
    let dests := if d.state = .root then s.others else if d.rootHeld && d.heldRoot ≠ s.devId then [d.heldRoot] else []
    let s := s.domSendAll (fun x => ctrlMsg false x 0x106 (leBytes 2 s.domNum ++ leBytes 1 cause ++ leBytes 5 0)) dests
    s.domSet .out

/-- The device takes the state its configured role begins with (R590, R603). -/
def State.startRole (s : State) : State :=
  match s.domRole with
  | 0 => s.domSet .out
  | 2 => s.startClaim
  | _ => s.domSet .joining

end Sys2Proof.Machine
end

