-- ==== Sys2Proof/Machine/FltOps.lean ====
section
/-! DEFINITION. C2 recovery and the fault that a health pair confirms (R637, R639, R647, R649, R650). -/

namespace Sys2Proof.Machine

/-- The staging set empties at a C2 fault; the generations stay (R152, R647 step 5). -/
def Stg.c2 (g : Stg) : Stg := { gens := g.gens }

/-- Engine work that was under way is forgotten; device memory and configuration stay (R647 step 5). -/
def State.spineInit (s : State) : State :=
  let l := s.ldg
  { s with
    stg := s.stg.c2
    str := {}
    gth := { s.gth with fetch := [], slots := tmap {} (fun (x : ReadSlot) => if x.req.isSome then { x with gen := (x.gen + 1) % 256, req := none } else x) s.gth.slots }
    pak := { s.pak with buf := [], batch := [], dest := tmap {} (fun (d : Dest) => { d with queue := [], cur := none }) s.pak.dest }
    ldg := { l with pipe := tmap {} (fun (p : Pipe) => { p with state := .disabled, admTail := 0, admHead := 0, admOut := 0, ctxWait := false }) l.pipe, lastAdmit := 255, flush := none } }

/-- A C2 fault: steps 1 to 5 of R647. -/
def State.faultC2 (s : State) (code unit : Nat) (detail : Nat := 0) (fl : LogFlags := {}) : State :=
  if s.flt.state = .stopped then (s.faultRec 2 code unit detail 0 fl).noteFault unit
  else
  let s := s.lateVoid unit
  let void := fl.void || s.crowded unit
  let seq := s.flt.tail
  let s := (s.faultRec 2 code unit detail 0 { fl with void := void }).noteFault unit (if void then none else some seq)
  let s := { s with flt := { s.flt with state := .c2Recovery } }
  let s := s.logOnly 2 0x1D unit 1 {}
  let s := s.leaveDomain 2
  let s := { s with ldg := { s.ldg with stopped := true } }
  let s := s.taskList.foldl (fun s e => (s.setTask e.1 (some (e.2.failAll stFENCED))).dropStreamsOf e.1) s
  let s := s.taskList.foldl (fun s e => s.ingForget e.1) { s with que := { s.que with reissue := [] }, ing := {} }
  let s := s.endOffers none
  let s := s.flushJournal
  (s.freeAll.clrBits rStgStatus (fLate + fForeign + fDropped)).spineInit

/-! ### The journal as recovery reads it (R318) -/

/-- An entry of the retention buffer that holds a sequence number with a right CRC. -/
def State.retEntry (s : State) (q : Nat) : Option (List Byte) :=
  let e := tget [] s.ldg.ret (q % 1024)
  if e.length = 32 && leNat (e.take 4) = q && leNat (e.drop 28) = crc32 (e.take 28) then some e else none

/-- Entries from the newest back, as far as they are contiguous. -/
def State.retBack (s : State) : Nat → Nat → List (List Byte)
  | 0, _ => []
  | fuel + 1, q => match s.retEntry q with
    | some e => e :: s.retBack fuel ((q + 2 ^ 32 - 1) % 2 ^ 32)
    | none => []

/-- The id of a pipeline's last CHECKPOINT. -/
def lastCheckpoint (es : List (List Byte)) (p : Nat) : Option Nat :=
  (es.find? (fun e => leNat ((e.drop 4).take 1) = 6 && leNat ((e.drop 5).take 1) = p)).map (fun e => leNat ((e.drop 8).take 8))

/-- The retained entries, newest first. -/
def State.retained (s : State) : List (List Byte) := s.retBack 1024 ((s.ldg.seq + 2 ^ 32 - 1 - s.ldg.queue.length) % 2 ^ 32)

/-- The journal is intact: the retained entries reach back to a CHECKPOINT of every enabled pipeline. -/
def State.journalIntact (s : State) : Bool := s.ldg.retValid && s.pipesOn.all (fun p => (lastCheckpoint s.retained p).isSome)

/-- The class of a health-pair fault of a unit; none where R639 gives it none. -/
def unitClass (u : Nat) : Option Nat :=
  if u = uLDG ∨ u = uSTR ∨ u = uSTG then some 2
  else if u = uTEL then some 0
  else if (0xB0 ≤ u ∧ u ≤ 0xB7) ∨ u = uIsland 3 ∨ u = uIsland 25 ∨ (uIsland 11 ≤ u ∧ u ≤ uIsland 14) then some 3
  else if u ≤ 0x35 ∨ (0x41 ≤ u ∧ u ≤ 0x59) ∨ (0x80 ≤ u ∧ u ≤ 0x91) ∨ u = uHIF ∨ u = uVLT ∨ u = uNVC then some 1
  else none

end Sys2Proof.Machine
end

