-- ==== Sys2Proof/Machine/Ldg.lean ====
section
/-! DEFINITION. The rows of the Sample Ledger: admission, reports, binding, closing and the journal (chapter 12). -/

namespace Sys2Proof.Machine

/-! ### Closing a batch (R309 to R311) -/

/-- A context that enters CORRUPT (R310). -/
def State.corrupt (s : State) (n cause stage : Nat) : State :=
  let c := s.ctx n
  (s.setCtx n { c with state := .corrupt, cause := cause, stage := stage }).bump (ldgCtr 4) 1

/-- A main slot is resolved: ABSENT, COMPLETE, CORRUPT, or PACKED once closed. -/
def State.resolved (s : State) (x : Nat × Option Nat) : Bool :=
  match x.2 with
  | none => true
  | some n => (s.ctx n).state ≠ .active

/-- What the binding of one shard has decided so far: slots bound to reserves, slots without one, and whether it waits. -/
structure Binding where
  bound : List (Nat × Nat) := []
  missed : List Nat := []
  waits : Bool := false

/-- Bind the corrupt slots of a shard to its reserves, in order (R309). -/
def State.bindShard (s : State) : List Nat → List Nat → Binding
  | [], _ => {}
  | slot :: slots, [] => let r := s.bindShard slots []; { r with missed := slot :: r.missed }
  | slot :: slots, r :: rs =>
    match (s.ctx r).state with
    | .complete => let x := s.bindShard slots rs; { x with bound := (slot, r) :: x.bound }
    | .corrupt => s.bindShard (slot :: slots) rs
    | _ => { waits := true }

/-- Slots that hold a place of the batch under its policy. -/
def corruptSlots (s : State) (b : Batch) (sh : Nat) : List Nat :=
  (List.range b.mains.length).filter (fun i => match b.mains[i]? with
    | some (x, some n) => x = sh && (s.ctx n).state = .corrupt
    | _ => false)

/-- Bindings made so far by a reserve whose context names a main slot (R309). -/
def boundTo (s : State) (b : Batch) (slot : Nat) : Option Nat :=
  (b.reserves.filterMap Prod.snd).find? (fun r => (s.ctx r).slot = slot)

/-- The binding of one shard, once all its main slots are resolved: new bindings and misses are applied and counted. -/
def State.bindOne (s : State) (e sh : Nat) : State × Bool :=
  match s.openBatch e with
  | none => (s, true)
  | some b =>
    if (b.mains.filter (fun x => x.1 = sh)).any (fun x => !s.resolved x) then (s, false)
    else
      let rs := (b.reserves.filter (fun x => x.1 = sh)).filterMap Prod.snd
      let free := rs.filter (fun r => b.mains.length ≤ (s.ctx r).slot)
      let slots := (corruptSlots s b sh).filter (fun i => (boundTo s b i).isNone && !b.missed.contains i)
      let r := s.bindShard slots free
      let s := r.bound.foldl (fun s x =>
        let s := s.setCtx x.2 { s.ctx x.2 with slot := x.1 }
        let s := match b.mains[x.1]? with
          | some (_, some n) => s.setCtx n { s.ctx n with link := some x.2 }
          | _ => s
        s.bump (ldgCtr 5) 1) s
      let s := s.bump (ldgCtr 10) r.missed.length
      ({ s with ldg := { s.ldg with batch := tset none s.ldg.batch e (some { b with missed := b.missed ++ r.missed }) } }, !r.waits)

/-- The composition entry of one main slot; none where it is left out (R310, R311). -/
def State.compSlot (s : State) (b : Batch) (i : Nat) : Option Comp :=
  match b.mains[i]? with
  | none => none
  | some (sh, none) =>
    if s.tailShort b.pipe then none else some { key := Config.absentKey b.id sh i % 2 ^ 64, status := 3 }
  | some (_, some n) =>
    let c := s.ctx n
    if c.state ≠ .corrupt then some { key := c.key, status := 0 }
    else match s.policy b.pipe with
      | 1 => none
      | 2 => some { key := c.key, status := 2, cause := c.cause }
      | _ => match c.link with
        | some r => some { key := (s.ctx r).key, status := 1, cause := c.cause, replaced := c.key % 2 ^ 32 }
        | none => some { key := c.key, status := 2, cause := c.cause }

/-- Close a resolved batch: contexts, counters, journal, and the composition list to PAK (R310, R496). -/
def State.closeNow (s : State) (e : Nat) (b : Batch) : State :=
  let comp := (List.range b.mains.length).filterMap (s.compSlot b)
  let corr := (b.mains.filterMap Prod.snd).filter (fun n => (s.ctx n).state = .corrupt)
  let sub := (comp.filter (fun c => c.status = 1)).length
  let masked := (comp.filter (fun c => c.status = 2)).length
  let dropped := if s.policy b.pipe = 1 then corr.length else 0
  let keep := (b.mains.filterMap Prod.snd).filter (fun n => (s.ctx n).state = .complete) ++
    (b.reserves.filterMap Prod.snd).filter (fun r => (s.ctx r).slot < b.mains.length)
  let unused := (b.reserves.filterMap Prod.snd).filter (fun r => b.mains.length ≤ (s.ctx r).slot)
  let s := keep.foldl (fun s n => s.setCtx n { s.ctx n with state := .packed }) s
  let s := (corr ++ unused).foldl State.freeCtx s
  let s := (s.bump (ldgCtr 9) unused.length).bump (ldgCtr 7) dropped
  let s := s.whenB (s.policy b.pipe = 2) (·.bump (ldgCtr 6) masked)
  let s := { s with ldg := { s.ldg with batch := tset none s.ldg.batch e (some { b with closed := true }) } }
  let s := s.journal 0x02 b.pipe b.id (put comp.length 0 16 + put sub 16 16 + put masked 32 16 + put dropped 48 16) 0
  let s := s.batchTrace b.id 1 0
  let buf := match s.bufOf b.pipe e with | some (_, x) => x.addr | none => 0
  (s.setPakBatch e (some { pipe := b.pipe, id := b.id, addr := buf, fields := (s.pakPipe b.pipe).fields, batchSize := b.mains.length
                           comp := comp, substituted := sub, masked := masked, dropped := dropped })).pakAssign

/-- Bind what can be bound and close the batch where it is resolved; a full journal holds the close (R316). -/
def State.tryClose (s : State) (e : Nat) : State :=
  match s.openBatch e with
  | none => s
  | some b =>
    if b.closed then s
    else
      let (s, done) := if s.policy b.pipe = 0 then
          ((b.mains.map Prod.fst).eraseDups).foldl (fun r sh => let (s, d) := r.1.bindOne e sh; (s, r.2 && d)) (s, true)
        else (s, true)
      match s.openBatch e with
      | none => s
      | some b => if done && b.mains.all s.resolved && s.jrnRoom 1 then s.closeNow e b else s

/-! ### Reports and deadlines (R307, R308) -/

/-- The line of the Ledger store that holds a context is poisoned (R639 code 0x17). -/
def State.ctxBad (s : State) (n : Nat) : Bool := s.mem.poisoned (storeAddr (32 * n))

/-- A report is applied. A stage that the pipeline does not wait for is recorded like any other. -/
def State.applyReport (s : State) (r : Report) : State :=
  let n := r.ticket % 2 ^ 21
  let c := s.ctx n
  if s.ctxBad n then s.faultC2 0x17 uLDG n
  else if !s.ticketCur r.ticket then s.bump (ldgCtr 0) 1
  else if c.state = .corrupt || bit c.done r.stage then s.bump (ldgCtr 1) 1
  else
    let more := r.damage > c.damage
    let c := { c with
      done := c.done + 2 ^ r.stage
      damage := if more then r.damage else c.damage
      cause := if more then r.cause else c.cause
      stage := if more then r.stage else c.stage }
    let s := s.setCtx n c
    if c.state ≠ .active then s
    else
      let thr := let v := s.pipeF c.pipe 0 27 14; if v = 0 then 200 else v
      let mask := s.pipeF c.pipe 0 35 28
      if r.fault then (s.corrupt n r.cause r.stage).tryClose c.batchRef
      else if c.damage > thr then (s.corrupt n c.cause c.stage).tryClose c.batchRef
      else if (List.range 8).all (fun k => !bit mask k || bit c.done k) then (s.setCtx n { c with state := .complete }).tryClose c.batchRef
      else s

/-- R308: a context is still ACTIVE at its deadline. -/
def execSampleDeadline (slot : Nat) (s : State) : Host.Outcome State Fault Refusal :=
  let c := s.ctx slot
  let ms := match s.openBatch c.batchRef with | some b => b.sampleMs | none => 0
  let us := s.ns / 1000 % 2 ^ 32
  if s.ctxBad slot then .next (s.faultC2 0x17 uLDG slot)
  else if c.state = .active && (us + 2 ^ 32 - c.admitUs) % 2 ^ 32 ≥ ms * 1000 then
    .next (((s.corrupt slot 5 c.stage).bump (ldgCtr 8) 1).tryClose c.batchRef)
  else .next s

/-! ### Admission (R300, R306) -/

/-- R300: every context is FREE and admission may begin. -/
def execLedgerInitDone (s : State) : Host.Outcome State Fault Refusal :=
  if s.mainRunning then .next { s with ldg := { s.ldg with initDone := true } } else .next s

/-- Free contexts (LDG_CTX_FREE). -/
def Ldg.freeCount (l : Ldg) : Nat := 2 ^ 21 - l.freeLo + l.freed.length

/-- Take the context at the head of the free list. -/
def Ldg.takeFree (l : Ldg) : Option (Nat × Ldg) :=
  if l.freeLo < 2 ^ 21 then some (l.freeLo, { l with freeLo := l.freeLo + 1 })
  else match l.freed with
    | n :: ns => some (n, { l with freed := ns })
    | [] => none

/-- The domain gate of a pipeline lets a batch through (R594). -/
def State.domGate (s : State) (p epoch b : Nat) : Bool :=
  let a := bNGL + 0x9000 + 8 * p
  let d := s.ngl.dom
  !s.cb a 63 ||
    ((d.state = .isIn || d.state = .root) && (match d.token with
      | none => false
      | some (E, S) => epoch < E || (epoch = E && b / max 1 (s.cf a 31 0) ≤ S + s.cf (rDom 6) 15 0)))

/-- A batch a pipeline could admit now, as number and entries: shard and key by slot, none where exhausted. -/
structure Cand where
  epoch : Nat
  num : Nat
  mains : List (Nat × Option Nat)
  reserves : List (Nat × Option Nat)

/-- What the schedule gives a pipeline next. -/
inductive NextBatch where
  /-- The tables cannot be read now. -/
  | wait
  /-- No batch of this device's share is left in any epoch. -/
  | none
  /-- The epoch has ended and the pipeline stops there. -/
  | stop
  | batch (c : Cand)

/-- The entries of a batch. -/
def State.candOf (s : State) (p epoch num : Nat) (sched : List Nat) (recs : List (Nat × Nat)) : Cand :=
  let bs := s.batchSize p
  let w := bs + s.reserves p
  let entry (j : Nat) : Nat × Option Nat :=
    let sh := schedShard sched w num j
    if exhausted sched recs w num j then (sh, Option.none)
    else (sh, some (sampleKey epoch sh (s.perm epoch sh (lookupN recs sh) (schedPos sched w num j))))
  { epoch := epoch, num := num, mains := (List.range bs).map entry, reserves := (span bs (s.reserves p)).map entry }

/-- The next batch of a pipeline (R305, R306). -/
def State.nextOf (s : State) (p : Nat) : NextBatch :=
  let pl : Pipe := tget {} s.ldg.pipe p
  let bs := s.batchSize p
  let w := bs + s.reserves p
  let stride := max 1 (s.pipeF p 5 31 16)
  match s.sched p with
  | Option.none => .wait
  | some sched => match s.shardTable p sched with
    | Option.none => .wait
    | some recs => match lastBatch sched recs bs w with
      | Option.none => .none
      | some last => match nextBatch sched recs bs w stride pl.next last with
        | some b => .batch (s.candOf p pl.epoch b sched recs)
        | Option.none =>
          if s.cb (rPipe p) 59 then .stop
          else match nextBatch sched recs bs w stride (s.pipeF p 5 15 0) last with
            | some b => .batch (s.candOf p ((pl.epoch + 1) % 2 ^ 16) b sched recs)
            | Option.none => .none

/-- Write the admission entry of a context (R306). -/
def State.admEntry (s : State) (p key ticket slot : Nat) (res : Bool) : State :=
  let pl : Pipe := tget {} s.ldg.pipe p
  let lg := s.pipeF p 6 63 59
  let a := put (s.pipeF p 6 43 4) 4 40 + 16 * (pl.admTail % 2 ^ lg)
  let s := s.store a (leBytes 8 key ++ leBytes 4 ticket ++ leBytes 2 slot ++ leBytes 2 (putB res 0))
  { s with ldg := { s.ldg with pipe := tset {} s.ldg.pipe p { pl with admTail := pl.admTail + 1 } } }

/-- Admit one entry of a batch: its context goes ACTIVE; the answer names it. -/
def State.admitOne (s : State) (p e slot key : Nat) (res : Bool) : State × Option Nat :=
  match s.ldg.takeFree with
  | none => (s, none)
  | some (n, l) =>
    let s := { s with ldg := l }
    let pin := (tget ({} : Pipe) s.ldg.pipe p).curPin
    let c := s.ctx n
    let s := s.setCtx n { key := key, gen := c.gen, state := .active, reserve := res, pipe := p, batchRef := e, slot := slot
                          pin := pin, admitUs := s.ns / 1000 % 2 ^ 32 }
    let s := if pin = 0xFFFF then s else
      let x : PinSet := tget {} s.ldg.pins pin
      { s with ldg := { s.ldg with pins := tset {} s.ldg.pins pin { x with count := x.count + 1 } } }
    (s.admEntry p key (ticketOf n c.gen) slot res, some n)

/-- Admit the entries of a batch in slot order. -/
def State.admitAll (s : State) (p e : Nat) (res : Bool) : Nat → List (Nat × Option Nat) → State × List (Nat × Option Nat)
  | _, [] => (s, [])
  | slot, (sh, none) :: r => let (s, l) := s.admitAll p e res (slot + 1) r; (s, (sh, none) :: l)
  | slot, (sh, some key) :: r =>
    let (s, n) := s.admitOne p e slot key res
    let (s, l) := s.admitAll p e res (slot + 1) r
    (s, (sh, n) :: l)

/-- A free open-batch entry. -/
def State.freeEntry (s : State) : Option Nat := (List.range 65536).find? (fun e => (s.openBatch e).isNone)

/-- Admit a batch in an entry (R306, R491). -/
def State.admitBatch (s : State) (p e : Nat) (c : Cand) : State :=
  let pl : Pipe := tget {} s.ldg.pipe p
  let s := if pl.epochDue || c.epoch ≠ pl.epoch then s.journal 0x01 p (batchId c.epoch p c.num) 0 0 else s
  let stride := max 1 (s.pipeF p 5 31 16)
  let s := { s with ldg := { s.ldg with
      lastAdmit := p
      pipe := tset {} s.ldg.pipe p { pl with epoch := c.epoch, next := c.num + stride, epochDue := false, ctxWait := false } } }
  let s := s.takeBuf p e
  let (s, ms) := s.admitAll p e false 0 c.mains
  let (s, rs) := s.admitAll p e true c.mains.length c.reserves
  let n := ((ms ++ rs).filterMap Prod.snd).length
  let s := s.bump (ldgCtr 2) n
  let b : Batch := { pipe := p, epoch := c.epoch, num := c.num, mains := ms, reserves := rs, sampleMs := s.cf (bLDG + 0x10) 15 0 }
  { s with ldg := { s.ldg with batch := tset none s.ldg.batch e (some b) } }

/-- What holds a pipeline's next batch back. -/
inductive Hold where
  | go (e : Nat) (c : Cand)
  | gate
  | ctx
  | stop
  | other

/-- The conditions of R306, R490, R491, R594 and R316 for a pipeline. -/
def State.canAdmit (s : State) (p : Nat) : Hold :=
  let pl : Pipe := tget {} s.ldg.pipe p
  if !s.pipeEn p || pl.state ≠ .running then .other
  else match s.nextOf p with
    | .wait | .none => .other
    | .stop => .stop
    | .batch c =>
      if !(s.pakPipe p).ready || (s.openOf p).length > s.pipeF p 0 11 0 || (s.freeBuf p).isNone ||
         !s.jrnRoom 1 then .other
      else
      let n := ((c.mains ++ c.reserves).filterMap Prod.snd).length
      let lg := s.pipeF p 6 63 59
      let ringA := put (s.pipeF p 6 43 4) 4 40
      if !s.domGate p c.epoch c.num then .gate
      else if s.ldg.freeCount < n then .ctx
      else if pl.admTail - pl.admHead + pl.admOut + n > 2 ^ lg || (s.accErr 0 (ringA : Nat) (16 * 2 ^ lg)).isSome then .other
      else match s.freeEntry with
        | some e => .go e c
        | Option.none => .other

/-- Look at the pipelines in turn and admit the first batch that may go. -/
def State.admitTurn (s : State) : List Nat → State
  | [] => s
  | p :: ps =>
    let pl : Pipe := tget {} s.ldg.pipe p
    match s.canAdmit p with
    | .go e c => s.admitBatch p e c
    | .gate => (s.bump (fabCtr 5) 1).admitTurn ps
    | .ctx =>
      let s := s.whenB (!pl.ctxWait) (·.bump (ldgCtr 11) 1)
      ({ s with ldg := { s.ldg with pipe := tset {} s.ldg.pipe p { pl with ctxWait := true } } }).admitTurn ps
    | .stop => ({ s with ldg := { s.ldg with pipe := tset {} s.ldg.pipe p { pl with state := .epochEnd } } }).admitTurn ps
    | .other => s.admitTurn ps

/-- R306: the next pipeline in turn that may admit admits one whole batch. -/
def execBatchAdmit (s : State) : Host.Outcome State Fault Refusal :=
  if !s.running || !s.ldg.initDone || s.ldg.stopped || s.ldg.flush.isSome || s.flt.state = .c2Recovery then .next s
  else .next (s.admitTurn ((span (s.ldg.lastAdmit + 1) 256).map (· % 256)))

/-! ### Pin sets (R313) -/

/-- R313: a version switch of a pipeline makes its pin set and its TABLE_PIN entry, once a set is free. -/
def execPinSetCreate (p table version : Nat) (s : State) : Host.Outcome State Fault Refusal :=
  let pl : Pipe := tget {} s.ldg.pipe p
  if pl.pinWait.contains (table, version) && s.freePin.isSome && s.jrnRoom 1 then
    let s := { s with ldg := { s.ldg with pipe := tset {} s.ldg.pipe p { pl with pinWait := pl.pinWait.erase (table, version) } } }
    .next ((s.newPin p).journal 0x08 p table version 0)
  else .next s

/-! ### The journal (R316) -/

/-- R316: checkpoint_ms passes. -/
def execCheckpointTimer (s : State) : Host.Outcome State Fault Refusal :=
  if s.running && s.jrnRoom s.pipesOn.length && s.ldg.flush.isNone then .next (s.pipesOn.foldl State.checkpoint s) else .next s

/-- Closes that a full journal held are tried again. -/
def State.retryCloses (s : State) : State :=
  (s.ldg.batch.filterMap (fun e => match e.2 with | some b => if b.closed then none else some e.1 | none => none)).foldl State.tryClose s

/-- R316: the oldest queued entry is written to the retention buffer and the ring. -/
def execJournalEntryWrite (s : State) : Host.Outcome State Fault Refusal :=
  match s.ldg.queue with
  | [] => .next s
  | e :: q => .next ((({ s with ldg := { s.ldg with queue := q } }).jrnWrite e).retryCloses)

end Sys2Proof.Machine
end

