-- ==== Sys2Proof/Machine/Flt.lean ====
section
/-! DEFINITION. The rows of faults and recovery (chapter 27), with the fault rows of the clock islands. -/

namespace Sys2Proof.Machine

/-- The switched domain that powers a unit; 0 where it is not switched (R80, R637). -/
def unitDom (u : Nat) : Nat :=
  if u ≤ 0x35 then bayDom u
  else if 0x41 ≤ u ∧ u ≤ 0x59 then islandDom (u - 0x40)
  else if 0x80 ≤ u ∧ u ≤ 0x87 then 4
  else if 0x88 ≤ u ∧ u ≤ 0x8F then 5
  else if u = uEth 0 ∨ u = uEth 1 then 2
  else if u = uHIF then 1
  else if 0xB0 ≤ u ∧ u ≤ 0xB3 then 6
  else if 0xB4 ≤ u ∧ u ≤ 0xB7 then 7
  else 0

/-- What the fencing of an interface does to its link: a Nguorn port behaves as DISABLED (R581), an Ethernet port goes
down, transfers to the host end FENCED (R619). -/
def State.linkFenced (s : State) (u : Nat) : State :=
  if 0x80 ≤ u ∧ u ≤ 0x8F then s.portTo (u - 0x80) .disabled (s.port (u - 0x80)).cause
  else if u = uEth 0 ∨ u = uEth 1 then (List.range 64).foldl State.tgtLost (s.ethDown (u - uEth 0))
  else if u = uHIF then s.hostTransfersFenced
  else s

/-- A C1 fault with what its unit's links and PAK's offers make of it (R642, R644). -/
def State.faultUnit (s : State) (code u : Nat) (detail : Nat := 0) (fl : LogFlags := {}) : State :=
  let s := s.faultC1 code u detail 0 fl
  let s := s.linkFenced u
  let s := if 0x41 ≤ u ∧ u ≤ 0x59 then (islandUnits (u - 0x40)).foldl State.linkFenced s else s
  s.pakSync

/-- A C1 fault of the board clocks: nothing to fence but what the clock feeds (R60). -/
def State.faultClock (s : State) (detail : Nat) : State :=
  let s := s.lateVoid uClocks
  let seq := s.flt.tail
  let void := s.crowded uClocks
  (s.faultRec 1 0x0C uClocks detail 0 { void := void }).noteFault uClocks (if void then none else some seq)

/-- R60: a board clock is declared lost and its response applied. -/
def execRefclkLoss (c : RefClk) (s : State) : Host.Outcome State Fault Refusal :=
  let s := { s with clk := { s.clk with lost := tset false s.clk.lost (refIdx c) true } }
  match c with
  | .sys => .next (s.faultC3 0x0C uClocks 0)
  | .pe => .next (((s.hifReset true).fence uHIF).faultClock 1)
  | .eth => .next (((List.range 64).foldl State.tgtLost ((s.ethDown 0).ethDown 1)).faultClock 2)
  | .ng n =>
    let s := (span (4 * n.val) 4).foldl (fun s p => if (s.port p).state = .disabled then s else s.portTo p .disabled 8) s
    .next (s.faultClock (3 + n.val))

/-- R68: the timing-limit fault of an AVS island, or of a DVFS island at f_min_code, with the class of R55. -/
def execTimingLimitFault (n : Nat) (s : State) : Host.Outcome State Fault Refusal :=
  let i := s.isl n
  if islandKind n = .fixed || i.state = .off || (islandKind n = .dvfs && s.fMin n < i.f) then .next s
  else if islandClass n = 3 then .next (s.faultC3 0x03 (uIsland n) 0)
  else .next (s.faultUnit 0x03 (uIsland n))

/-- R637, R639, R650: a health pair other than 0b01 in two samples confirms a fault of its unit. `prevGood` and
`released` tell whether the sample before read 0b01 and the unit released an effect since its last check. A pair that
FLT_INJECT drives is the one it drives, for two spine cycles (R658). -/
def execHealthFaultConfirm (u : Nat) (pair : Fin 4) (prevGood released : Bool) (s : State) : Host.Outcome State Fault Refusal :=
  let x := s.funit u
  if !s.mainRunning || !unitAssigned u || pair = 1 || !s.domOn (unitDom u) || x.state ≠ .healthy then .next s
  else
    let pr := if x.inj then x.pair else pair.val
    let fl : LogFlags := { void := pr ≠ 2 && prevGood && released }
    let code := if x.inj then 0x19 else if pr = 2 then 1 else 2
    match unitClass u with
    | none => .next s
    | some cls =>
      let s := s.setUnit u { x with pair := if x.inj then 1 else pr, inj := false }
      match cls with
      | 0 => .next ({ s with flt := { s.flt with telUntrusted := true } }.faultC0 code u)
      | 1 => .next (s.faultUnit code u 0 fl)
      | 2 => .next (s.faultC2 code u 0 fl)
      | _ => .next (s.faultC3 code u)

/-- R640: the watchdog of an instance with a task expires. -/
def execWatchdogExpiry (n : Nat) (s : State) : Host.Outcome State Fault Refusal :=
  if s.running && n < 54 && s.instOk n && !(s.tasksOn n).isEmpty then .next (s.faultUnit 0x1C n) else .next s

/-- R641: the oldest effect held at the gate has been due for 2 µs and passes. -/
def execReleaseGatePass (s : State) : Host.Outcome State Fault Refusal :=
  match s.flt.gate with
  | [] => .next s
  | (u, e) :: rest =>
    let s := { s with flt := { s.flt with gate := rest } }
    match e with
    | .report r => .next (s.applyReport r)
    | .msg m => .next (s.sendMsg u m)

/-- A unit that passed its self-test: a port trains and returns at ACTIVE; any other returns at once, an instance with
undefined Bay contents (R643, R645). -/
def State.selfTestPass (s : State) (u : Nat) : State :=
  if 0x80 ≤ u ∧ u ≤ 0x8F then
    (s.setUnit u { s.funit u with state := .fenced }).portStart (u - 0x80)
  else
    let s := s.recovered u
    let s := if u ≤ 0x35 then s.bayUse u [(0, 4194304)] else s
    s.retryWaiting.pakSync

/-- R645: the self-test that FLT runs on a fenced unit ends. -/
def execRecoverySelfTestDone (u : Nat) (pass : Bool) (s : State) : Host.Outcome State Fault Refusal :=
  let x := s.funit u
  let up := 0x80 ≤ u && u ≤ 0x8F && (s.port (u - 0x80)).state ≠ .disabled
  if !unitAssigned u || !(x.state = .fenced || x.state = .recovering) || s.tel.units.contains u || up then .next s
  else if pass then .next (s.selfTestPass u)
  else .next ((s.setUnit u { x with state := .permanent }).refreshFlt)

/-- R645, R658: a PERMANENT unit is tested again. -/
def execFltUnfence (p : Path) (u : Nat) (s : State) : Host.Outcome State Fault Refusal :=
  if s.wgate p (bFLT + 0x68) && unitAssigned u && (s.funit u).state = .permanent then
    .next ((s.setUnit u { s.funit u with state := .recovering }).refreshFlt)
  else .next s

/-- R658: a unit's pair is driven to an error form for two spine cycles. -/
def execFltInject (p : Path) (u : Nat) (wire : Bool) (s : State) : Host.Outcome State Fault Refusal :=
  let x := s.funit u
  if s.wgate p (bFLT + 0x70) && unitAssigned u && s.domOn (unitDom u) && x.state = .healthy then
    .next (s.setUnit u { x with inj := true, pair := if wire then 0 else 2 })
  else .next s

/-- R655: FLT_FIRST is cleared. -/
def execFltFirstClr (p : Path) (s : State) : Host.Outcome State Fault Refusal :=
  if s.wgate p (bFLT + 0x60) then .next { s with flt := { s.flt with first := [], firstValid := false } } else .next s

/-- Admission of a pipeline resumes at the batch that its last CHECKPOINT names (R647 step 6). -/
def State.resumePipe (s : State) (p id : Nat) : State :=
  let x : Pipe := { state := .running, epoch := fld id 63 48, next := fld id 39 0 }
  let s : State := { s with ldg := { s.ldg with pipe := tset {} s.ldg.pipe p x } }
  s.newPin p

/-- R647 steps 6 and 7: the spine has recovered. -/
def execC2RecoveryDone (s : State) : Host.Outcome State Fault Refusal :=
  if s.flt.state ≠ .c2Recovery then .next s
  else
    let u := match s.flt.last with | some (u, _) => u | none => uFLT
    let es := s.retained
    let ok := s.journalIntact
    let s := { s with ldg := { s.ldg with stopped := s.pwr.sleepEntry } }
    let s := if ok then s.pipesOn.foldl (fun s p => s.resumePipe p ((lastCheckpoint es p).getD 0)) s else s
    let s := { s with flt := { s.flt with state := .normal } }.refreshFlt
    let s := s.logOnly 2 0x1D u 2 { void := !ok }
    let s := s.whenB (!ok) (·.err (bFLT + 0x1048))
    .next s.startRole

end Sys2Proof.Machine
end

