-- ==== Sys2Proof/Machine/MediaOps.lean ====
section
/-!
DEFINITION. Pixels: the conversion from decoded samples to output values (R353), and the fields of a record as ING
wrote it (R328).
-/

namespace Sys2Proof.Machine

/-! ### Conversion (R351, R353) -/

/-- A rational coefficient with 16 fraction bits, rounded half up. -/
def coef16 (num den : Int) : Int := (2 * num * 65536 + den) / (2 * den)

/-- Clamp to the values of a depth. -/
def clampD (depth : Nat) (v : Int) : Nat := (clampI 0 (2 ^ depth - 1) v).toNat

/-- Y, Cb and Cr to R, G and B, with the luma weights of red and blue in 1/10,000 and full or limited range. -/
def yccRgb (kr kb : Int) (full : Bool) (depth y cb cr : Nat) : Nat × Nat × Nat :=
  let kg := 10000 - kr - kb
  let top : Int := 2 ^ depth - 1
  let one : Int := 2 ^ (depth - 8)
  let (ny, dy) : Int × Int := if full then (1, 1) else (top, 219 * one)
  let (nc, dc) : Int × Int := if full then (1, 1) else (top, 224 * one)
  let Y : Int := (y : Int) - (if full then 0 else 16 * one)
  let U : Int := (cb : Int) - 2 ^ (depth - 1)
  let V : Int := (cr : Int) - 2 ^ (depth - 1)
  let cY := coef16 ny dy
  let out (a : Int) : Nat := clampD depth ((cY * Y + a + 32768) / 65536)
  (out (coef16 (2 * (10000 - kr) * nc) (10000 * dc) * V),
   out (coef16 (-2 * kb * (10000 - kb) * nc) (10000 * kg * dc) * U + coef16 (-2 * kr * (10000 - kr) * nc) (10000 * kg * dc) * V),
   out (coef16 (2 * (10000 - kb) * nc) (10000 * dc) * U))

/-- The luma weights of matrix_coeffs: BT.601, BT.2020, else BT.709. -/
def lumaWeights (m : Nat) : Int × Int :=
  if m = 5 ∨ m = 6 then (2990, 1140) else if m = 9 then (2627, 593) else (2126, 722)

/-- A value of one depth at another (R353 step 4). -/
def toDepth (d o v : Nat) : Nat := (2 * v * (2 ^ o - 1) + 2 ^ d - 1) / (2 * (2 ^ d - 1))

/-- Bytes of a pixel, its channels, and its output depth (R351). -/
def outFmt (f : Nat) : Nat × Nat × Nat :=
  [(3, 3, 8), (4, 4, 8), (1, 1, 8), (6, 3, 16), (2, 1, 16), (8, 4, 16)].getD f (0, 0, 8)

/-- One output pixel from the decoded components at its place, upsampled: steps 2 to 4 of R353. -/
def convPixel (fmt : Nat) (ycc grey : Bool) (full : Bool) (matrix depth : Nat) (c0 c1 c2 a : Nat) : List Byte :=
  let (_, ch, o) := outFmt fmt
  let b (v : Nat) : List Byte := leBytes (o / 8) (toDepth depth o v)
  if ch = 1 then
    b (if grey || ycc then c0 else (77 * c0 + 150 * c1 + 29 * c2 + 128) / 256)
  else
    let (r, g, bl) := if grey then (c0, c0, c0)
      else if ycc then yccRgb (lumaWeights matrix).1 (lumaWeights matrix).2 full depth c0 c1 c2 else (c0, c1, c2)
    b r ++ b g ++ b bl ++ (if ch = 4 then b a else [])

/-! ### Record fields (R328) -/

/-- A field of a record as its information entry names it: offset, type and length. -/
structure RecField where
  off : Nat
  type : Nat
  len : Nat
  deriving DecidableEq, Repr

/-- Field i of an information entry. -/
def infoField (b : List Byte) (i : Nat) : RecField :=
  let v := leNat ((b.drop (0x10 + 8 * i)).take 8)
  { off := fld v 23 0, type := fld v 31 24, len := fld v 63 32 }

/-- The field that field_sel names: 0 the first of a type, else that number (R348, R372). -/
def selField (b : List Byte) (sel type : Nat) : Option RecField :=
  let n := min 6 (leNat ((b.drop 0xA).take 1))
  let fs := (List.range n).map (infoField b)
  if sel = 0 then fs.find? (fun f => f.type = type) else fs[sel - 1]?

/-- Reads of the pages of slot i that hold a field, and its bytes. -/
def State.fieldRd (s : State) (d : Desc) (i : Nat) (f : RecField) : List El × List Byte :=
  let first := f.off / 4096
  let n := if f.len = 0 then 0 else (f.off + f.len - 1) / 4096 - first + 1
  let els := (span first n).map (fun (p : Nat) => s.elRd d [(p : Int), (i : Int), 0, 0, 0])
  (els, ((els.flatMap El.data).drop (f.off - 4096 * first)).take f.len)

end Sys2Proof.Machine
end

