-- ==== Sys2Proof/Machine/Dec.lean ====
section
/-! DEFINITION. Image and video decode (chapter 14). -/

namespace Sys2Proof.Machine

/-! ### The body and its checks (R348 to R351) -/

def decOut (ws : List Nat) : Nat := wd ws 4 31 28
def decScale (ws : List Nat) : Nat := wd ws 4 21 20
def frameStep (ws : List Nat) : Nat := wd ws 4 7 0
def decDmg (ws : List Nat) : Nat := wd ws 10 31 16
def decWork (ws : List Nat) : Nat := wd ws 10 15 0

/-- Offending words of the tile clause by R350. -/
def decClause (video : Bool) (ws : List Nat) (o : Desc) : List Nat :=
  let t := tExt ws
  let t1 := t.getD 1 0
  (if t.getD 0 0 ≠ o.cnt 0 || (t1 % 16 ≠ 0 && t1 ≠ o.cnt 1) then [12] else []) ++
  (if (if video then t.getD 2 0 = 1 && 1 ≤ t.getD 3 0 && t.getD 3 0 ≤ 4 else 1 ≤ t.getD 2 0 && t.getD 2 0 ≤ 16 && t.getD 3 0 = 1) &&
      t.getD 4 0 = 1 && wd ws 13 7 0 = 0x44 then [] else [13]) ++
  (if wd ws 14 19 5 ≠ 0x4688 then [14] else [])

/-- The checks of a DEC stage. -/
def decInfo (video : Bool) (ws : List Nat) (hout : Bool) : SInfo :=
  let out := decOut ws
  let word4 := wd ws 4 24 22 = 7 || out > 5 ||
    (if video then out = 1 || out ≥ 4 || wd ws 4 21 19 ≠ 0 || frameStep ws = 0 else wd ws 4 18 0 ≠ 0)
  let dim := if video then 3 else 2
  { bad := (if word4 then [4] else []) ++ (if wd ws 11 11 0 ≠ 0 || (!video && wd ws 11 27 12 ≠ 0) then [11] else [])
    refs := [refAt ws 5 false [0], { refAt ws 7 true with shapeOnly := hout }, refId 91 9 (wd ws 9 31 16) false, refId 90 9 (wd ws 9 15 0) true] ++
      (if decDmg ws = 0xFFFF then [] else [refId 101 10 (decDmg ws) true]) ++
      (if decWork ws = 0xFFFF then [] else [{ refId 100 10 (decWork ws) true with anyDir := true, spaces := [0] }])
    out := 7
    rel := fun d =>
      let o := d 7
      let n := o.cnt dim
      (if (d 5).elem ≠ 4096 then [5] else []) ++
      (if o.elem ≠ (outFmt out).1 || (span (dim + 1) (4 - dim)).any (fun k => o.cnt k ≠ 1) then [7] else []) ++
      (if (d 91).elem ≠ 64 || (d 91).cnt 0 < n || (d 90).elem ≠ 64 || (d 90).cnt 0 < n then [9] else []) ++
      (if decDmg ws ≠ 0xFFFF && ((d 101).elem ≠ 64 || (if video then (d 101).cnt 0 < o.cnt 2 || (d 101).cnt 1 < n else (d 101).cnt 0 < n))
        then [10] else []) ++
      (if decWork ws ≠ 0xFFFF && (d 100).cnt 0 < (effExt ws ((List.range 5).map o.cnt)).getD dim 1 then [10] else []) ++
      decClause video ws o
    bouts := fun d t => (if hout then [] else [t.getD 1 1 * (d 7).cnt 0 * t.getD dim 1 * (d 7).elem]) ++ (64 * t.getD dim 1) ::
      (if decDmg ws = 0xFFFF then [] else [64 * t.getD dim 1])
    scratch := fun _ t => if video then 524288 * t.getD 3 1 else 131072 * t.getD 2 1
    tiled := if hout then [] else [7] }

/-! ### Clips (R354 to R357) -/

/-- Position of the latest IRAP at or before a position. -/
def irapAt (ps : List HPic) (n : Nat) : Option Nat := ((List.range (n + 1)).filter (fun i => (ps[i]?).any HPic.irap)).getLast?

/-- A picture is one of the RASL pictures associated with the IRAP at a position. -/
def raslOf (ps : List HPic) (r n : Nat) : Bool := (ps[n]?).any HPic.rasl && irapAt ps n = some r

def posOf (ps : List HPic) (frame : Nat) : Option Nat := ps.findIdx? (fun p => p.idx = some frame)

/-- Where decoding starts for a first selected frame (R357). -/
def clipStart (ps : List HPic) (pos : Nat) : Nat :=
  match irapAt ps pos with
  | none => 0
  | some r => if raslOf ps r pos && r > 0 then (irapAt ps (r - 1)).getD r else r

/-- The pictures decoded and the number skipped, from a position with the IRAP decoding began at, for the selected
frames still to come (R357). -/
def clipRun (ps : List HPic) (sel : List Nat) (top : Nat) : Nat → Nat → Nat → List Nat → List Nat × Nat
  | 0, _, _, done => (done, 0)
  | fuel + 1, r, n, done =>
    let left := sel.filter (fun f => match posOf ps f with | some q => !done.contains q | none => false)
    match left with
    | [] => (done, 0)
    | f :: _ =>
      let q := (posOf ps f).getD 0
      let jump := (List.range (q + 1)).filter (fun i => n < i && (ps[i]?).any HPic.irap && !raslOf ps i q)
      match jump.getLast? with
      | some j => clipRun ps sel top fuel j j done
      | none =>
        match ps[n]? with
        | none => (done, 0)
        | some p =>
          if raslOf ps r n then clipRun ps sel top fuel r (n + 1) done
          else if !(p.idx.any sel.contains) && p.nonRef && p.tid = top then
            let x := clipRun ps sel top fuel r (n + 1) done
            (x.1, x.2 + 1)
          else clipRun ps sel top fuel r (n + 1) (done ++ [n])

/-- The clip of a stream: frame count N, first selected frame, decoded pictures and how many were skipped. -/
structure Clip where
  count : Nat := 0
  first : Nat := 0
  decoded : List Nat := []
  skipped : Nat := 0
  deriving DecidableEq, Repr

def clipOf (ps : List HPic) (frames step : Nat) (first : Nat → Nat) : Clip :=
  let n := (ps.map (fun p => match p.idx with | some i => i + 1 | none => 0)).foldl max 0
  let f := first n
  let sel := ((List.range frames).map (fun i => f + i * step)).filter (fun x => decide (x < n))
  match sel.head?.bind (posOf ps) with
  | none => { count := n, first := f }
  | some pos =>
    let r := clipStart ps pos
    let x := clipRun ps sel ((ps.map HPic.tid).foldl max 0) (2 * ps.length + 2) r r []
    { count := n, first := f, decoded := x.1, skipped := x.2 }

/-! ### One sample -/

/-- What became of one sample. -/
structure DecRes where
  ticket : Nat
  status : Nat := stOK
  fmt : Nat := 0
  mode : Nat := 0
  data : List Byte := []
  head : MediaHead := {}
  scale : Nat := 0
  /-- Decoded width and height in output pixels. -/
  w : Nat := 0
  h : Nat := 0
  clip : Clip := {}
  /-- Work bytes used. -/
  work : Nat := 0
  reads : List El := []

/-- The format by the field's first bytes. -/
def mediaFormat (video : Bool) (b : List Byte) : Nat :=
  if video then 3
  else if b.take 2 = [0xFF, 0xD8] then 1
  else if b.take 8 = [0x89, 0x50, 0x4E, 0x47, 0x0D, 0x0A, 0x1A, 0x0A] then 2
  else 0

/-- Work bytes a sample needs (R358). -/
def workNeed (fmt : Nat) (h : MediaHead) (n : Nat) : Nat :=
  if fmt = 1 then (if h.interlaced then 128 * h.blocks else 0)
  else if fmt = 2 then (if h.interlaced then h.width * h.height * h.srcBytes else 0)
  else (h.dpb + 1) * 3 * h.width * h.height + 16 * n

/-- The output frame's source frame number, while it lies in the stream. -/
def DecRes.srcFrame (r : DecRes) (step f : Nat) : Option Nat :=
  if r.fmt ≠ 3 then some 0 else let n := r.clip.first + f * step; if n < r.clip.count then some n else none

/-- R345 to R358: sample i of the command, decoded on pipe j of its group. -/
def State.decSample (s : State) (video : Bool) (t k : Nat) (x : Task) (ws : List Nat) (i j : Nat) : DecRes :=
  let o := s.descOf t k 7
  let ie := s.elN (s.descOf t k 91) i
  let ticket := leNat (ie.data.take 4)
  let bad (r : DecRes) (st : Nat) : DecRes := { r with status := st }
  let r : DecRes := { ticket := ticket, reads := [ie] }
  match selField ie.data (wd ws 4 24 22) (if video then 2 else 1) with
  | none => bad r (if ie.poison.isEmpty then stFORMAT else stPOISON)
  | some f =>
    let (els, data) := s.fieldRd (s.descOf t k 5) i f
    let r := { r with reads := ie :: els }
    if r.reads.any (fun e => !e.poison.isEmpty) then bad r stPOISON
    else
      let fmt := mediaFormat video data
      let mode := fmt + (if wb ws 4 16 && video then 16 else 0) + (if wb ws 4 18 && video then 32 else 0)
      let r := { r with fmt := fmt, mode := mode, data := data }
      match (if fmt = 0 then none else Config.mediaHead mode data), (if video then Config.hevcIndex mode data else some []) with
      | some h, some ps =>
        let lim := wfld (s.cfgAt x.gen (bDEC + 0x10)) 8 0 * 2 ^ 20
        if h.width * h.height > lim || h.width > 16384 || h.height > 16384 then bad r stFORMAT
        else
          let fits (c : Nat) : Bool := cdiv h.width (2 ^ c) ≤ o.cnt 0 && cdiv h.height (2 ^ c) ≤ o.cnt 1
          let sc := if fmt ≠ 1 then some 0 else if wb ws 4 19 then (List.range 4).find? fits else some (decScale ws)
          let clip := if video then clipOf ps (o.cnt 2) (frameStep ws) (fun n =>
              if wb ws 4 17 then
                let span := (o.cnt 2 - 1) * frameStep ws
                if n ≤ span then 0 else (s.draw1 x.gen ticket (wd ws 4 15 8) 0).getD 0 0 * (n - span) / 2 ^ 32
              else wd ws 11 27 12) else {}
          let need := workNeed fmt h clip.count
          let wk := s.descOf t k 100
          let r := { r with head := h, clip := clip, work := need }
          match sc with
          | none => bad r stOVERFLOW
          | some c =>
            if !fits c || (need > 0 && (decWork ws = 0xFFFF || need > wk.elem)) then bad r stOVERFLOW
            else
              let we := if need = 0 then [] else [s.elAt wk.space (wk.at j) need]
              let r := { r with scale := c, w := cdiv h.width (2 ^ c), h := cdiv h.height (2 ^ c), reads := r.reads ++ we }
              if we.any (fun e => !e.poison.isEmpty) then bad r stPOISON else r
      | _, _ => bad r stFORMAT

/-- The output pixel of a sample; zero outside the decoded area, beyond the stream, and in a failed sample (R351, R355). -/
def DecRes.pixel (r : DecRes) (fmt step f col row : Nat) : List Byte :=
  let zero := List.replicate (outFmt fmt).1 (0 : Byte)
  if r.status ≠ stOK || col ≥ r.w || row ≥ r.h then zero
  else match r.srcFrame step f with
    | none => zero
    | some n =>
      let h := r.head
      let c (i : Nat) : Nat :=
        let (sx, sy) := h.sub.getD i (1, 1)
        Config.mediaSample r.mode r.data r.scale r.clip.decoded (n, i, col / max 1 sx, row / max 1 sy)
      let a := if h.alpha then Config.mediaSample r.mode r.data r.scale r.clip.decoded (n, 3, col, row) else 2 ^ h.sampleDepth - 1
      convPixel fmt h.ycc (h.chroma = 0) (r.fmt = 1 || h.fullRange) (if r.fmt = 1 then 5 else h.matrix) h.sampleDepth (c 0) (c 1) (c 2) a

/-- Damaged regions of an output frame in the order detected (R360): each a test of output pixels. -/
def DecRes.regions (r : DecRes) (step f : Nat) : List (Nat → Nat → Bool) :=
  match r.srcFrame step f with
  | none => [fun _ _ => true]
  | some n => (List.range (Config.mediaRegions r.mode r.data r.scale r.clip.decoded n)).map
      (fun g x y => Config.mediaInRegion r.mode r.data r.scale r.clip.decoded (n, g, x, y))

/-- Pixels of the decoded area. -/
def DecRes.area (r : DecRes) : List (Nat × Nat) := (List.range r.h).flatMap (fun y => (List.range r.w).map (fun x => (x, y)))

/-- Damaged output pixels of a frame (R361). -/
def DecRes.frameDamage (r : DecRes) (step f : Nat) : Nat :=
  let gs := r.regions step f
  (r.area.filter (fun p => gs.any (fun g => g p.1 p.2))).length

/-- The bounding box of some pixels in 16 × 16 blocks. -/
def boxOf (ps : List (Nat × Nat)) : List Nat :=
  let xs := ps.map Prod.fst
  let ys := ps.map Prod.snd
  [xs.foldl min (xs.headD 0) / 16, ys.foldl min (ys.headD 0) / 16, xs.foldl max 0 / 16, ys.foldl max 0 / 16]

/-- A damage entry (R365). -/
def DecRes.dmgEntry (r : DecRes) (step f cols rows : Nat) : List Byte :=
  let pad (l : List Byte) : List Byte := (l ++ List.replicate 64 0).take 64
  let boxes (bs : List (List Nat)) : List Byte := bs.flatten.flatMap (leBytes 2)
  if r.status ≠ stOK then
    pad (leBytes 2 f ++ leBytes 1 1 ++ leBytes 1 0 ++ leBytes 4 (cols * rows) ++ boxes [[0, 0, (cols - 1) / 16, (rows - 1) / 16]])
  else
    let gs := ((r.regions step f).map (fun g => r.area.filter (fun p => g p.1 p.2))).filter (fun l => !l.isEmpty)
    let bs := if gs.length ≤ 7 then gs.map boxOf else (gs.take 6).map boxOf ++ [boxOf (gs.drop 6).flatten]
    pad (leBytes 2 f ++ leBytes 1 bs.length ++ leBytes 1 (putB (decide (gs.length > 7)) 0) ++ leBytes 4 (r.frameDamage step f) ++ boxes bs)

/-- A sample's outcome with what its entry and the counters tell (R361, R362, R364). -/
structure DecOut where
  res : DecRes
  out : Outcome
  m : Nat
  frames : Nat

def State.decOutcome (s : State) (g : Nat) (frames step : Nat) (r : DecRes) : DecOut :=
  if r.status ≠ stOK then
    { res := r, out := failedSample r.ticket r.status (if r.status = stPOISON then 4 else 1), m := 0, frames := 0 }
  else
    let m := ((List.range frames).map (r.frameDamage step)).sum
    { res := r, out := s.damaged g r.ticket (damageBp m (r.w * r.h * frames)) 2, m := m
      frames := ((List.range frames).filter (fun f => (r.srcFrame step f).isSome)).length }

/-- The information entry (R364). -/
def DecOut.entry (d : DecOut) (hash : Bool) : List Byte :=
  let r := d.res
  let pad (l : List Byte) : List Byte := (l ++ List.replicate 64 0).take 64
  if r.status ≠ stOK then
    pad (leBytes 4 r.ticket ++ leBytes 6 0 ++ leBytes 2 r.status ++ leBytes 2 0 ++ leBytes 1 r.fmt)
  else
    let bp := match d.out.report with | some (_, _, b) => b | none => 0
    pad (leBytes 4 r.ticket ++ leBytes 2 r.w ++ leBytes 2 r.h ++ leBytes 2 d.frames ++ leBytes 2 d.out.status ++ leBytes 2 bp ++
      leBytes 1 r.fmt ++ leBytes 1 r.scale ++ leBytes 8 d.m ++ leBytes 2 r.head.width ++ leBytes 2 r.head.height ++
      leBytes 1 r.head.depth ++ leBytes 1 r.head.chroma ++
      leBytes 2 (putB r.head.alpha 0 + putB r.head.interlaced 1 + putB (hash && r.fmt = 3) 2) ++
      leBytes 4 r.clip.first ++ leBytes 4 r.clip.count)

/-- A counter of a DEC instance (R367). -/
def decCtr (bay k : Nat) : Nat := bDEC + 0x1000 + 0x100 * (bay - 2) + 8 * k

/-- What one decoded sample adds to the counters. -/
def State.decCount (s : State) (bay : Nat) (d : DecOut) : State :=
  let r := d.res
  let s := if r.status = stFORMAT ∨ r.status = stOVERFLOW then s.err (decCtr bay 7) else s
  if r.status ≠ stOK then s
  else
    let s := ((((s.bump (decCtr bay 0) 1).bump (decCtr bay 1) d.frames).bump (decCtr bay 2) r.clip.decoded.length).bump
      (decCtr bay 3) r.clip.skipped).bump (decCtr bay 4) d.m
    let s := if r.fmt = 2 then s.bump (decCtr bay 5) (Config.pngCrcBad r.data) else s
    let s := if bit r.mode 5 then s.bump (decCtr bay 6) (Config.hashBad r.mode r.data r.clip.decoded) else s
    s.whenB (d.out.status = stDAMAGED) (·.err (decCtr bay 8))

/-- Work areas that samples used hold free values afterwards (R358). -/
def State.workUsed (s : State) (wk : Desc) (l : List (Nat × Nat)) : State :=
  l.foldl (fun s e => if e.2 = 0 then s else s.fresh (fun f s =>
    (s.wrAll none wk.space 0 [{ addr := wk.at e.1, data := (List.range e.2).map (fun i => BitVec.ofNat 8 (Config.freeValue f i)) }]).1)) s

/-- A DEC stage as one step (R345 to R365). -/
def State.decRun (s : State) (video : Bool) (t k : Nat) (x : Task) (g : Stage) : State :=
  let ws := g.words
  let o := s.descOf t k 7
  let dm := s.descOf t k 101
  let e := (List.range 5).map o.cnt
  let dim := if video then 3 else 2
  let n := e.getD dim 1
  let grp := (effExt ws e).getD dim 1
  let frames := if video then e.getD 2 1 else 1
  let step := frameStep ws
  let ds := (List.range n).map (fun i => s.decOutcome x.gen frames step (s.decSample video t k x ws i (i % max 1 grp)))
  let sample (i : List Nat) : Nat := i.getD dim 0
  let pixel (i : List Nat) : List Byte :=
    match ds[sample i]? with
    | some d => d.res.pixel (decOut ws) step (if video then i.getD 2 0 else 0) (i.getD 0 0) (i.getD 1 0)
    | none => []
  let visits := tileVisits ws e
  let lastOf (j : List Nat) : Bool := j.getD 1 0 + 1 = (tileCounts ws e).getD 1 1 && (!video || j.getD 2 0 + 1 = frames)
  let works := visits.map (fun j =>
    let els := tileEls ws e j
    let is := (els.map sample).eraseDups
    let mine := is.filterMap (fun i => (ds[i]?).map (fun d => (i, d)))
    { reads := mine.flatMap (fun p => p.2.res.reads)
      writes := (if handsOut x k then [] else els.map (fun i => (7, undigits o.counts i, pixel i, false))) ++
        (if lastOf j then mine.flatMap (fun p =>
          (90, p.1, p.2.entry (wb ws 4 18), false) ::
          (if decDmg ws = 0xFFFF then [] else (List.range frames).map (fun f =>
            (101, if video then undigits dm.counts [f, p.1, 0, 0, 0] else p.1, p.2.res.dmgEntry step f (o.cnt 0) (o.cnt 1), false))))
         else []) : Work })
  let pois := ((ds.flatMap (fun d => d.res.reads)).flatMap El.poison).eraseDups.length
  let (s1, err) := (s.countPoison pois).runWorks t k works
  let s1 := s1.workUsed (s.descOf t k 100) ((List.range n).filterMap (fun i =>
    (ds[i]?).map (fun d => (i % max 1 grp, if d.res.status = stOK then d.res.work else 0))))
  match err with
  | some c => s1.endStage t k { status := c }
  | none =>
    let s1 := ds.foldl (fun s d => s.decCount g.inst d) s1
    let hb := if handsOut x k then visits.map (fun j => s.handBytes ws e j o.elem pixel) else []
    s1.endStage t k (sampleRes (wd ws 4 27 25) [] (ds.map DecOut.out)) hb

/-- R345 to R353, R359 to R365. -/
def execDecodeImage (t k : Nat) (s : State) : Host.Outcome State Fault Refusal := .next (s.eng t k 1 1 (fun x g s => s.decRun false t k x g))

/-- R354 to R365. -/
def execDecodeVideo (t k : Nat) (s : State) : Host.Outcome State Fault Refusal := .next (s.eng t k 1 2 (fun x g s => s.decRun true t k x g))

/-- The stage checks of the kind by opcode. -/
def decStageInfo (op : Nat) (ws : List Nat) (hout : Bool) : Option (Except Fail SInfo) :=
  if op = 1 then some (.ok (decInfo false ws hout)) else if op = 2 then some (.ok (decInfo true ws hout)) else none

end Sys2Proof.Machine
end

