-- ==== Sys2Proof/Machine/GrtOps.lean ====
section
/-! DEFINITION. Programs, drawn values, geometry, resampling and colour of GRT (R397 to R406). -/

namespace Sys2Proof.Machine

/-! ### The program (R397 to R399) -/

/-- A field of a program. -/
def pgF (b : List Byte) (a n : Nat) : Nat := leNat ((b.drop a).take n)

def pgFilter (b : List Byte) : Nat := pgF b 6 1
def pgFlags (b : List Byte) : Nat := pgF b 7 1
def pgAnti (b : List Byte) : Bool := bit (pgFlags b) 0
/-- 0 CLAMP, 1 REFLECT, 2 CONSTANT. -/
def pgEdge (b : List Byte) : Nat := fld (pgFlags b) 2 1
/-- 0 NONE, 1 CENTRE, 2 RANDOM. -/
def pgCrop (b : List Byte) : Nat := fld (pgFlags b) 4 3
def pgCols (b : List Byte) : Nat := pgF b 0xC 2
def pgRows (b : List Byte) : Nat := pgF b 0xE 2
def pgMeshW (b : List Byte) : Nat := pgF b 0x10 4
def pgMeshH (b : List Byte) : Nat := pgF b 0x14 4
/-- Coordinate c of mesh node (i, j). -/
def pgNode (b : List Byte) (i j c : Nat) : Nat := pgF b (0x200 + 8 * (j * pgCols b + i) + 4 * c) 4

/-- binary32 constants. -/
def fHalf : Nat := 0x3F000000
def f16384 : Nat := 0x46800000

/-- a lies within two bounds. -/
def fIn (lo hi a : Nat) : Bool := fFinite a && !fLt a lo && !fLt hi a

/-- A program that a check of R399 refuses when it loads. -/
def grtProgBad (b : List Byte) : Bool :=
  let f := pgF b
  let n := pgCols b * pgRows b
  let spec (v : Nat) : Bool :=
    let a := 0x80 + 12 * v
    let mode := f (a + 8) 1
    if v ≥ 11 then f a 12 ≠ 0
    else mode > 3 || f (a + 9) 1 > 15 || f (a + 10) 2 ≠ 0 || ((v = 4 || v = 5) && mode ≠ 0 && mode ≠ 3) ||
      (mode = 2 && !(fLt 0 (f a 4) && fLt 0 (f (a + 4) 4)))
  f 0 4 ≠ 0x50524757 || f 4 2 ≠ 1 || pgFilter b > 2 || pgEdge b = 3 || pgCrop b = 3 || bit (pgFlags b) 7 || f 8 1 > 240 || f 9 3 ≠ 0 ||
  (pgCols b ≠ 0 && (pgCols b < 2 || pgCols b > 257 || pgRows b < 2 || pgRows b > 257)) || (pgCols b = 0 && pgRows b ≠ 0) ||
  [pgMeshW b, pgMeshH b].any (fun x => !(fLt 0 x && fIn 0 f16384 x)) ||
  (List.range 4).any (fun c => !fIn 0 f1 (f (0x18 + 4 * c) 4)) || f 0x48 56 ≠ 0 || f 0x140 192 ≠ 0 ||
  (List.range 16).any spec || b.length < 512 + 8 * n || (List.range (2 * n)).any (fun i => !fFinite (f (0x200 + 4 * i) 4))

/-- The range of a value (R398). -/
def valRange (v : Nat) : Nat × Nat :=
  match v with
  | 0 => (0x37800000, f1)
  | 1 => (0x3D800000, 0x41800000)
  | 6 => (0xC3340000, 0x43340000)
  | 7 => (0, 0x41800000)
  | 8 => (0, 0x41800000)
  | 9 => (0, 0x41800000)
  | 10 => (0xC3340000, 0x43340000)
  | _ => (0, f1)

/-- u of R398: the top 24 bits of a word as a fraction. -/
def unit24 (w : Nat) : Nat := fMul (fOfInt (w / 256 : Nat)) 0x33800000

/-- Value v at draw index k, clamped; none where it is not finite. `u` gives the draw of a value, `host` the record. -/
def pgValue (b : List Byte) (u : Nat → Nat → Nat) (host : List Byte) (v k : Nat) : Option Nat :=
  let a := 0x80 + 12 * v
  let lo := pgF b a 4
  let hi := pgF b (a + 4) 4
  let d := u v (if v ≤ 3 then k else 0)
  let x := match pgF b (a + 8) 1 with
    | 0 => lo
    | 1 => fAdd lo (fMul d (fSub hi lo))
    | 2 => fExp (fAdd (fLn lo) (fMul d (fSub (fLn hi) (fLn lo))))
    | _ => leNat ((host.drop (4 * pgF b (a + 9) 1)).take 4)
  if !fFinite x then none else some (fMin (fMax x (valRange v).1) (valRange v).2)

/-! ### Geometry (R400 to R402) -/

/-- A crop: x0, y0, w, h, whether the whole frame stood in, and the attempts taken. -/
structure Crop where
  x0 : Nat := 0
  y0 : Nat := 0
  w : Nat
  h : Nat
  fallback : Bool := false
  tries : Nat := 0
  deriving DecidableEq, Repr

/-- The attempts of a crop from k on; none where a value is not finite. -/
def cropRun (b : List Byte) (val : Nat → Nat → Option Nat) (wc hc : Nat) : Nat → Nat → Option Crop
  | 0, _ => some { w := wc, h := hc, fallback := true, tries := 10 }
  | fuel + 1, k =>
    match val 0 k, val 1 k, val 2 k, val 3 k with
    | some a, some r, some fx, some fy =>
      let area := fMul (fMul a wc) hc
      let w := fSqrt (fMul area r)
      let h := fSqrt (fDiv area r)
      if pgCrop b = 1 then
        let f := fMin (fMin f1 (fDiv wc w)) (fDiv hc h)
        let w := fMul w f
        let h := fMul h f
        some { x0 := fDiv (fSub wc w) 0x40000000, y0 := fDiv (fSub hc h) 0x40000000, w := w, h := h, tries := 1 }
      else if !fLt wc w && !fLt hc h then
        some { x0 := fMul fx (fSub wc w), y0 := fMul fy (fSub hc h), w := w, h := h, tries := k + 1 }
      else cropRun b val wc hc fuel (k + 1)
    | _, _, _, _ => none

/-- The crop in a frame (R400). -/
def cropOf (b : List Byte) (val : Nat → Nat → Option Nat) (wc hc : Nat) : Option Crop :=
  if pgCrop b = 0 then some { w := wc, h := hc } else cropRun b val wc hc 10 0

/-- Degrees as radians: × π / 180. -/
def fRad (d : Nat) : Nat := fMul d 0x3C8EFA35

/-- The 2 × 3 matrix of R401, composed step by step: flips, crop, rotation about the crop's centre. -/
def affine (c : Crop) (fh fv : Bool) (theta wo ho : Nat) : List Nat :=
  let along (flip : Bool) (o n w : Nat) : Nat × Nat :=
    let a := fDiv w (fOfInt (n : Nat))
    let p := fDiv fHalf (fOfInt (n : Nat))
    if flip then (fNeg a, fAdd o (fMul (fSub f1 p) w)) else (a, fAdd o (fMul p w))
  let (ax, bx) := along fh c.x0 wo c.w
  let (ay, by') := along fv c.y0 ho c.h
  let cx := fAdd c.x0 (fDiv c.w 0x40000000)
  let cy := fAdd c.y0 (fDiv c.h 0x40000000)
  let co := fCos (fRad theta)
  let si := fSin (fRad theta)
  let dx := fSub bx cx
  let dy := fSub by' cy
  [fMul co ax, fMul si ay, fAdd (fAdd cx (fMul co dx)) (fMul si dy),
   fNeg (fMul si ax), fMul co ay, fAdd (fSub cy (fMul si dx)) (fMul co dy)]

/-- A binary32 value rounded down; a value that is not finite has no floor, and a free value stands there. -/
def floorOr (free : Nat) (w : Nat) : Int := match (f32 w).floor with | some i => i | none => (Config.freeValue free w : Nat)

/-- A mesh axis: the cell and the place in it. -/
def meshAxis (free n size x : Nat) : Nat × Nat :=
  let g := fDiv (fMul x (fOfInt (n - 1 : Nat))) size
  let i := (clampI 0 ((n : Int) - 2) (floorOr free g)).toNat
  (i, fSub g (fOfInt (i : Nat)))

/-- The source point of an output pixel (R401, R402). -/
def srcPoint (free : Nat) (b : List Byte) (m : List Nat) (xo yo : Nat) : Nat × Nat :=
  let a (i : Nat) : Nat := m.getD i 0
  let X := fOfInt (xo : Nat)
  let Y := fOfInt (yo : Nat)
  let x := fAdd (fAdd (fMul (a 0) X) (fMul (a 1) Y)) (a 2)
  let y := fAdd (fAdd (fMul (a 3) X) (fMul (a 4) Y)) (a 5)
  if pgCols b = 0 then (x, y)
  else
    let (i, fx) := meshAxis free (pgCols b) (pgMeshW b) x
    let (j, fy) := meshAxis free (pgRows b) (pgMeshH b) y
    let gx := fSub f1 fx
    let gy := fSub f1 fy
    let at' (c : Nat) : Nat :=
      fAdd (fAdd (fAdd (fMul (fMul gx gy) (pgNode b i j c)) (fMul (fMul fx gy) (pgNode b (i + 1) j c)))
        (fMul (fMul gx fy) (pgNode b i (j + 1) c))) (fMul (fMul fx fy) (pgNode b (i + 1) (j + 1) c))
    (at' 0, at' 1)

/-! ### Resampling (R403, R404) -/

/-- The Keys kernel of a distance n / 256, rounded once. -/
def keys256 (n : Nat) : Nat :=
  let d := n
  let v : Int :=
    if d ≤ 256 then 3 * d ^ 3 - 5 * 256 * d ^ 2 + 2 * 256 ^ 3
    else if d < 512 then -(d : Int) ^ 3 + 5 * 256 * d ^ 2 - 8 * 256 ^ 2 * d + 4 * 256 ^ 3
    else 0
  fF32.enc false (.fin (decide (v < 0)) v.natAbs (-25))

/-- A kernel on a binary32 distance: bilinear, or Keys. -/
def kernelF (cubic : Bool) (d : Nat) : Nat :=
  let d := d % 2 ^ 31
  if !cubic then fMax 0 (fSub f1 d)
  else
    let d2 := fMul d d
    let d3 := fMul d2 d
    if !fLt f1 d then fAdd (fSub (fMul 0x3FC00000 d3) (fMul 0x40200000 d2)) f1
    else if fLt d 0x40000000 then
      fAdd (fSub (fAdd (fMul 0xBF000000 d3) (fMul 0x40200000 d2)) (fMul 0x40800000 d)) 0x40000000
    else 0

/-- Sum of a list of binary32 values in order. -/
def fSum : List Nat → Nat
  | [] => 0
  | x :: xs => xs.foldl fAdd x

/-- Taps and weights on an axis for a source coordinate, with the axis scale (R403). -/
def taps (free filter : Nat) (anti : Bool) (scale src : Nat) : List (Int × Nat) :=
  let sx := fSub src fHalf
  let i := floorOr free sx
  let phi := (floorOr free (fMul (fSub sx (fOfInt i)) 0x43800000)).toNat % 256
  let frac (n : Nat) : Nat := fF32.enc false (.fin false n (-8))
  if filter = 0 then [(if phi < 128 then i else i + 1, f1)]
  else if anti && fLt f1 scale then
    let cubic := filter = 2
    let sigma := fMin (fMul scale (if cubic then 0x40000000 else f1)) 0x41000000
    let dist (t : Int) : Nat := fF32.enc false (.fin (decide (t * 256 < i * 256 + phi)) ((t - i) * 256 - phi).natAbs (-8))
    let ts := ((List.range 36).map (fun (n : Nat) => i - 17 + n)).filter (fun t => fLt (dist t % 2 ^ 31) sigma)
    let ws := ts.map (fun t => kernelF cubic (fDiv (dist t) scale))
    let sum := fSum ws
    (List.zip ts ws).map (fun p => (p.1, fDiv p.2 sum))
  else if filter = 1 then [(i, frac (256 - phi)), (i + 1, frac phi)]
  else (List.range 4).map (fun (n : Nat) =>
    let t : Int := (n : Int) - 1
    (i + t, keys256 (t * 256 - phi).natAbs))

/-- REFLECT: a tap folded into 0 to n - 1. -/
def reflect (n : Nat) (t : Int) : Int :=
  if n ≤ 1 then 0
  else
    let p : Int := 2 * ((n : Int) - 1)
    let r := t % p
    if r ≤ (n : Int) - 1 then r else p - r

/-- A tap by the edge mode: a pixel of the source, or none for the border. -/
def edgeTap (edge n : Nat) (t : Int) : Option Nat :=
  if 0 ≤ t && t < n then some t.toNat
  else match edge with
    | 0 => some (clampI 0 ((n : Int) - 1) t).toNat
    | 1 => some (reflect n t).toNat
    | _ => none

/-- R, G, B and A of a source pixel in binary32. -/
def pixelF (fmt : Nat) (data : List Byte) : List Nat :=
  let (_, ch, depth) := outFmt fmt
  let w := depth / 8
  let v (c : Nat) : Nat := fDiv (fOfInt (leNat ((data.drop (w * c)).take w) : Nat)) (fOfInt ((2 ^ depth - 1 : Nat) : Int))
  if ch = 1 then [v 0, v 0, v 0, f1] else [v 0, v 1, v 2, if ch = 4 then v 3 else f1]

/-- The resampled pixel: rows of weights and values. -/
def resample (rows : List (Nat × List (Nat × List Nat))) : List Nat :=
  (List.range 4).map (fun c =>
    fSum (rows.map (fun r => fMul r.1 (fSum (r.2.map (fun p => fMul p.1 (p.2.getD c 0)))))))

/-! ### Colour and output (R405, R406) -/

/-- 77, 150 and 29 over 256. -/
def lumaF : List Nat := [0x3E9A0000, 0x3F160000, 0x3DE80000]

/-- One row of a 3 × 3 matrix times a 3 × 4 affine matrix. -/
def mulRow (r : List Nat) (k : Nat) (m : List (List Nat)) : List Nat :=
  (List.range 4).map (fun j =>
    let s := fSum ((List.range 3).map (fun i => fMul (r.getD i 0) ((m.getD i []).getD j 0)))
    if j = 3 then fAdd s k else s)

/-- The colour operations of R405 as one 3 × 4 matrix. -/
def colourM (b c s h : Nat) : List (List Nat) :=
  let diag (v k : Nat) : List (List Nat) := [[v, 0, 0, k], [0, v, 0, k], [0, 0, v, k]]
  let m := diag b 0
  let m := (diag c (fSub fHalf (fMul c fHalf))).map (fun r => mulRow (r.take 3) (r.getD 3 0) m)
  let sat : List (List Nat) := (List.range 3).map (fun i => (List.range 3).map (fun j =>
    let y := fMul (fSub f1 s) (lumaF.getD j 0)
    if i = j then fAdd y s else y))
  let m := sat.map (fun r => mulRow r 0 m)
  let co := fCos (fRad h)
  let si := fDiv (fSin (fRad h)) (fSqrt 0x40400000)
  let third := fDiv (fSub f1 co) 0x40400000
  let kk : List (List Int) := [[0, -1, 1], [1, 0, -1], [-1, 1, 0]]
  let hue := (List.range 3).map (fun i => (List.range 3).map (fun j =>
    let v := if i = j then fAdd co third else third
    let k := (kk.getD i []).getD j 0
    if k = 0 then v else if k = 1 then fAdd v si else fSub v si))
  hue.map (fun r => mulRow r 0 m)

/-- A pixel's R, G and B through the colour matrix, clamped to 0 to 1. -/
def colourPixel (m : List (List Nat)) (p : List Nat) : List Nat :=
  (List.range 3).map (fun i =>
    let r := m.getD i []
    fMin (fMax (fAdd (fSum ((List.range 3).map (fun j => fMul (r.getD j 0) (p.getD j 0)))) (r.getD 3 0)) 0) f1)

/-- Bytes of an output value of a type (R395). -/
def grtWidth (ty : Nat) : Nat := [1, 2, 2, 4].getD ty 1

/-- A binary32 value in an output type; a NaN as U8 is a free value. -/
def grtConv (free ty w : Nat) : Nat :=
  let satInf (f : FFmt) : Nat := match f32 w with | .inf s => putB s 15 + f.maxFin | x => f.enc true x
  match ty with
  | 0 => match f32 (fMul w 0x437F0000) with
    | .nan => Config.freeValue free w % 256
    | .inf s => if s then 0 else 255
    | x => (clampI 0 255 (x.toInt.getD 0)).toNat
  | 1 => satInf fBF16
  | 2 => satInf fF16
  | _ => w

/-- The output bytes of a pixel R, G, B, A (R406). -/
def grtOut (free : Nat) (b : List Byte) (ty chSel : Nat) (p : List Nat) : List Byte :=
  let y := fDiv (fAdd (fAdd (fMul 0x429A0000 (p.getD 0 0)) (fMul 0x43160000 (p.getD 1 0))) (fMul 0x41E80000 (p.getD 2 0))) 0x43800000
  let chs := if chSel = 0 then [y] else if chSel = 1 then p.take 3 else p
  (List.range chs.length).flatMap (fun c =>
    let v := chs.getD c 0
    let v := if bit (pgFlags b) 6 then fMul (fSub v (pgF b (0x28 + 4 * c) 4)) (pgF b (0x38 + 4 * c) 4) else v
    leBytes (grtWidth ty) (grtConv free ty v))

end Sys2Proof.Machine
end

