-- ==== Sys2Proof/Machine/Grt.lean ====
section
/-! DEFINITION. Geometry, colour and augmentation (chapter 16). -/

namespace Sys2Proof.Machine

/-! ### The body and its checks (R394 to R396) -/

def grtIn (ws : List Nat) : Nat := wd ws 4 28 25
def grtType (ws : List Nat) : Nat := wd ws 4 24 23
def grtCh (ws : List Nat) : Nat := wd ws 4 22 21
def grtHost (ws : List Nat) : Nat := wd ws 10 15 0
def grtElem (ws : List Nat) : Nat := [1, 3, 4].getD (grtCh ws) 0 * grtWidth (grtType ws)

/-- The checks of a TRANSFORM stage; `hin` is the producer's principal output. -/
def grtInfo (ws : List Nat) (hin : Option Desc) (hout : Bool) : SInfo :=
  let px := (outFmt (grtIn ws)).1
  let hinBad := match hin with | some d => decide (d.elem ≠ px) | none => false
  { bad := (if grtIn ws > 5 || grtCh ws = 3 || wd ws 4 20 0 ≠ 0 || hinBad then [4] else []) ++
      (if hin.isSome && w64 ws 5 ≠ 0 then [5] else []) ++ (if wd ws 11 27 0 ≠ 0 then [11] else [])
    refs := (if hin.isSome then [] else [refAt ws 5 false [0]]) ++
      [{ refAt ws 7 true with shapeOnly := hout }, refId 91 9 (wd ws 9 31 16) false, refId 90 9 (wd ws 9 15 0) true,
       { refId 10 10 (wd ws 10 31 16) false with spaces := [0] }] ++ (if grtHost ws = 0xFFFF then [] else [refId 100 10 (grtHost ws) false])
    out := 7
    rel := fun d =>
      let o := d 7
      let n := o.cnt 2
      let t := tExt ws
      let t1 := t.getD 1 0
      let short (x : Desc) : Bool := x.elem ≠ 64 || (span 1 4).any (fun k => x.cnt k ≠ 1) || x.cnt 0 < n
      (if hin.isNone && ((d 5).elem ≠ px || (d 5).cnt 3 ≠ 1 || (d 5).cnt 4 ≠ 1) then [5] else []) ++
      (if o.elem ≠ grtElem ws || o.cnt 3 ≠ 1 || o.cnt 4 ≠ 1 then [7] else []) ++
      (if short (d 91) || short (d 90) then [9] else []) ++ (if grtHost ws ≠ 0xFFFF && short (d 100) then [10] else []) ++
      (if t.getD 0 0 ≠ o.cnt 0 || (t1 % 8 ≠ 0 && t1 ≠ o.cnt 1) then [12] else []) ++
      (if t.getD 2 0 = 0 || t.getD 2 0 > 16 || t.getD 3 0 ≠ 1 || t.getD 4 0 ≠ 1 || wd ws 13 7 0 ≠ 0x33 then [13] else []) ++
      (if wd ws 14 19 5 ≠ 0x4688 then [14] else [])
    bouts := fun d t => (if hout then [] else [t.getD 1 1 * (d 7).cnt 0 * t.getD 2 1 * (d 7).elem]) ++ [64 * t.getD 2 1]
    scratch := fun _ t => 1048576 + 4096 * t.getD 2 1
    par := some 10
    tiled := if hout then [] else [7] }

/-! ### One sample -/

/-- What is fixed for one sample before its pixels are computed. -/
structure GrtSample where
  ticket : Nat
  status : Nat := stOK
  /-- Its producer reported it already (R409): the input status stands. -/
  skip : Bool := false
  w : Nat := 0
  h : Nat := 0
  crop : Crop := { w := 0, h := 0 }
  fh : Bool := false
  fv : Bool := false
  /-- Values 6 to 10. -/
  vals : List Nat := []
  mat : List Nat := []
  colour : List (List Nat) := []
  reads : List El := []

/-- The pixels of a sample are computed. -/
def GrtSample.live (r : GrtSample) : Bool := r.status = stOK && !r.skip

/-- R398 to R401, R409 for sample i. -/
def State.grtSample (s : State) (t k : Nat) (x : Task) (ws : List Nat) (b : List Byte) (i : Nat) : GrtSample :=
  let o := s.descOf t k 7
  let ie := s.elN (s.descOf t k 91) i
  let f (a n : Nat) : Nat := leNat ((ie.data.drop a).take n)
  let hs := if grtHost ws = 0xFFFF then [] else [s.elN (s.descOf t k 100) i]
  let host := (hs.flatMap El.data) ++ List.replicate 64 0
  let w := f 4 2
  let h := f 6 2
  let r : GrtSample := { ticket := f 0 4, w := w, h := h, reads := ie :: hs }
  if r.reads.any (fun e => !e.poison.isEmpty) then { r with status := stPOISON }
  else if (f 0xA 2 ≠ stOK && f 0xA 2 ≠ stDAMAGED) || w = 0 || h = 0 then { r with status := f 0xA 2, skip := true }
  else
    let u (v k : Nat) : Nat := unit24 ((s.draw1 x.gen r.ticket (pgF b 8 1 + v) k).getD 0 0)
    let val := pgValue b u host
    let wc := if pgCols b = 0 then fOfInt (w : Nat) else pgMeshW b
    let hc := if pgCols b = 0 then fOfInt (h : Nat) else pgMeshH b
    match (List.range 11).mapM (fun v => val v 0), cropOf b val wc hc with
    | some vs, some c =>
      let fh := fLt (u 4 0) (vs.getD 4 0)
      let fv := fLt (u 5 0) (vs.getD 5 0)
      { r with
        crop := c, fh := fh, fv := fv, vals := vs.drop 6
        mat := affine c fh fv (vs.getD 6 0) (o.cnt 0) (o.cnt 1)
        colour := if bit (pgFlags b) 5 then colourM (vs.getD 7 0) (vs.getD 8 0) (vs.getD 9 0) (vs.getD 10 0) else [] }
    | _, _ => { r with status := stFORMAT }

/-- Rows of a producer's tile that a tile of this stage holds, with the slot of each band (R407). -/
def State.heldRows (s : State) (t k : Nat) (x : Task) (keep : Bool) (j : Nat) : List (Nat × Nat) :=
  match x.stages[k - 1]? with
  | none => []
  | some p =>
    let e := (List.range 5).map (s.handDesc t k x).cnt
    let w := (effExt p.words e).getD 1 1
    let vs := tileVisits p.words e
    let band (q : Nat) : List (Nat × Nat) := (span ((vs.getD q []).getD 1 0 * w) (min w (e.getD 1 1 - (vs.getD q []).getD 1 0 * w))).map (fun y => (y, q))
    let same := (vs.getD (j - 1) []).drop 2 = (vs.getD j []).drop 2
    (if keep && j > 0 && same then band (j - 1) else []) ++ band j

/-- The held row nearest to a row; the lower of two. -/
def nearRow (y : Nat) : List (Nat × Nat) → Option (Nat × Nat)
  | [] => none
  | r :: rs => match nearRow y rs with
    | none => some r
    | some q =>
      let dr := ((r.1 : Int) - y).natAbs
      let dq := ((q.1 : Int) - y).natAbs
      if dr < dq || (dr = dq && r.1 ≤ q.1) then some r else some q

/-- A source pixel of sample n, and whether its row was replaced. -/
def State.grtSrc (s : State) (t k : Nat) (x : Task) (held : List (Nat × Nat)) (px py n : Nat) : El × Bool :=
  if k = 0 then (s.elRd (s.descOf t k 5) [(px : Int), (py : Int), (n : Int), 0, 0], false)
  else
    let pd := s.handDesc t k x
    let up := digits [pd.cnt 2, pd.cnt 3, pd.cnt 4] n
    match nearRow py held with
    | none => ({ data := List.replicate pd.elem 0 }, true)
    | some (y, q) => (s.handElem x k pd q ([px, y] ++ up), decide (y ≠ py))

/-- An output pixel: the reads it makes, its bytes, and whether a row was replaced (R401 to R407). -/
def State.grtPixel (s : State) (t k : Nat) (x : Task) (ws : List Nat) (b : List Byte) (r : GrtSample) (held : List (Nat × Nat))
    (xo yo n : Nat) : List El × List Byte × Bool :=
  let free := s.free
  let a (i : Nat) : Nat := r.mat.getD i 0
  let (px, py) := srcPoint free b r.mat xo yo
  let scale (p q : Nat) : Nat := fSqrt (fAdd (fMul p p) (fMul q q))
  let tx := taps free (pgFilter b) (pgAnti b) (scale (a 0) (a 3)) px
  let ty := taps free (pgFilter b) (pgAnti b) (scale (a 1) (a 4)) py
  let border := (List.range 4).map (fun c => pgF b (0x18 + 4 * c) 4)
  let tap (u v : Int) : List El × List Nat × Bool :=
    match edgeTap (pgEdge b) r.w u, edgeTap (pgEdge b) r.h v with
    | some i, some j => let (e, rep) := s.grtSrc t k x held i j n; ([e], pixelF (grtIn ws) e.data, rep)
    | _, _ => ([], border, false)
  let grid := ty.map (fun v => (v.2, tx.map (fun u => (u.2, tap u.1 v.1))))
  let all := grid.flatMap (fun g => g.2.map Prod.snd)
  let p := resample (grid.map (fun g => (g.1, g.2.map (fun q => (q.1, q.2.2.1)))))
  let p := if r.colour.isEmpty then p else colourPixel r.colour p ++ p.drop 3
  (all.flatMap Prod.fst, grtOut free b (grtType ws) (grtCh ws) p, all.any (fun q => q.2.2))

/-! ### The stage -/

/-- The information entry (R411). -/
def GrtSample.entry (r : GrtSample) (o : Outcome) (m : Nat) : List Byte :=
  let pad (l : List Byte) : List Byte := (l ++ List.replicate 64 0).take 64
  let bp := match o.report with | some (_, _, v) => v | none => 0
  if !r.live || o.status = stPOISON then pad (leBytes 4 r.ticket ++ leBytes 2 (if r.skip then r.status else o.status) ++ leBytes 2 bp)
  else
    pad (leBytes 4 r.ticket ++ leBytes 2 o.status ++ leBytes 2 bp ++
      leBytes 1 (putB r.fh 0 + putB r.fv 1 + putB r.crop.fallback 2 + putB (decide (m ≠ 0)) 3) ++ leBytes 1 r.crop.tries ++ leBytes 2 0 ++
      leBytes 4 r.crop.x0 ++ leBytes 4 r.crop.y0 ++ leBytes 4 r.crop.w ++ leBytes 4 r.crop.h ++ r.vals.flatMap (leBytes 4) ++
      leBytes 2 r.w ++ leBytes 2 r.h)

/-- A counter of a GRT instance (R412). -/
def grtCtr (bay k : Nat) : Nat := bGRT + 0x1000 + 0x100 * (bay - 6) + 8 * k

/-- A TRANSFORM stage as one step (R394 to R411). -/
def State.grtRun (s : State) (t k : Nat) (x : Task) (g : Stage) : State :=
  let ws := g.words
  let b := s.parData t g
  let o := s.descOf t k 7
  let e := (List.range 5).map o.cnt
  let n := e.getD 2 1
  let rs := (List.range n).map (s.grtSample t k x ws b)
  let zero := List.replicate o.elem (0 : Byte)
  let visits := tileVisits ws e
  let tiles := (List.range visits.length).map (fun j =>
    let held := if k = 0 then [] else s.heldRows t k x (keepPrev ws) j
    (tileEls ws e (visits.getD j [])).map (fun i =>
      (i, match rs[i.getD 2 0]? with
        | some r => if r.live then s.grtPixel t k x ws b r held (i.getD 0 0) (i.getD 1 0) (i.getD 2 0) else ([], zero, false)
        | none => ([], zero, false))))
  let all := tiles.flatten
  let ofS (i : Nat) := all.filter (fun p => decide (p.1.getD 2 0 = i))
  let pois (i : Nat) : Bool := (ofS i).any (fun p => p.2.1.any (fun r => !r.poison.isEmpty))
  let m (i : Nat) : Nat := ((ofS i).filter (fun p => p.2.2.2)).length
  let outc (i : Nat) : Outcome := match rs[i]? with
    | none => { ticket := 0, status := stOK, report := none }
    | some r =>
      if r.skip then { ticket := r.ticket, status := stOK, report := none }
      else if r.status = stFORMAT then failedSample r.ticket stFORMAT 1
      else if r.status = stPOISON || pois i then failedSample r.ticket stPOISON 4
      else s.damaged x.gen r.ticket (damageBp (m i) (e.getD 0 1 * e.getD 1 1)) 2
  let outs := (List.range n).map outc
  let dead (i : Nat) : Bool := match outs[i]? with | some o => o.status = stPOISON || o.status = stFORMAT | none => true
  let bytes (p : List Nat × List El × List Byte × Bool) : List Byte := if dead (p.1.getD 2 0) then zero else p.2.2.1
  let works := tiles.map (fun tl =>
    let is := (tl.map (fun p => p.1.getD 2 0)).eraseDups
    { reads := is.flatMap (fun i => match rs[i]? with | some r => r.reads | none => []) ++ tl.flatMap (fun p => p.2.1)
      writes := (if handsOut x k then [] else tl.map (fun p => (7, undigits o.counts p.1, bytes p, false))) ++
        is.filterMap (fun i => match rs[i]?, outs[i]? with
          | some r, some oc => some (90, i, r.entry oc (m i), false)
          | _, _ => none) : Work })
  let np := ((works.flatMap Work.reads).flatMap El.poison).eraseDups.length
  let (s1, err) := (s.countPoison np).runWorks t k works
  match err with
  | some c => s1.endStage t k { status := c }
  | none =>
    let c := grtCtr g.inst
    let live := (List.range n).filter (fun i => (rs[i]?).any GrtSample.live && !dead i)
    let count (p : Outcome → Bool) : Nat := (outs.filter p).length
    let s1 := (s1.bump (c 0) live.length).bump (c 1) all.length
    let s1 := s1.bump (bGRT + 0x140) all.length
    let s1 := (s1.bump (c 2) ((rs.filter (fun r => r.live && r.crop.fallback)).length)).bump (c 3) ((live.map m).sum)
    let s1 := s1.fresh (fun f s => s.bump (c 4) (Config.freeValue f 0))
    let s1 := (s1.errN (c 5) (count (fun o => o.status = stFORMAT))).errN (c 6) (count (fun o => o.status = stDAMAGED))
    let hb := if handsOut x k then
        (List.range visits.length).map (fun j => s.handBytes ws e (visits.getD j []) o.elem (fun i =>
          match (tiles.getD j []).find? (fun p => p.1 = i) with | some p => bytes p | none => zero))
      else []
    s1.endStage t k (sampleRes (wd ws 4 31 29) [] outs) hb

/-- R394. -/
def execTransform (t k : Nat) (s : State) : Host.Outcome State Fault Refusal := .next (s.eng t k 3 1 (fun x g s => s.grtRun t k x g))

/-- The stage checks of the kind by opcode. -/
def grtStageInfo (op : Nat) (ws : List Nat) (hin : Option Desc) (hout : Bool) : Option (Except Fail SInfo) :=
  if op = 1 then some (.ok (grtInfo ws hin hout)) else none

end Sys2Proof.Machine
end

