-- ==== Sys2Proof/Machine/GthOps.lean ====
section
/-! DEFINITION. Table rows: their descriptors, values, homes, hot copies and requests (chapter 19). -/

namespace Sys2Proof.Machine

/-! ### Descriptors and rows (R446 to R448) -/
def TblDesc.place (d : TblDesc) : Nat := d.flags % 4
def TblDesc.inval (d : TblDesc) : Nat := fld d.flags 3 2
def TblDesc.hotEn (d : TblDesc) : Bool := bit d.flags 4
def TblDesc.dieHot (d : TblDesc) : Bool := bit d.flags 5

/-- The packed size of a row (R447). -/
def TblDesc.packed (d : TblDesc) : Nat := match d.fmt with | 0 => 8 + d.dim | 1 => 8 + cdiv d.dim 2 | _ => 2 * d.dim

/-- A field of a descriptor is not valid, or a reserved byte is not zero (R446, R449). -/
def tblBad (b : List Byte) : Bool :=
  let f (a n : Nat) : Nat := leNat ((b.drop a).take n)
  let d := TblDesc.ofBytes b
  d.rowCount = 0 || d.rowCount = 0xFFFFFFFF || d.dim = 0 || d.dim > 8192 || d.fmt > 3 || d.place = 3 || d.inval = 3 ||
  fld d.flags 7 6 ≠ 0 || d.rowStride % 8 ≠ 0 || d.rowStride < d.packed || d.rowStride > 65536 ||
  (if d.place = 1 then d.shardRows = 0 || d.shardRows > 2 ^ 31 else d.shardRows ≠ 0 || f 0x10 8 ≠ 0) ||
  (!d.hotEn && f 0x20 8 ≠ 0) || d.hotSetsLog2 > 20 || f 0x29 1 ≠ 0 || d.hotThresh = 0 || fld d.replica 14 11 ≠ 0 || f 0x2E 18 ≠ 0

/-- The elements of a packed row as binary32 encodings (R447). -/
def TblDesc.vals (d : TblDesc) (b : List Byte) : List Nat :=
  let f (a n : Nat) : Nat := leNat ((b.drop a).take n)
  (List.range d.dim).map (fun j =>
    match d.fmt with
    | 0 => fAdd (fMul (fOfInt (f (8 + j) 1 : Nat)) (f 0 4)) (f 4 4)
    | 1 => fAdd (fMul (fOfInt (f (8 + j / 2) 1 / 16 ^ (j % 2) % 16 : Nat)) (f 0 4)) (f 4 4)
    | 2 => fF32.enc false (fF16.dec (f (2 * j) 2))
    | _ => fF32.enc false (fBF16.dec (f (2 * j) 2)))

/-- Home device and local shard slot of a row (R448), or the status of a map read that fails. -/
def State.tblHome (s : State) (d : TblDesc) (i : Nat) : Except Nat (Nat × Nat) :=
  if d.place ≠ 1 then .ok (s.devId, 0)
  else
    let a := d.mapAddr + 4 * (i / max 1 d.shardRows)
    match s.accErr 0 (a : Nat) 4 with
    | some e => .error e
    | none => if s.mem.anyPoison a 4 then .error stPOISON else .ok (fld (s.mem.le a 4) 10 0, fld (s.mem.le a 4) 31 16)

/-- Address of a row on its home (R448). -/
def TblDesc.rowAddr (d : TblDesc) (base i slot : Nat) : Nat :=
  base + (if d.place = 1 then slot * d.shardRows + i % max 1 d.shardRows else i) * d.rowStride

/-- A row mapped to the default row (R463). -/
def State.remapped (s : State) (table version row : Nat) : Bool :=
  s.gth.remap.any (fun e => e.2 = some { table := table, version := version, row := row })

/-- The base a version is read at on its home: its slot's, else that of a valid serve entry that names it (R606). -/
def State.heldBase (s : State) (t v : Nat) : Option Nat :=
  match s.verFind t v with
  | some x => some x.base
  | none => (List.range 16).findSome? (fun i =>
      let a := bNGL + 0xA000 + 0x10 * i
      if s.cb a 63 && s.cf a 43 32 = t && s.cf a 31 0 = v then some (s.cf (a + 8) 43 0) else none)

/-- A row read at its home from a version's base (R448): its bytes, a fault, or none while a repair of it is under way. -/
def State.rowReadAt (s : State) (d : TblDesc) (table v i slot base : Nat) : State × Option Got :=
  let a := d.rowAddr base i slot
  match s.accErr 0 (a : Nat) d.packed with
  | some e => (s, some (.err e))
  | none =>
    let n := (s.poisonIn 0 (a : Nat) d.packed).length
    if n = 0 then (s, some (.row (s.mem.rds a d.packed)))
    else
      if s.mem.repairs.any (fun r => r.table = table && r.version = v && r.row = i) then (s, none)
      else (s.countPoison n, some .fault)

/-- Read a row homed here (R457, R463); nothing while a repair of it is outstanding: a read that
waits counts its poisoned lines when it ends (DEDUCED, assumption log 60). -/
def State.rowRead (s : State) (d : TblDesc) (table v i slot : Nat) : State × Option Got :=
  match s.verFind table v with
  | none => (s, some (.sub 9))
  | some x => s.rowReadAt d table v i slot x.base

/-- The row used in place of a substituted one: zeros under ZERO, else the default row (R456). Its poison is told. -/
def State.subRow (s : State) (d : TblDesc) (zero : Bool) : Except Nat (List Byte × Bool) :=
  if zero || d.defaultAddr = 0 then .ok (List.replicate d.packed 0, false)
  else match s.accErr 0 (d.defaultAddr : Nat) d.packed with
    | some e => .error e
    | none => .ok (s.mem.rds d.defaultAddr d.packed, s.mem.anyPoison d.defaultAddr d.packed)

/-! ### The hot area (R464, R465) -/

def TblDesc.tagAddr (d : TblDesc) (i w : Nat) : Nat := d.hotBase + 64 * (i % 2 ^ d.hotSetsLog2) + 16 * w
def TblDesc.hotAddr (d : TblDesc) (i w : Nat) : Nat :=
  d.hotBase + 64 * 2 ^ d.hotSetsLog2 + (4 * (i % 2 ^ d.hotSetsLog2) + w) * d.rowStride

/-- A row is eligible for the hot area. -/
def State.hotElig (s : State) (d : TblDesc) (table v i home slot : Nat) : Bool :=
  d.hotEn && (home ≠ s.devId || (d.dieHot && (match s.verFind table v with
    | some x => d.rowAddr x.base i slot < 0x2000000000
    | none => false)))

/-- Bytes that can be read and carry no poison. -/
def State.clean (s : State) (a n : Nat) : Bool := (s.accErr 0 (a : Nat) n).isNone && !s.mem.anyPoison a n

/-- The way that holds a row of a version. -/
def State.hotWay (s : State) (d : TblDesc) (v i : Nat) : Option Nat :=
  (List.range 4).find? (fun w =>
    let a := d.tagAddr i w
    s.clean a 16 && bit (s.mem.le (a + 8) 1) 0 && s.mem.le a 4 = i && s.mem.le (a + 4) 4 = v)

/-- Invalidate a tag. -/
def State.hotDrop (s : State) (d : TblDesc) (i w : Nat) : State := s.store (d.tagAddr i w + 8) (leBytes 1 0)

/-- The hot copy of a row; a poisoned copy is invalidated and gives nothing (R463). -/
def State.hotRead (s : State) (d : TblDesc) (v i : Nat) : State × Option (List Byte) :=
  match s.hotWay d v i with
  | none => (s, none)
  | some w =>
    let a := d.hotAddr i w
    if s.clean a d.packed then (s, some (s.mem.rds a d.packed))
    else ((s.countPoison (s.poisonIn 0 (a : Nat) d.packed).length).hotDrop d i w, none)

/-- A way is protected: it is prefetched and its time to be held has not passed (R465). -/
def State.hotHeld (s : State) (d : TblDesc) (i w : Nat) : Bool :=
  let a := d.tagAddr i w
  let left := (s.mem.le (a + 12) 4 + 2 ^ 32 - s.ns / 1000 % 2 ^ 32) % 2 ^ 32
  bit (s.mem.le (a + 8) 1) 0 && bit (s.mem.le (a + 8) 1) 1 && 0 < left && left < 2 ^ 31

/-- Place a row (R465): none where every way is protected. -/
def State.hotPlace (s : State) (d : TblDesc) (inst v i : Nat) (row : List Byte) (pre : Bool) : State × Bool :=
  let w0 := i / 2 ^ d.hotSetsLog2 % 4
  match ([0, 1, 2, 3].map (fun k => (w0 + k) % 4)).find? (fun w =>
      !s.hotHeld d i w && (s.accErr 0 (d.tagAddr i w : Nat) 16).isNone && (s.accErr 0 (d.hotAddr i w : Nat) d.packed).isNone) with
  | none => (s, false)
  | some w =>
    let s := (s.hotDrop d i w).store (d.hotAddr i w) (row.take d.packed)
    let hold := if pre then (s.ns / 1000 + s.cf (bGTH + 0x20) 31 16) % 2 ^ 32 else 0
    let s := s.store (d.tagAddr i w) (leBytes 4 i ++ leBytes 4 v ++ leBytes 1 (1 + putB pre 1) ++ leBytes 3 0 ++ leBytes 4 hold)
    (s.bump (bGTH + 0x1000 + 0x100 * (inst - 32) + 0x18) 1, true)

/-- Entry of the heat table. -/
def heatKey (table i : Nat) : Nat := Config.heatHash table i % 16384

/-- Count an eligible lookup. -/
def State.heatAdd (s : State) (table i : Nat) : State :=
  { s with gth := { s.gth with heat := tmod 0 s.gth.heat (heatKey table i) (· + 1) } }

/-- A fetched row goes to the hot area where it is due: prefetched, or hot in this window. -/
def State.hotFetched (s : State) (d : TblDesc) (inst table v i : Nat) (row : List Byte) (pre : Bool) : State :=
  if (s.hotWay d v i).isSome then s
  else if pre then
    let r := s.hotPlace d inst v i row true
    if r.2 then r.1 else r.1.bump (bGTH + 0x1000 + 0x100 * (inst - 32) + 0x38) 1
  else if tget 0 s.gth.heat (heatKey table i) ≥ d.hotThresh then (s.hotPlace d inst v i row false).1
  else s

/-! ### Requests (R457 to R460) -/

/-- A read slot is in use or quarantined. -/
def ReadSlot.taken (x : ReadSlot) : Bool := x.quar || x.req.isSome

/-- A free read slot of an instance. -/
def State.freeSlot (s : State) (inst : Nat) : Option Nat :=
  (List.range 4096).find? (fun n => !(tget {} s.gth.slots (4096 * (inst - 32) + n)).taken)

/-- Send one GATHER_REQ, if a read slot is free (R457, R573). -/
def State.gthSend (s : State) (inst : Nat) (r : GthReq) (idx wts : List Nat) : State :=
  match s.freeSlot inst with
  | none => s
  | some n =>
    let k := 4096 * (inst - 32) + n
    let x := tget {} s.gth.slots k
    let s := { s with gth := { s.gth with slots := tset {} s.gth.slots k { x with req := some r } } }
    let b := leBytes 4 (n + put x.gen 12 8 + put (inst - 32) 20 3) ++ leBytes 2 r.table ++ leBytes 1 r.mode ++ leBytes 1 0 ++
      leBytes 4 r.version ++ leBytes 4 idx.length ++ pad8 (idx.flatMap (leBytes 4)) ++
      (if r.mode = 2 then pad8 (wts.flatMap (leBytes 4)) else [])
    s.gateMsg inst { dst := r.home, toEp := false, type := 3, payload := b }

/-- The positions of a gather stage that await an answer. -/
def State.gthOut (s : State) (t k : Nat) : List Nat :=
  s.gth.slots.flatMap (fun e => match e.2.req with | some r => if r.task = t && r.stage = k then r.poss else [] | none => [])

end Sys2Proof.Machine
end

