-- ==== Sys2Proof/Machine/Gth.lean ====
section
/-! DEFINITION. Gather: GATHER, POOL and PREFETCH, the requests of other devices, and the versions (chapter 19). -/

namespace Sys2Proof.Machine

/-! ### The body (R453 to R455) -/
def gthTable (ws : List Nat) : Nat := wd ws 4 28 17
def gthFmt (ws : List Nat) : Nat := wd ws 4 16 15
def gthTk (ws : List Nat) : Nat := wd ws 10 31 16
def gthInfoId (ws : List Nat) : Nat := wd ws 9 15 0
def gthWt (ws : List Nat) : Nat := wd ws 9 31 16

/-- What issue keeps of a sample's version: 0 for a ticket that is not current, else 1 + the version (R451, R456). -/
def State.gthVersion (s : State) (table : Nat) (tk : Option Nat) : Nat :=
  let cur := match s.verCurrent table with | some x => x.version | none => 0
  match tk with
  | none => 1 + cur
  | some k =>
    if !s.ticketCur k then 0
    else match (tget {} s.ldg.pins (s.ctx (k % 2 ^ 21)).pin).tables.find? (fun e => e.1 = table) with
      | some e => 1 + e.2
      | none => 1 + cur

/-- Only dimension 0 counts. -/
def Desc.row0 (d : Desc) : Bool := (span 1 4).all (fun k => d.cnt k = 1)

/-- R449, R454, R455: the checks of a GTH stage; `hin` is the producer's principal output. -/
def State.gthInfo (s : State) (g op : Nat) (ws : List Nat) (hin : Option Desc) (hout : Bool) : Except Fail SInfo :=
  if gthTable ws ≥ wfld (s.cfgAt g (bGTH + 0x10)) 56 44 then .error (stINVALID, 4, 0)
  else match s.issueRead (s.tblDescAddr g (gthTable ws)) with
    | .error e => .error (e, 4, 0)
    | .ok b =>
      let d := TblDesc.ofBytes b
      let pre := op = 3
      let wt := gthWt ws ≠ 0xFFFF
      let info := gthInfoId ws ≠ 0xFFFF
      let tk := gthTk ws ≠ 0xFFFF
      let ix := fun (f : Nat → Desc) => match hin with | some p => p | none => f 5
      let outElem := match gthFmt ws with | 2 => 4 * d.dim | 3 => d.packed | _ => 2 * d.dim
      .ok {
        bad := (if tblBad b || wd ws 4 13 0 ≠ 0 || (wb ws 4 14 && !wt) || (op = 2 && gthFmt ws = 3) || (pre && !d.hotEn) then [4] else []) ++
          (if hin.isSome && w64 ws 5 ≠ 0 then [5] else []) ++ (if pre && w64 ws 7 ≠ 0 then [7] else []) ++
          (if (wt && op ≠ 2) || (pre && info) then [9] else []) ++ (if wd ws 10 15 0 ≠ 0 then [10] else []) ++
          (if wd ws 11 27 0 ≠ 0 || keepPrev ws then [11] else []) ++
          (if op = 2 && wd ws 12 15 0 > 16 then [12] else []) ++
          (if wd ws 13 7 0 ≠ 0 || wd ws 13 23 16 ≠ 1 || wd ws 13 15 8 ≠ 1 || wd ws 13 31 24 > (if op = 2 then 1 else 16) then [13] else []) ++
          (if wd ws 14 19 5 ≠ 0x4688 then [14] else [])
        refs := (if hin.isSome then [] else [refAt ws 5 false]) ++
          (if pre then [] else [{ refAt ws 7 true with shapeOnly := hout }]) ++
          (if wt then [refId 9 9 (gthWt ws) false] else []) ++ (if info then [refId 90 9 (gthInfoId ws) true] else []) ++
          (if tk then [refId 10 10 (gthTk ws) false] else [])
        out := 7
        ext := if pre then some (fun f => (List.range 5).map (ix f).cnt) else none
        rel := fun f =>
          let x := ix f
          let o := f 7
          let same (a b : Desc) : Bool := (List.range 5).all (fun k => a.cnt k = b.cnt k)
          (if x.elem ≠ 4 || x.cnt 3 ≠ 1 || x.cnt 4 ≠ 1 then [5] else []) ++
          (if pre then [] else if o.elem ≠ outElem || (if op = 1 then !same o x else
              o.cnt 0 ≠ x.cnt 1 || o.cnt 1 ≠ x.cnt 2 || o.cnt 2 ≠ 1 || o.cnt 3 ≠ 1 || o.cnt 4 ≠ 1) then [7] else []) ++
          (if (wt && ((f 9).elem ≠ 4 || !same (f 9) x)) || (info && ((f 90).elem ≠ 64 || !(f 90).row0 || (f 90).cnt 0 < x.cnt 2)) then [9] else []) ++
          (if tk && ((f 10).elem ≠ 4 || !(f 10).row0 || (f 10).cnt 0 < x.cnt 2) then [10] else []) ++
          (if wd ws 12 31 16 ≠ (if op = 2 then x.cnt 1 else x.cnt 0) then [12] else [])
        bins := fun f t =>
          let n := 4 * (if op = 2 then (ix f).cnt 0 * t.getD 0 1 * t.getD 1 1 else prod t)
          [(if hin.isSome then 0 else n) + (if wb ws 4 14 then n else 0)]
        bouts := fun _ t =>
          (if pre || hout then [] else [prod t * outElem]) ++
          (if info then [64 * (if op = 2 then t.getD 1 1 else t.getD 2 1)] else [])
        scratch := fun _ t => if op = 2 then 4 * d.dim * (t.getD 0 1 * t.getD 1 1) else 0
        tiled := if pre || hout then [] else [7]
        aux := fun f => leNat b :: (List.range ((ix f).cnt 2)).map (fun n =>
          s.gthVersion (gthTable ws) (if tk then some (s.ticketAt (f 10) n) else none)) }

/-! ### A stage at work -/

/-- A gather stage as its lookups see it. -/
structure GthRun where
  t : Nat
  k : Nat
  inst : Nat
  op : Nat
  weighted : Bool
  d : TblDesc
  table : Nat
  vers : List Nat
  /-- Positions of a bag, bags of a sample, samples. -/
  L : Nat
  F : Nat
  S : Nat
  idx : Nat → El
  wt : Nat → El

/-- The number of the visit whose tile holds an element. -/
def visitOf (ws e i : List Nat) : Nat :=
  let t := effExt ws e
  (tileVisits ws e).idxOf ((List.range 5).map (fun d => i.getD d 0 / max 1 (t.getD d 1)))

/-- The stage's indices and weights (R454, R456). -/
def State.gthOf (s : State) (op t k : Nat) (x : Task) (g : Stage) : GthRun :=
  let ix := if k = 0 then s.descOf t k 5 else s.handDesc t k x
  let e := if op = 2 then [ix.cnt 1, ix.cnt 2, 1, 1, 1] else (List.range 5).map ix.cnt
  let w := s.descOf t k 9
  let coords (p : Nat) : List Nat := digits ix.counts p
  { t := t, k := k, inst := g.inst, op := op, weighted := wb g.words 4 14
    d := TblDesc.ofBytes (leBytes 64 (g.aux.getD 0 0)), table := gthTable g.words, vers := g.aux.drop 1
    L := ix.cnt 0, F := ix.cnt 1, S := ix.cnt 2
    idx := fun p =>
      if k = 0 then s.elN ix p
      else
        let i := coords p
        s.handElem x k ix (visitOf g.words e (if op = 2 then [i.getD 1 0, i.getD 2 0, 0, 0, 0] else i)) i
    wt := fun p => if s.hasDesc t k 9 then s.elN w p else { data := [] } }

/-- What an index is (R456). -/
inductive Cls where
  | skip
  | pad
  | sub (cause : Nat)
  | bad
  | err (status : Nat)
  | row (i home slot : Nat)
  deriving DecidableEq, Repr

def GthRun.ver (w : GthRun) (p : Nat) : Nat := w.vers.getD (p / max 1 (w.L * w.F)) 0

def GthRun.cls (w : GthRun) (s : State) (p : Nat) : Cls :=
  let e := w.idx p
  let h := w.wt p
  let i := leNat e.data
  if w.ver p = 0 then .skip
  else match e.err, h.err with
    | some c, _ => .err c
    | none, some c => .err c
    | none, none =>
      if !e.poison.isEmpty || !h.poison.isEmpty then .bad
      else if i = 0xFFFFFFFF then .pad
      else if i ≥ w.d.rowCount then .sub 1
      else if s.remapped w.table (w.ver p - 1) i then .sub 4
      else match s.tblHome w.d i with
        | .error c => .err c
        | .ok (home, slot) => .row i home slot

/-- The device whose group a position belongs to (R462). -/
def GthRun.home (w : GthRun) (s : State) (p : Nat) : Nat :=
  let i := leNat (w.idx p).data
  if i < w.d.rowCount then (match s.tblHome w.d i with | .ok (h, _) => h | .error _ => s.devId) else s.devId

/-- Nothing is left to do for a position. -/
def GthRun.done (w : GthRun) (s : State) (f : Fetch) (p : Nat) : Bool :=
  (tget none f.got p).isSome || (match w.cls s p with | .skip => true | .pad => true | _ => false)

def Fetch.put (f : Fetch) (p : Nat) (g : Got) : Fetch := { f with got := tset none f.got p (some g), waits := f.waits.erase p }

/-- Look one row up (R457, R463, R465, R466): the answer tells a row that must be asked for from its home. -/
def GthRun.look (w : GthRun) (s : State) (f : Fetch) (p i home slot : Nat) : State × Fetch × Bool :=
  let v := w.ver p - 1
  let pre := w.op = 3
  let away := home ≠ s.devId
  let elig := s.hotElig w.d w.table v i home slot
  let f := if away && !f.remote.contains p then { f with remote := f.remote ++ [p] } else f
  let first := elig && !f.heated.contains p
  let s := s.whenB first (·.heatAdd w.table i)
  let f := if first then { f with heated := f.heated ++ [p] } else f
  if pre && (!elig || (s.hotWay w.d v i).isSome) then (s, f.put p (.row []), false)
  else
    let (s, hit) := if elig then s.hotRead w.d v i else (s, none)
    match hit with
    | some b => (s, { f.put p (.row b) with hot := f.hot ++ [p] }, false)
    | none =>
      if away then (s, f, true)
      else match s.rowRead w.d w.table v i slot with
        | (s, none) => (s, if f.waits.contains p then f else { f with waits := f.waits ++ [p] }, false)
        | (s, some (.row b)) => (s.whenB elig (·.hotFetched w.d w.inst w.table v i b pre), f.put p (.row b), false)
        | (s, some g) => (s, f.put p g, false)

/-- The misses of one home in one bag go out (R458, R459). -/
def GthRun.ask (w : GthRun) (s : State) (f : Fetch) (bag home : Nat) (miss : List Nat) : State × Fetch :=
  let ps := span (bag * w.L) w.L
  let group := ps.filter (fun p => match w.cls s p with | .row _ h _ => h = home | .sub 4 => w.home s p = home | _ => false)
  let idxOf (p : Nat) : Nat := leNat (w.idx p).data
  let req (poss : List Nat) (mode : Nat) : GthReq :=
    { task := w.t, stage := w.k, poss := poss, bag := bag, home := home, mode := mode, table := w.table, version := w.ver (bag * w.L) - 1 }
  if w.op = 2 && group = miss && miss.length * w.d.rowStride > 4 * w.d.dim && miss.length ≤ 2097144 then
    let r := req miss (if w.weighted then 2 else 1)
    if (s.freeSlot w.inst).isNone then (s, f)
    else (s.gthSend w.inst r (miss.map idxOf) (miss.map (fun p => leNat (w.wt p).data)), { f with pooled := f.pooled ++ [bag] })
  else
    let per := 16777176 / (cdiv w.d.packed 8 * 8 + 1)
    ((chunks per (miss.length + 1) miss).foldl (fun s l => s.gthSend w.inst (req l 0) (l.map idxOf) []) s, f)

/-- One bag: every position that is not resolved and not asked for. -/
def GthRun.bag (w : GthRun) (r : State × Fetch) (bag : Nat) : State × Fetch :=
  let out := r.1.gthOut w.t w.k
  let todo := (span (bag * w.L) w.L).filter (fun p => !w.done r.1 r.2 p && !out.contains p)
  let (s, f, miss) := todo.foldl (fun (a : State × Fetch × List (Nat × Nat)) p =>
    let (s, f, m) := a
    match w.cls s p with
    | .skip | .pad => a
    | .sub c => (s, f.put p (.sub c), m)
    | .bad => (s, f.put p .fault, m)
    | .err c => (s, f.put p (.err c), m)
    | .row i h sl =>
      let (s, f, away) := w.look s f p i h sl
      (s, f, if away then m ++ [(p, h)] else m)) (r.1, r.2, [])
  let homes := sortNat (miss.map Prod.snd).eraseDups
  homes.foldl (fun (a : State × Fetch) h => w.ask a.1 a.2 bag h ((miss.filter (fun e => e.2 = h)).map Prod.fst)) (s, f)

/-- The bytes a resolved position stands for, and whether they are poisoned. -/
def GthRun.rowOf (w : GthRun) (s : State) (g : Got) : Except Nat (List Byte × Bool) :=
  match g with
  | .row b => .ok (b, false)
  | .sub c => s.subRow w.d (c = 1 && w.d.inval = 1)
  | .fault => s.subRow w.d false
  | .err c => .error c

/-- The sum of one bag, element by element (R462). -/
def GthRun.pool (w : GthRun) (s : State) (f : Fetch) (bag : Nat) : List Nat :=
  let zero := List.replicate w.d.dim 0
  let ps := (span (bag * w.L) w.L).filter (fun p => (tget none f.got p).isSome)
  let homes := sortNat (ps.map (w.home s)).eraseDups
  let part (h : Nat) : List Nat :=
    match f.parts.find? (fun e => e.1 = bag && e.2.1 = h) with
    | some e => e.2.2
    | none =>
      (ps.filter (fun p => w.home s p = h)).foldl (fun acc p =>
        let b := match w.rowOf s ((tget none f.got p).getD (.row [])) with | .ok r => r.1 | .error _ => []
        let x := w.d.vals b
        let x := if w.weighted then x.map (fMul (leNat (w.wt p).data)) else x
        List.zipWith fAdd acc x) zero
  homes.foldl (fun tot h => List.zipWith fAdd tot (part h)) zero

/-- What a stage reports of one sample (R467). -/
structure GthSample where
  outcome : Outcome
  T : Nat
  pads : Nat
  M : Nat
  first : Nat
  cause : Nat
  deriving DecidableEq, Repr

def GthRun.sample (w : GthRun) (s : State) (g : Nat) (hasTk : Bool) (tk : Nat) (f : Fetch) (n : Nat) : GthSample :=
  let ps := span (n * (w.L * w.F)) (w.L * w.F)
  let got := ps.filterMap (fun p => (tget none f.got p).map (fun x => (p, x)))
  let bad := w.d.inval = 2 && got.any (fun e => e.2 = .sub 1)
  let subs := got.filterMap (fun e => match e.2 with
    | .sub c => if c = 1 && w.d.inval = 2 then none else some (e.1, c)
    | .fault => some (e.1, 4)
    | _ => none)
  let T := got.length
  let stale := w.vers.getD n 0 = 0
  let fault := got.any (fun e => e.2 = .fault || (match w.rowOf s e.2 with | .ok r => r.2 | .error _ => false))
  let first := subs.head?
  let bp := damageBp subs.length T
  let cause := match first with | some e => e.2 | none => 0
  let out : Outcome :=
    if stale then { ticket := tk, status := stSTALE, report := none }
    else if fault then failedSample tk stPOISON 4
    else if bad then failedSample tk stFORMAT 1
    else if hasTk then s.damaged g tk bp cause
    else { ticket := tk, status := if bp > 200 then stDAMAGED else stOK, report := some (false, if bp = 0 then 0 else cause, bp) }
  { outcome := out, T := T, pads := if stale then 0 else ps.length - T, M := subs.length
    first := match first with | some e => e.1 | none => 0xFFFFFFFF
    cause := match out.report with | some r => r.2.1 | none => 0 }

/-- The GTH information entry (R468). -/
def GthSample.bytes (x : GthSample) (version remote hot : Nat) : List Byte :=
  leBytes 4 x.outcome.ticket ++ leBytes 2 x.outcome.status ++ leBytes 2 (match x.outcome.report with | some r => r.2.2 | none => 0) ++
  leBytes 4 version ++ leBytes 4 x.T ++ leBytes 4 x.pads ++ leBytes 4 x.M ++ leBytes 4 remote ++ leBytes 4 hot ++
  leBytes 4 x.first ++ leBytes 1 x.cause ++ leBytes 27 0

/-- Every lookup is resolved: outputs, information, counters and the result (R462, R466 to R468, R471). -/
def GthRun.finish (w : GthRun) (s : State) (f : Fetch) (x : Task) (g : Stage) : State :=
  let t := w.t
  let k := w.k
  let ws := g.words
  let hasTk := s.hasDesc t k 10
  let tkd := s.descOf t k 10
  let O := s.descOf t k 7
  let sm := (List.range w.S).map (fun i => w.sample s x.gen hasTk (if hasTk then s.ticketAt tkd i else 0) f i)
  let live (i : Nat) : Bool := match sm[i]? with | some y => y.outcome.status = stOK || y.outcome.status = stDAMAGED | none => false
  let e := match w.op with | 2 => [w.F, w.S, 1, 1, 1] | _ => [w.L, w.F, w.S, 1, 1]
  let rowB (p : Nat) : List Byte := match tget none f.got p with
    | some q => (match w.rowOf s q with | .ok r => r.1 | .error _ => [])
    | none => []
  let conv (v : List Nat) : List Byte := v.flatMap (fun y => leBytes (outWidth (3 + gthFmt ws)) (outConv (3 + gthFmt ws) y))
  let val (i : List Nat) : List Byte :=
    let smp := if w.op = 2 then i.getD 1 0 else i.getD 2 0
    let p := undigits e i
    if !live smp then List.replicate O.elem 0
    else if w.op = 2 then conv (w.pool s f p)
    else if (rowB p).isEmpty then List.replicate O.elem 0
    else if gthFmt ws = 3 then (rowB p).take O.elem
    else conv (w.d.vals (rowB p))
  let stop (p : Nat) : List El := match tget none f.got p with
    | some q => (match w.rowOf s q with | .error c => [{ data := [], err := some c }] | .ok _ => [])
    | none => []
  let visits := tileVisits ws e
  let works := visits.map (fun j => Work.join ((tileEls ws e j).map (fun i =>
    let ps := if w.op = 2 then span (undigits e i * w.L) w.L else [undigits e i]
    { reads := (if k = 0 then ps.map w.idx else []) ++ (if w.weighted then ps.map w.wt else []) ++ ps.flatMap stop
      writes := if w.op = 3 || handsOut x k then [] else [(7, undigits O.counts i, val i, false)] })))
  let tks := if hasTk then (List.range w.S).map (s.elN tkd) else []
  let info : Work := {
    reads := tks
    writes := if s.hasDesc t k 90 then (List.range w.S).filterMap (fun i => sm[i]?.map (fun y =>
      let mine (p : Nat) : Bool := p / max 1 (w.L * w.F) = i
      let ver (i : Nat) : Nat := if w.vers.getD i 0 = 0 then Config.freeValue s.free i % 2 ^ 32 else w.vers.getD i 0 - 1
      (90, i, y.bytes (ver i) (f.remote.filter mine).length (f.hot.filter mine).length, false))) else [] }
  let s1 := { s with free := s.free + 1, gth := { s.gth with fetch := s.gth.fetch.filter (fun y => !(y.task = t && y.stage = k)) } }
  let s1 := s1.countPoison (worksPoison (works ++ [info]))
  let (s1, err) := s1.runWorks t k (works ++ [info])
  let c (i : Nat) : Nat := bGTH + 0x1000 + 0x100 * (w.inst - 32) + 8 * i
  let cause9 := (f.got.filter (fun q => q.2 = some (.sub 9))).length
  let s1 := (((s1.bump (c 0) ((sm.map GthSample.T).sum)).bump (c 1) f.remote.length).bump (c 2) f.hot.length).bump (c 4) f.pooled.length
  let s1 := ((s1.bump (c 5) ((sm.map GthSample.M).sum)).errN (c 8) ((sm.filter (fun y => y.outcome.status = stFORMAT)).length)).errN (c 9) cause9
  match err with
  | some q => s1.endStage t k { status := q }
  | none =>
    if tks.any (fun y => !y.poison.isEmpty) then s1.endStage t k { status := stPOISON }
    else if w.op = 3 then s1.endStage t k { result := put w.S 0 32 }
    else
      let r := sampleRes (wd ws 4 31 29) [stSTALE] (sm.map GthSample.outcome)
      let hb := if handsOut x k then visits.map (fun j => s.handBytes ws e j O.elem val) else []
      s1.endStage t k (if hasTk then r else { r with reports := [] }) hb

/-- One pass over a gather stage: what can be read is read, what must be asked for is asked for, and a stage with
nothing outstanding ends (R457, R463). -/
def State.gthRun (s : State) (op t k : Nat) (x : Task) (g : Stage) : State :=
  let w := s.gthOf op t k x g
  let f := (s.gth.fetch.find? (fun y => y.task = t && y.stage = k)).getD { task := t, stage := k }
  let (s, f) := (List.range (w.F * w.S)).foldl w.bag (s, f)
  if (List.range (w.L * w.F * w.S)).all (w.done s f) then w.finish s f x g
  else { s with gth := { s.gth with fetch := s.gth.fetch.filter (fun y => !(y.task = t && y.stage = k)) ++ [f] } }

/-- R456, R457, R460, R463, R467. -/
def execGather (t k : Nat) (s : State) : Host.Outcome State Fault Refusal := .next (s.eng t k 5 1 (fun x g s => s.gthRun 1 t k x g))

/-- R458, R462. -/
def execPool (t k : Nat) (s : State) : Host.Outcome State Fault Refusal := .next (s.eng t k 5 2 (fun x g s => s.gthRun 2 t k x g))

/-- R466. -/
def execPrefetch (t k : Nat) (s : State) : Host.Outcome State Fault Refusal := .next (s.eng t k 5 3 (fun x g s => s.gthRun 3 t k x g))

/-! ### Requests of other devices (R461, R574, R575) -/

/-- A row as its home serves it: its bytes, or status 1 poisoned, 2 not served. -/
def State.homeRow (s : State) (d : TblDesc) (table version i : Nat) : Except Nat (List Byte) :=
  if i ≥ d.rowCount then .error 2
  else match s.tblHome d i with
    | .error _ => .error 2
    | .ok (h, slot) =>
      if h ≠ s.devId then .error 2
      else match s.heldBase table version with
        | none => .error 2
        | some base =>
          if s.remapped table version i then .error 1
          else match (s.rowReadAt d table version i slot base).2 with
            | some (.row b) => .ok b
            | some .fault => .error 1
            | none => .error 1
            | _ => .error 2

/-- R461: a GATHER_REQ is served from the named version, as rows or as a pooled partial. -/
def execGatherReq (s : State) : Host.Outcome State Fault Refusal :=
  match s.inMsg 3 0 with
  | none => .next s
  | some m =>
    match (kindBays 5).find? (fun n => s.instRuns n) with
    | none => .next s
    | some inst =>
      let f (a n : Nat) : Nat := leNat ((m.body.drop a).take n)
      let table := f 4 2 % 4096
      let mode := f 6 1
      let version := f 8 4
      let count := min (f 0xC 4) ((m.body.length - 16) / 4)
      let idx := (List.range count).map (fun i => f (16 + 4 * i) 4)
      let wOff := 16 + cdiv (4 * count) 8 * 8
      let b := match s.issueRead (s.tblDescAddr s.gen table) with | .ok b => b | .error _ => []
      let d := TblDesc.ofBytes b
      let known := table < s.cf (bGTH + 0x10) 56 44 && b.length = 64 && !tblBad b
      let rows := idx.map (fun i => if known then s.homeRow d table version i else .error 2)
      let code : Except Nat (List Byte) → Nat := fun r => match r with | .ok _ => 0 | .error e => e
      let data : Except Nat (List Byte) → List Byte := fun r => match r with | .ok b => b | .error _ => []
      let w := cdiv d.packed 8 * 8
      let s := (s.popMsg m).bump (bGTH + 0x100) 1
      if mode = 0 then
        let body := m.body.take 4 ++ leBytes 4 version ++ leBytes 4 count ++ leBytes 4 w ++
          pad8 (rows.flatMap (fun r => leBytes 1 (code r))) ++ rows.flatMap (fun r => (data r ++ List.replicate w 0).take w)
        .next (s.gateMsg inst { dst := m.src, toEp := m.srcEp, type := 4, payload := body })
      else
        let st := if rows.any (fun r => code r = 2) then 2 else if rows.any (fun r => code r = 1) then 1 else 0
        let zero := List.replicate d.dim 0
        let part := (List.range count).foldl (fun acc i =>
          let x := d.vals (data (rows.getD i (.error 2)))
          List.zipWith fAdd acc (if mode = 2 then x.map (fMul (f (wOff + 4 * i) 4)) else x)) zero
        let body := m.body.take 4 ++ leBytes 4 version ++ leBytes 2 d.dim ++ leBytes 1 st ++ leBytes 1 0 ++ leBytes 4 count ++
          pad8 ((if st = 0 then part else zero).flatMap (leBytes 4))
        .next (s.gateMsg inst { dst := m.src, toEp := m.srcEp, type := 5, payload := body })

/-! ### Answers (R460) -/

/-- The read slot a request id names, with its request where the generation is current and the mode fits. -/
def State.slotFor (s : State) (id : Nat) (pool : Bool) : Option (Nat × GthReq) :=
  let k := 4096 * fld id 22 20 + id % 4096
  let x := tget {} s.gth.slots k
  match x.req with
  | some r => if x.gen = fld id 19 12 && (decide (r.mode ≠ 0)) = pool then some (k, r) else none
  | none => none

/-- A late answer is counted against the instance its id names. -/
def State.lateRsp (s : State) (id : Nat) : State := s.bump (bGTH + 0x1000 + 0x100 * fld id 22 20 + 0x30) 1

/-- The read slot is free again. -/
def State.slotDone (s : State) (k : Nat) : State :=
  { s with gth := { s.gth with slots := tset {} s.gth.slots k { tget {} s.gth.slots k with req := none } } }

/-- Change the gather stage a request serves. -/
def State.modFetch (s : State) (r : GthReq) (h : Fetch → Fetch) : State :=
  { s with gth := { s.gth with fetch := s.gth.fetch.map (fun y => if y.task = r.task && y.stage = r.stage then h y else y) } }

/-- The gather stage of a request. -/
def State.gthStage (s : State) (r : GthReq) : Option (Task × Stage) :=
  (s.task r.task).bind (fun x => (x.stages[r.stage]?).map (fun g => (x, g)))

/-- R460, R574. -/
def execGatherRsp (s : State) : Host.Outcome State Fault Refusal :=
  match s.inMsg 4 0 with
  | none => .next s
  | some m =>
    let f (a n : Nat) : Nat := leNat ((m.body.drop a).take n)
    let s := s.popMsg m
    match s.slotFor (f 0 4) false with
    | none => .next (s.lateRsp (f 0 4))
    | some (k, r) =>
      let w := f 0xC 4
      let rows := 16 + cdiv (f 8 4) 8 * 8
      let s := s.slotDone k
      match s.gthStage r with
      | none => .next s
      | some (_, g) =>
        let d := TblDesc.ofBytes (leBytes 64 (g.aux.getD 0 0))
        let st (i : Nat) : Nat := if i < f 8 4 then f (16 + i) 1 else 2
        let row (i : Nat) : List Byte := ((m.body.drop (rows + w * i)).take w).take d.packed
        let ps := (List.range r.poss.length)
        let s := ps.foldl (fun s i => s.modFetch r (fun y => y.put (r.poss.getD i 0)
          (if st i = 0 then .row (row i) else .sub (if st i = 1 then 4 else 9)))) s
        let idx (x : Task) (p : Nat) : Nat := leNat ((s.gthOf g.op r.task r.stage x g).idx p).data
        match s.task r.task with
        | none => .next s
        | some x => .next (ps.foldl (fun s i =>
            if st i = 0 && d.hotEn then s.hotFetched d g.inst r.table r.version (idx x (r.poss.getD i 0)) (row i) (g.op = 3) else s) s)

/-- R575: a partial for a group, or the substitution of its every index. -/
def execPooledSum (s : State) : Host.Outcome State Fault Refusal :=
  match s.inMsg 5 0 with
  | none => .next s
  | some m =>
    let f (a n : Nat) : Nat := leNat ((m.body.drop a).take n)
    let s := s.popMsg m
    match s.slotFor (f 0 4) true with
    | none => .next (s.lateRsp (f 0 4))
    | some (k, r) =>
      let st := f 0xA 1
      let part := (List.range (f 8 2)).map (fun i => f (16 + 4 * i) 4)
      .next ((s.slotDone k).modFetch r (fun y =>
        let g : Got := if st = 0 then .row [] else .sub (if st = 1 then 4 else 9)
        let y := r.poss.foldl (fun y p => y.put p g) y
        if st = 0 then { y with parts := y.parts ++ [(r.bag, r.home, part)] } else y))

/-- R460: no answer within remote_us of a request; `n` is instance * 4,096 + slot. -/
def execRemoteTimeout (n : Nat) (s : State) : Host.Outcome State Fault Refusal :=
  let x := tget {} s.gth.slots n
  if x.req.isNone then .next s
  else
    let s := s.gthFailReq n 9
    .next { s with gth := { s.gth with slots := tset {} s.gth.slots n { gen := (x.gen + 1) % 256, quar := true } } }

/-- R460. -/
def execReadSlotRelease (n : Nat) (s : State) : Host.Outcome State Fault Refusal :=
  let x := tget {} s.gth.slots n
  .next { s with gth := { s.gth with slots := tset {} s.gth.slots n { x with quar := false } } }

/-- R463: the positions of a stage that wait for a repair are substituted. -/
def execRepairWaitTimeout (t k : Nat) (s : State) : Host.Outcome State Fault Refusal :=
  .next { s with gth := { s.gth with fetch := s.gth.fetch.map (fun y =>
    if y.task = t && y.stage = k then y.waits.foldl (fun y p => y.put p (.sub 4)) y else y) } }

/-- R465. -/
def execHeatWindowEnd (s : State) : Host.Outcome State Fault Refusal := .next { s with gth := { s.gth with heat := [] } }

/-- R452: slot v of table t is RETIRING and nothing uses its version. -/
def execVersionSlotFree (t v : Nat) (s : State) : Host.Outcome State Fault Refusal :=
  let x := tget {} s.gth.ver (4 * t + v)
  let pinned := s.ldg.pins.any (fun e => e.2.tables.contains (t, x.version))
  let cmd := s.taskList.any (fun e => e.2.stages.any (fun g =>
    g.kind = 5 && gthTable g.words = t && (g.aux.drop 1).contains (1 + x.version)))
  let read := s.gth.slots.any (fun e => match e.2.req with | some r => r.table = t && r.version = x.version | none => false)
  if v < 4 && x.state = .retiring && !pinned && !cmd && !read then
    .next { s with gth := { s.gth with ver := tset {} s.gth.ver (4 * t + v) {} } }
  else .next s

end Sys2Proof.Machine
end

