-- ==== Sys2Proof/Machine/LexOps.lean ====
section
/-! DEFINITION. From bytes to tokens: UTF-8, normalisation, classes and the longest-match walk (R374 to R381). -/

namespace Sys2Proof.Machine

/-! ### UTF-8 (R374) -/

/-- A code point with the byte offset of its source and whether damage made it. -/
structure Cp where
  c : Nat
  off : Nat
  dmg : Bool := false
  deriving DecidableEq, Repr

/-- Continuation bytes a lead byte calls for, its payload, and the range of the second byte. -/
def utfLead (b : Nat) : Option (Nat × Nat × Nat × Nat) :=
  if b < 0x80 then some (0, b, 0x80, 0xBF)
  else if b < 0xC2 then none
  else if b < 0xE0 then some (1, b % 32, 0x80, 0xBF)
  else if b = 0xE0 then some (2, 0, 0xA0, 0xBF)
  else if b = 0xED then some (2, 0xD, 0x80, 0x9F)
  else if b < 0xF0 then some (2, b % 16, 0x80, 0xBF)
  else if b = 0xF0 then some (3, 0, 0x90, 0xBF)
  else if b < 0xF4 then some (3, b % 8, 0x80, 0xBF)
  else if b = 0xF4 then some (3, 4, 0x80, 0x8F)
  else none

/-- The decoder between bytes: offset of the sequence under way, continuation bytes wanted, payload, range. -/
structure UtfSt where
  start : Nat
  want : Nat
  v : Nat
  lo : Nat
  hi : Nat

/-- A byte that begins a sequence. -/
def utfFirst (off b : Nat) (out : List Cp) : List Cp × Option UtfSt :=
  match utfLead b with
  | none => ({ c := 0xFFFD, off := off, dmg := true } :: out, none)
  | some (0, v, _, _) => ({ c := v, off := off } :: out, none)
  | some (n, v, lo, hi) => (out, some { start := off, want := n, v := v, lo := lo, hi := hi })

/-- Decode bytes; each maximal subpart of an ill-formed sequence gives one damaged U+FFFD. -/
def utfRun : Nat → List Byte → List Cp → Option UtfSt → List Cp
  | _, [], out, st => (match st with | some x => ({ c := 0xFFFD, off := x.start, dmg := true : Cp }) :: out | none => out).reverse
  | off, b :: bs, out, st =>
    let r := match st with
      | none => utfFirst off b.toNat out
      | some x =>
        if x.lo ≤ b.toNat && b.toNat ≤ x.hi then
          let v := x.v * 64 + b.toNat % 64
          if x.want = 1 then ({ c := v, off := x.start } :: out, none)
          else (out, some { start := x.start, want := x.want - 1, v := v, lo := 0x80, hi := 0xBF })
        else utfFirst off b.toNat ({ c := 0xFFFD, off := x.start, dmg := true } :: out)
    utfRun (off + 1) bs r.1 r.2

/-- UTF-8 bytes of a code point. -/
def utf8 (c : Nat) : List Nat :=
  if c < 0x80 then [c]
  else if c < 0x800 then [0xC0 + c / 64, 0x80 + c % 64]
  else if c < 0x10000 then [0xE0 + c / 4096, 0x80 + c / 64 % 64, 0x80 + c % 64]
  else [0xF0 + c / 262144, 0x80 + c / 4096 % 64, 0x80 + c / 64 % 64, 0x80 + c % 64]

/-! ### Reads of a dictionary or a table (R381) -/

/-- A read of device memory by a lane: what stops it, POISON, or its value. -/
def State.lexRd (s : State) (a n : Nat) : Except Nat Nat :=
  match s.accErr 0 (a : Nat) n with
  | some e => .error e
  | none => if s.mem.anyPoison a n then .error stPOISON else .ok (s.mem.le a n)

/-! ### Normalisation (R375, R376) -/

/-- The header of a normalisation table. -/
structure NormTbl where
  base : Nat
  pages : Nat
  decomps : Nat
  pairs : Nat
  level1 : Nat
  pagesAt : Nat
  decompAt : Nat
  pairsAt : Nat

/-- The table of a generation, its header checked. -/
def State.normTbl (s : State) (g : Nat) : Except Nat NormTbl := do
  let base := put (wfld (s.cfgAt g (bLEX + 0x10)) 43 6) 6 38
  let magic ← s.lexRd base 4
  let ver ← s.lexRd (base + 4) 2
  let pages ← s.lexRd (base + 0xC) 2
  let rsv ← s.lexRd (base + 0xE) 2
  let decomps ← s.lexRd (base + 0x10) 4
  let pairs ← s.lexRd (base + 0x14) 4
  let l1 ← s.lexRd (base + 0x18) 4
  let pg ← s.lexRd (base + 0x1C) 4
  let dc ← s.lexRd (base + 0x20) 4
  let pr ← s.lexRd (base + 0x24) 4
  let tail ← s.lexRd (base + 0x28) 24
  if magic ≠ 0x4E584C57 || ver ≠ 1 || pages = 0 || pages > 4352 || rsv ≠ 0 || tail ≠ 0 || pairs > 4096 ||
     [l1, pg, dc, pr].any (fun o => o % 64 ≠ 0) then .error stFORMAT
  else .ok { base := base, pages := pages, decomps := decomps, pairs := pairs
             level1 := base + l1, pagesAt := base + pg, decompAt := base + dc, pairsAt := base + pr }

def isHangul (c : Nat) : Bool := 0xAC00 ≤ c && c < 0xAC00 + 11172

/-- The page entry of a code point. -/
def State.normEntry (s : State) (t : NormTbl) (c : Nat) : Except Nat Nat := do
  if c ≥ 0x110000 then .error stFORMAT
  else
    let p ← s.lexRd (t.level1 + 2 * (c / 256)) 2
    if p ≥ t.pages then .error stFORMAT else s.lexRd (t.pagesAt + 4096 * p + 16 * (c % 256)) 16

/-- Canonical combining class. -/
def State.ccc (s : State) (t : NormTbl) (c : Nat) : Except Nat Nat :=
  if isHangul c then .ok 0 else (s.normEntry t c).map (· % 256)

/-- The full decomposition of a code point, canonical or compatibility. -/
def State.decomp (s : State) (t : NormTbl) (compat : Bool) (c : Nat) : Except Nat (List Nat) :=
  if isHangul c then
    let i := c - 0xAC00
    .ok ([0x1100 + i / 588, 0x1161 + i % 588 / 28] ++ (if i % 28 = 0 then [] else [0x11A7 + i % 28]))
  else do
    let e ← s.normEntry t c
    let (len, off) := if compat && fld e 31 24 ≠ 0 then (fld e 31 24, fld e 95 64) else (fld e 23 16, fld e 63 32)
    if len = 0 then .ok [c]
    else if len > 18 || off + len > t.decomps then .error stFORMAT
    else (List.range len).mapM (fun i => s.lexRd (t.decompAt + 4 * (off + i)) 4)

/-- Place a non-starter after those of equal or lower class, within its run (canonical ordering). -/
def insCcc (x : Cp × Nat) : List (Cp × Nat) → List (Cp × Nat)
  | [] => [x]
  | y :: ys => if y.2 > x.2 && x.2 ≠ 0 then y :: insCcc x ys else x :: y :: ys

/-- Canonical ordering; the list runs newest first. -/
def orderCcc (l : List (Cp × Nat)) : List (Cp × Nat) := (l.foldl (fun acc x => insCcc x acc) []).reverse

/-- The composite of a pair in the sorted pair list. -/
def State.pairFind (s : State) (t : NormTbl) (a b : Nat) : Nat → Nat → Nat → Except Nat (Option Nat)
  | 0, _, _ => .ok none
  | fuel + 1, lo, hi =>
    if hi ≤ lo then .ok none
    else do
      let m := (lo + hi) / 2
      let x ← s.lexRd (t.pairsAt + 12 * m) 4
      let y ← s.lexRd (t.pairsAt + 12 * m + 4) 4
      if x = a ∧ y = b then (s.lexRd (t.pairsAt + 12 * m + 8) 4).map some
      else if x < a ∨ (x = a ∧ y < b) then s.pairFind t a b fuel (m + 1) hi
      else s.pairFind t a b fuel lo m

/-- The primary composite of two code points. -/
def State.compose2 (s : State) (t : NormTbl) (a b : Nat) : Except Nat (Option Nat) :=
  if 0x1100 ≤ a ∧ a < 0x1113 ∧ 0x1161 ≤ b ∧ b < 0x1176 then .ok (some (0xAC00 + ((a - 0x1100) * 21 + (b - 0x1161)) * 28))
  else if isHangul a ∧ (a - 0xAC00) % 28 = 0 ∧ 0x11A8 ≤ b ∧ b < 0x11C3 then .ok (some (a + (b - 0x11A7)))
  else s.pairFind t a b 14 0 t.pairs

/-- Canonical composition: finished code points newest first, the last starter, what follows it newest first, and the
class of the latest of those. -/
def State.composeRun (s : State) (t : NormTbl) : List Cp → Option Cp → List Cp → Option Nat → List (Cp × Nat) → Except Nat (List Cp)
  | acc, st, mid, _, [] => .ok (mid ++ st.toList ++ acc).reverse
  | acc, none, _, _, (c, k) :: r => if k = 0 then s.composeRun t acc (some c) [] none r else s.composeRun t (c :: acc) none [] none r
  | acc, some a, mid, last, (c, k) :: r => do
    let p ← (if last.any (fun l => decide (k ≤ l)) then .ok none else s.compose2 t a.c c.c)
    match p with
    | some q => s.composeRun t acc (some { a with c := q, dmg := a.dmg || c.dmg }) mid last r
    | none =>
      if k = 0 then s.composeRun t (mid ++ a :: acc) (some c) [] none r
      else s.composeRun t acc (some a) (c :: mid) (some k) r

/-- NFC or NFKC of a run of code points. -/
def State.normRun (s : State) (t : NormTbl) (compat : Bool) (l : List Cp) : Except Nat (List Cp) := do
  let ds ← l.mapM (fun x => (s.decomp t compat x.c).map (fun cs => cs.map (fun c => { x with c := c })))
  let ks ← ds.flatten.mapM (fun x => (s.ccc t x.c).map (fun k => (x, k)))
  s.composeRun t [] none [] none (orderCcc ks)

/-- Segments: a starter followed by its non-starters. -/
def segments : List (Cp × Nat) → List (List Cp)
  | [] => []
  | (c, k) :: r => match segments r, r with
    | sg :: sgs, (_, k') :: _ => if k' ≠ 0 then (c :: sg) :: sgs else [c] :: sg :: sgs
    | l, _ => let _ := k; [c] :: l

/-- Runs of segments of at most 32 code points, and the long segments between them. -/
def shortRuns : List (List Cp) → List (Bool × List Cp)
  | [] => []
  | sg :: r => match decide (sg.length > 32), shortRuns r with
    | true, l => (true, sg) :: l
    | false, (false, x) :: l => (false, sg ++ x) :: l
    | false, l => (false, sg) :: l

/-- R375: the normalised code points and the number of long segments passed through. -/
def State.normalise (s : State) (g norm : Nat) (l : List Cp) : Except Nat (List Cp × Nat) :=
  if norm = 0 then .ok (l, 0)
  else do
    let t ← s.normTbl g
    let ks ← l.mapM (fun x => (s.ccc t x.c).map (fun k => (x, k)))
    let runs := shortRuns (segments ks)
    let out ← runs.mapM (fun r => if r.1 then .ok (r.2.map (fun x => { x with dmg := true })) else s.normRun t (norm = 2) r.2)
    .ok (out.flatten, (runs.filter Prod.fst).length)

/-! ### The dictionary (R377 to R380) -/

/-- A field of a dictionary's bank part. -/
def dictF (b : List Byte) (a n : Nat) : Nat := leNat ((b.drop a).take n)

/-- A bank part that a check of R381 refuses when it loads. -/
def lexDictBad (b : List Byte) : Bool :=
  let f := dictF b
  f 0 4 ≠ 0x44584C57 || f 4 2 ≠ 1 || f 6 1 = 0 || f 7 1 > 1 || f 0xC 4 = 0 || f 0xC 4 > 4194304 || f 0x10 4 = 0 || f 0x10 4 > 16777216 ||
  f 0x14 4 > 67108864 || f 0x18 8 % 64 ≠ 0 || f 0x20 8 % 64 ≠ 0 || f 0x28 4 + 255 > 4194303 || f 0x2C 4 > 4194303 ||
  f 0x30 4 > 4194303 || f 0x34 4 > 4194303 || f 0x38 4 > 4194303 || f 0x3C 2 = 0 || f 0x3C 2 > 4352 || b.length < 9984 + 128 * f 0x3C 2

/-- The class of a code point. -/
def classOf (b : List Byte) (c : Nat) : Except Nat Nat :=
  if c ≥ 0x110000 then .error stFORMAT
  else
    let p := dictF b (0x500 + 2 * (c / 256)) 2
    if p ≥ dictF b 0x3C 2 then .error stFORMAT
    else .ok (dictF b (0x2700 + 128 * p + c % 256 / 2) 1 / 16 ^ (c % 2) % 16)

/-- Pieces of classed code points. -/
def cutPieces (b : List Byte) : List (Cp × Nat) → List (List Cp)
  | [] => []
  | (c, k) :: r => match cutPieces b r, r with
    | p :: ps, (_, k') :: _ => if bit (dictF b (0x40 + 2 * k) 2) k' then [c] :: p :: ps else (c :: p) :: ps
    | l, _ => [c] :: l

/-- One byte of a piece: its value, its code point's source offset and damage, and whether it begins a code point. -/
structure PByte where
  b : Nat
  off : Nat
  dmg : Bool
  first : Bool
  deriving DecidableEq, Repr

def pieceBytes (l : List Cp) : List PByte :=
  l.flatMap (fun c => match utf8 c.c with
    | [] => []
    | x :: xs => { b := x, off := c.off, dmg := c.dmg, first := true } :: xs.map (fun y => { b := y, off := c.off, dmg := c.dmg, first := false }))

/-- A node's two words. -/
def State.node (s : State) (b : List Byte) (i : Nat) : Except Nat (Nat × Nat) :=
  if i ≥ dictF b 0x10 4 then .error stFORMAT
  else do
    let v ← s.lexRd (dictF b 0x18 8 % 2 ^ 44 + 8 * i) 8
    .ok (v % 2 ^ 32, v / 2 ^ 32)

/-- The child of a node's edges for a byte, by binary search. -/
def State.edgeFind (s : State) (d : List Byte) (first : Nat) (x : Nat) : Nat → Nat → Nat → Except Nat (Option Nat)
  | 0, _, _ => .ok none
  | fuel + 1, lo, hi =>
    if hi ≤ lo then .ok none
    else do
      let m := (lo + hi) / 2
      if first + m ≥ dictF d 0x14 4 then .error stFORMAT
      else
        let v ← s.lexRd (dictF d 0x20 8 % 2 ^ 44 + 4 * (first + m)) 4
        if v % 256 = x then .ok (some (v / 256))
        else if v % 256 < x then s.edgeFind d first x fuel (m + 1) hi
        else s.edgeFind d first x fuel lo m

/-- The child of a node for a byte; node 0 is the root. -/
def State.child (s : State) (d : List Byte) (i x : Nat) : Except Nat (Option Nat) :=
  if i = 0 then
    let c := dictF d (0x100 + 4 * x) 4
    .ok (if c = 0xFFFFFFFF then none else some c)
  else do
    let (w, first) ← s.node d i
    s.edgeFind d first x 10 0 (fld w 30 22)

/-- The longest entry that the bytes begin with: its token and length. -/
def State.longest (s : State) (d : List Byte) : Nat → Nat → Nat → Option (Nat × Nat) → List PByte → Except Nat (Option (Nat × Nat))
  | 0, _, _, best, _ => .ok best
  | _ + 1, _, _, best, [] => .ok best
  | fuel + 1, i, n, best, x :: xs => do
    match ← s.child d i x.b with
    | none => .ok best
    | some c =>
      let (w, _) ← s.node d c
      s.longest d fuel c (n + 1) (if bit w 31 && c ≠ 0 then some (fld w 21 0, n + 1) else best) xs

/-- A token: its id, source offset and damage. -/
structure Tok where
  id : Nat
  off : Nat
  dmg : Bool
  deriving DecidableEq, Repr

/-- Greedy longest match over a piece (R380): tokens and fallback bytes. -/
def State.walk (s : State) (d : List Byte) : Nat → List PByte → Except Nat (List Tok × Nat)
  | 0, _ => .ok ([], 0)
  | _ + 1, [] => .ok ([], 0)
  | fuel + 1, x :: xs => do
    match ← s.longest d (dictF d 6 1) 0 0 none (x :: xs) with
    | some (id, n) =>
      let (r, f) ← s.walk d fuel ((x :: xs).drop n)
      .ok ({ id := id, off := x.off, dmg := ((x :: xs).take n).any PByte.dmg } :: r, f)
    | none =>
      let run := x :: xs.takeWhile (fun y => !y.first)
      let (r, f) ← s.walk d fuel (xs.drop (run.length - 1))
      if bit (dictF d 7 1) 0 then
        .ok (run.map (fun y => { id := dictF d 0x28 4 + y.b, off := y.off, dmg := y.dmg : Tok }) ++ r, f + run.length)
      else .ok ({ id := dictF d 0x2C 4, off := x.off, dmg := run.any PByte.dmg } :: r, f)

end Sys2Proof.Machine
end

