-- ==== Sys2Proof/Machine/Lex.lean ====
section
/-! DEFINITION. Text to tokens (chapter 15). -/

namespace Sys2Proof.Machine

/-! ### The body and its checks (R370 to R372) -/

def lexNorm (ws : List Nat) : Nat := wd ws 4 25 24
def lexOff (ws : List Nat) : Nat := wd ws 10 15 0

/-- The checks of a TOKENIZE stage. -/
def State.lexInfo (s : State) (gen : Nat) (ws : List Nat) (hout : Bool) : SInfo :=
  let ends := (if wb ws 4 22 then 1 else 0) + (if wb ws 4 21 then 1 else 0)
  { bad := (if wd ws 4 28 26 = 7 || lexNorm ws = 3 || wd ws 4 19 0 ≠ 0 || (lexNorm ws ≠ 0 && !wbit (s.cfgAt gen (bLEX + 0x10)) 0) then [4] else []) ++
      (if wd ws 11 27 0 ≠ 0 then [11] else [])
    refs := [refAt ws 5 false, { refAt ws 7 true with shapeOnly := hout }, refId 91 9 (wd ws 9 31 16) false, refId 90 9 (wd ws 9 15 0) true,
      { refId 10 10 (wd ws 10 31 16) false with spaces := [0] }] ++ (if lexOff ws = 0xFFFF then [] else [refId 101 10 (lexOff ws) true])
    out := 7
    rel := fun d =>
      let o := d 7
      let n := o.cnt 1
      let t := tExt ws
      (if (d 5).elem ≠ 4096 || (span 2 3).any (fun k => (d 5).cnt k ≠ 1) then [5] else []) ++
      (if o.elem ≠ 4 || (span 2 3).any (fun k => o.cnt k ≠ 1) || o.cnt 0 > 32768 || o.cnt 0 < ends then [7] else []) ++
      (if (d 91).elem ≠ 64 || (span 1 4).any (fun k => (d 91).cnt k ≠ 1) || (d 91).cnt 0 < n ||
          (d 90).elem ≠ 64 || (span 1 4).any (fun k => (d 90).cnt k ≠ 1) || (d 90).cnt 0 < n then [9] else []) ++
      (if lexOff ws ≠ 0xFFFF && ((d 101).elem ≠ 4 || (List.range 5).any (fun k => (d 101).cnt k ≠ o.cnt k)) then [10] else []) ++
      (if t.getD 0 0 ≠ o.cnt 0 || t.getD 1 0 = 0 || t.getD 1 0 > 16 then [12] else []) ++
      (if t.getD 2 0 ≠ 1 || t.getD 3 0 ≠ 1 || t.getD 4 0 ≠ 1 || wd ws 13 7 0 ≠ 0xF0 then [13] else []) ++
      (if wd ws 14 19 5 ≠ 0x4688 then [14] else [])
    bouts := fun d t =>
      let b := t.getD 1 1 * (d 7).cnt 0 * 4
      (if hout then [] else [b]) ++ (if lexOff ws = 0xFFFF then [] else [b]) ++ [64 * t.getD 1 1]
    scratch := fun _ t => 1048576 + 16384 * t.getD 1 1
    par := some 10
    tiled := if hout then [] else [7] }

/-! ### One sample (R373 to R384) -/

/-- What became of one sample. -/
structure LexRes where
  ticket : Nat
  status : Nat := stOK
  /-- The row's tokens, BOS and EOS included. -/
  row : List Tok := []
  /-- Tokens beside BOS and EOS, and the damaged ones. -/
  total : Nat := 0
  m : Nat := 0
  bytesIn : Nat := 0
  cps : Nat := 0
  pieces : Nat := 0
  subst : Nat := 0
  fallback : Nat := 0
  long : Nat := 0
  truncated : Bool := false
  bom : Bool := false
  reads : List El := []

/-- Sample i; an error ends the command. -/
def State.lexSample (s : State) (t k : Nat) (x : Task) (ws : List Nat) (d : List Byte) (i : Nat) : Except Nat LexRes := do
  let count0 := (s.descOf t k 7).cnt 0
  let ie := s.elN (s.descOf t k 91) i
  let r : LexRes := { ticket := leNat (ie.data.take 4), reads := [ie] }
  let sel := wd ws 4 28 26
  match selField ie.data sel 3 with
  | none => .ok { r with status := if ie.poison.isEmpty then stFORMAT else stPOISON }
  | some f =>
    let (els, data) := s.fieldRd (s.descOf t k 5) i f
    let r := { r with reads := ie :: els }
    if r.reads.any (fun e => !e.poison.isEmpty) then .ok { r with status := stPOISON }
    else if f.type ≠ 3 && f.type ≠ 0xFF then .ok { r with status := stFORMAT }
    else
      let bom := data.take 3 = [0xEF, 0xBB, 0xBF]
      let cps := if bom then utfRun 3 (data.drop 3) [] none else utfRun 0 data [] none
      let subst := (cps.filter Cp.dmg).length
      let r := { r with bytesIn := data.length, bom := bom }
      if wb ws 4 23 && subst > 0 then .ok { r with status := stFORMAT }
      else
        let (cs, long) ← s.normalise x.gen (lexNorm ws) cps
        let ks ← cs.mapM (fun c => (classOf d c.c).map (fun k => (c, k)))
        let ks := ks.filter (fun c => decide (c.2 ≠ 15))
        let ps := cutPieces d ks
        let ts ← ps.mapM (fun p => let b := pieceBytes p; s.walk d (b.length + 1) b)
        let toks := (ts.map Prod.fst).flatten
        let edge (a : Nat) : Tok := { id := dictF d a 4, off := 0xFFFFFFFF, dmg := false }
        let bos := if wb ws 4 22 then [edge 0x30] else []
        let eos := if wb ws 4 21 then [edge 0x34] else []
        let r := { r with cps := ks.length, pieces := ps.length, subst := subst, fallback := (ts.map Prod.snd).sum, long := long }
        let tooMany := bos.length + toks.length + eos.length > count0
        if tooMany && !wb ws 4 20 then .ok { r with status := stOVERFLOW }
        else
          let toks := if tooMany then toks.take (count0 - eos.length - bos.length) else toks
          .ok { r with row := bos ++ toks ++ eos, total := toks.length, m := (toks.filter Tok.dmg).length, truncated := tooMany }

/-- A sample's outcome (R384). -/
def State.lexOutcome (s : State) (g : Nat) (r : LexRes) : Outcome :=
  if r.status ≠ stOK then failedSample r.ticket r.status (if r.status = stPOISON then 4 else 1)
  else s.damaged g r.ticket (if r.total = 0 then 0 else damageBp r.m r.total) 2

/-- The information entry (R383). -/
def LexRes.entry (r : LexRes) (o : Outcome) (dictVer norm : Nat) : List Byte :=
  let pad (l : List Byte) : List Byte := (l ++ List.replicate 64 0).take 64
  if r.status ≠ stOK then pad (leBytes 4 r.ticket ++ leBytes 4 0 ++ leBytes 2 r.status ++ leBytes 2 0 ++ leBytes 4 dictVer)
  else
    let bp := match o.report with | some (_, _, b) => b | none => 0
    pad (leBytes 4 r.ticket ++ leBytes 4 r.row.length ++ leBytes 2 o.status ++ leBytes 2 bp ++ leBytes 4 dictVer ++ leBytes 4 r.bytesIn ++
      leBytes 4 r.cps ++ leBytes 4 r.pieces ++ leBytes 4 r.subst ++ leBytes 4 r.fallback ++ leBytes 4 r.m ++
      leBytes 2 (putB r.truncated 0 + putB r.bom 1 + putB (decide (r.long ≠ 0)) 2) ++ leBytes 1 norm)

/-- A counter of a LEX instance (R390). -/
def lexCtr (bay k : Nat) : Nat := bLEX + 0x1000 + 0x100 * (bay - 4) + 8 * k

/-- What one sample adds to the counters. -/
def State.lexCount (s : State) (bay : Nat) (r : LexRes) (o : Outcome) : State :=
  let s := ((((s.bump (lexCtr bay 1) r.bytesIn).bump (lexCtr bay 3) r.fallback).bump (lexCtr bay 4) r.subst).bump (lexCtr bay 5) r.long)
  if r.status = stFORMAT ∨ r.status = stOVERFLOW then s.err (lexCtr bay 8)
  else if r.status ≠ stOK then s
  else (((s.bump (lexCtr bay 0) 1).bump (lexCtr bay 2) r.row.length).bump (lexCtr bay 6) (if r.truncated then 1 else 0)).whenB
    (o.status = stDAMAGED) (·.err (lexCtr bay 9))

/-- A TOKENIZE stage as one step (R370 to R384). -/
def State.lexRun (s : State) (t k : Nat) (x : Task) (g : Stage) : State :=
  let ws := g.words
  let d := s.parData t g
  let o := s.descOf t k 7
  let e := (List.range 5).map o.cnt
  match (List.range (e.getD 1 1)).mapM (s.lexSample t k x ws d) with
  | .error c => (s.whenB (c = stFORMAT) (·.err (lexCtr g.inst 10))).endStage t k { status := c }
  | .ok rs =>
    let ps := rs.map (fun r => (r, s.lexOutcome x.gen r))
    let pad := dictF d 0x38 4
    let tok (i : List Nat) : Option Tok := match rs[i.getD 1 0]? with
      | some r => r.row[i.getD 0 0]?
      | none => none
    let word (i : List Nat) : List Byte := leBytes 4 (match tok i with | some x => x.id | none => pad)
    let offw (i : List Nat) : List Byte := leBytes 4 (match tok i with | some x => x.off | none => 0xFFFFFFFF)
    let visits := tileVisits ws e
    let works := visits.map (fun j =>
      let els := tileEls ws e j
      let is := (els.map (fun i => i.getD 1 0)).eraseDups
      let mine := is.filterMap (fun i => (ps[i]?).map (fun p => (i, p)))
      { reads := mine.flatMap (fun p => p.2.1.reads)
        writes := (if handsOut x k then [] else els.map (fun i => (7, undigits o.counts i, word i, false))) ++
          (if lexOff ws = 0xFFFF then [] else els.map (fun i => (101, undigits o.counts i, offw i, false))) ++
          mine.map (fun p => (90, p.1, p.2.1.entry p.2.2 (dictF d 8 4) (lexNorm ws), false)) : Work })
    let pois := ((rs.flatMap LexRes.reads).flatMap El.poison).eraseDups.length
    let (s1, err) := (s.countPoison pois).runWorks t k works
    match err with
    | some c => s1.endStage t k { status := c }
    | none =>
      let s1 := ps.foldl (fun s p => s.lexCount g.inst p.1 p.2) s1
      let s1 := s1.fresh (fun f s => s.bump (lexCtr g.inst 7) (Config.freeValue f 0))
      let hb := if handsOut x k then visits.map (fun j => s.handBytes ws e j o.elem word) else []
      s1.endStage t k (sampleRes (wd ws 4 31 29) [] (ps.map Prod.snd)) hb

/-- R370. -/
def execTokenize (t k : Nat) (s : State) : Host.Outcome State Fault Refusal := .next (s.eng t k 2 1 (fun x g s => s.lexRun t k x g))

/-- The stage checks of the kind by opcode. -/
def State.lexStageInfo (s : State) (gen op : Nat) (ws : List Nat) (hout : Bool) : Option (Except Fail SInfo) :=
  if op = 1 then some (.ok (s.lexInfo gen ws hout)) else none

end Sys2Proof.Machine
end

