-- ==== Sys2Proof/Machine/Ory.lean ====
section
/-! DEFINITION. The tensor array: MATMUL, VQ_SEARCH and ROWOP (chapter 17). -/

namespace Sys2Proof.Machine

/-! ### The body (R419 to R421, R426) -/
def oryMode (ws : List Nat) : Nat := wd ws 4 28 26
def oryOut (ws : List Nat) : Nat := wd ws 4 22 20
def oryStage (ws : List Nat) : Nat := wd ws 4 31 29
def oryTk (ws : List Nat) : Nat := wd ws 10 15 0

/-- K from the bytes of a row (R420); none where it is not whole. -/
def oryK (mode bytes : Nat) : Option Nat :=
  match mode with
  | 0 => some (2 * bytes)
  | 1 => some bytes
  | 2 => some bytes
  | 5 => if bytes % 4 = 0 then some (bytes / 4) else none
  | _ => if bytes % 2 = 0 then some (bytes / 2) else none

def rowBytes (d : Desc) : Nat := d.cnt 0 * d.cnt 1 * d.elem

/-- Offending words of word 4 (R419, R421). -/
def oryBad (op : Nat) (ws : List Nat) : Bool :=
  let mode := oryMode ws
  mode > 5 || (mode = 5 && op ≠ 3) || (op = 3 && mode < 3) || (wb ws 4 25 && mode ≠ 1) || (wb ws 4 24 && mode ≠ 2) ||
  (wb ws 4 23 && mode ≠ 2) || oryOut ws = 7 || (oryOut ws = 6 && op ≠ 1) || (op = 2 && oryOut ws ≠ 5) ||
  wd ws 4 19 17 ≥ 5 || (wd ws 4 19 17 ≠ 0 && op ≠ 1) || wd ws 4 16 15 = 3 || (wd ws 4 16 15 ≠ 0 && op ≠ 3) || wd ws 4 13 0 ≠ 0

/-- R421 and R426: the checks of an ORY stage. -/
def oryInfo (op : Nat) (ws : List Nat) (hin hout : Bool) : SInfo :=
  let mode := oryMode ws
  let w := wd ws 9 31 16
  let aux := wd ws 9 15 0
  let prm := wd ws 10 31 16
  let tk := oryTk ws
  let norm := op = 3 && wd ws 4 16 15 < 2
  { bad := (if oryBad op ws then [4] else []) ++
      (if (op = 3 && (w ≠ 0xFFFF || aux ≠ 0xFFFF)) then [9] else []) ++ (if norm && prm = 0xFFFF then [10] else []) ++
      (if wd ws 11 27 0 ≠ 0 || keepPrev ws then [11] else []) ++
      (if wd ws 13 23 16 ≠ 1 || wd ws 13 15 8 ≠ 1 then [13] else [])
    refs := [{ refAt ws 5 false with shapeOnly := hin }, { refAt ws 7 true with shapeOnly := hout }] ++
      (if op = 3 then [] else [refId 9 9 w false]) ++
      (if aux = 0xFFFF || op = 3 then [] else [refId 90 9 aux (op = 2)]) ++
      (if prm = 0xFFFF then [] else [refId 10 10 prm false]) ++ (if tk = 0xFFFF then [] else [refId 100 10 tk false])
    out := 7
    rel := fun d =>
      let o := d 7
      let ka := oryK mode (rowBytes (d 5))
      let kw := oryK mode (rowBytes (d 9))
      let okK := match ka with | some n => 1 ≤ n && n ≤ (if op = 3 then 16384 else 65536) | none => false
      (if !okK || (d 5).cnt 2 * (d 5).cnt 3 ≠ o.cnt 1 || (d 5).cnt 4 ≠ o.cnt 2 || (op = 3 && ka ≠ some (o.cnt 0)) then [5] else []) ++
      (if o.elem ≠ outWidth (oryOut ws) || o.cnt 3 ≠ 1 || o.cnt 4 ≠ 1 || (op = 2 && o.cnt 0 ≠ 1) then [7] else []) ++
      (if op ≠ 3 && (kw ≠ ka || ((d 9).cnt 4 ≠ 1 && (d 9).cnt 4 ≠ o.cnt 2) || (op = 1 && (d 9).cnt 2 * (d 9).cnt 3 ≠ o.cnt 0)) then [9] else []) ++
      (if aux ≠ 0xFFFF && op ≠ 3 && ((List.range 5).any (fun k => (d 90).cnt k ≠ o.cnt k) || (d 90).elem ≠ (if op = 2 then 4 else o.elem)) then [9] else []) ++
      (if tk ≠ 0xFFFF && ((d 100).elem ≠ 4 || (d 100).total < o.cnt 2) then [10] else []) ++
      (if op ≠ 1 && wd ws 12 31 16 ≠ o.cnt 0 then [12] else [])
    bins := fun d t =>
      (if hin then [] else [rowBytes (d 5) * t.getD 1 1 * t.getD 2 1]) ++
      (if op = 1 && aux ≠ 0xFFFF then [prod t * (d 7).elem] else [])
    bouts := fun d t =>
      (if hout then [] else [prod t * (d 7).elem]) ++ (if op = 2 && aux ≠ 0xFFFF then [prod t * 4] else [])
    acc := some (if op = 2 then 512 else 4)
    par := if prm = 0xFFFF then none else some 10
    tiled := (if hout then [] else [7]) ++ (if op = 2 && aux ≠ 0xFFFF then [90] else []) }

/-- The parameter count of R421 for the check of a set at its load. -/
def oryParCount (op : Nat) (ws : List Nat) (o w : Desc) : Nat :=
  if op = 1 then o.cnt 0 else if op = 2 then w.cnt 2 * w.cnt 3 else if wd ws 4 16 15 = 2 then 0 else o.cnt 0

/-- A parameter set passes its check (R422). -/
def oryParOk (op : Nat) (ws : List Nat) (o w : Desc) (b : List Byte) : Bool :=
  let f (a n : Nat) : Nat := leNat ((b.drop a).take n)
  let c := oryParCount op ws o w
  f 0 4 = 0x59524F57 && f 4 2 = 1 && f 6 2 = 0 && f 8 4 = c && b.length = 64 + 8 * c && f 0x14 44 = 0 &&
  fFinite (f 0xC 4) && fFinite (f 0x10 4) && (op ≠ 3 || fLt 0 (f 0xC 4)) &&
  (List.range (2 * c)).all (fun i => fFinite (f (0x40 + 4 * i) 4))

/-! ### Values and sums (R415, R416) -/

/-- Operand values of a row. -/
inductive Vals where
  | int (l : List Int)
  | num (l : List Num)
  deriving DecidableEq, Repr

/-- Decode the bytes of a row: `uns` and `e5m2` as the body's fields say. -/
def rowVals (mode : Nat) (uns e5m2 : Bool) (b : List Byte) : Vals :=
  match mode with
  | 0 => .int (b.flatMap (fun x => [sgn 4 (x.toNat % 16), sgn 4 (x.toNat / 16)]))
  | 1 => .int (b.map (fun x => if uns then (x.toNat : Int) else sgn 8 x.toNat))
  | 2 => .num (b.map (fun x => (if e5m2 then fE5M2 else fE4M3).dec x.toNat))
  | 3 => .num ((List.range (b.length / 2)).map (fun i => fBF16.dec (leNat ((b.drop (2 * i)).take 2))))
  | 4 => .num ((List.range (b.length / 2)).map (fun i => fF16.dec (leNat ((b.drop (2 * i)).take 2))))
  | _ => .num ((List.range (b.length / 4)).map (fun i => fF32.dec (leNat ((b.drop (4 * i)).take 4))))

/-- The accumulator of one output (R416): a 32-bit integer or a binary32 encoding. -/
def dotAcc : Vals → Vals → Nat
  | .int a, .int b => unsgn 32 ((List.zipWith (· * ·) a b).foldl (· + ·) 0)
  | .num a, .num b => (List.zipWith Num.mul a b).foldl (fun acc p => fF32.enc false ((f32 acc).add p)) 0
  | _, _ => 0

/-- The accumulator as binary32 (R423). -/
def accF32 (mode acc : Nat) : Nat := if mode < 2 then fOfInt (sgn 32 acc) else acc

/-- The activation of MATMUL; RELU of a NaN and of -0 is left to the implementation (R423, R404). -/
def oryAct (act v : Nat) : Nat :=
  match act with
  | 1 => if fIsNan v || v = 2 ^ 31 then fFn 7 v else fMax 0 v
  | 2 => fMul v (fPhi v)
  | 3 => fDiv v (fAdd f1 (fExp (fNeg v)))
  | 4 => fTanh v
  | _ => v

/-- A row sum in 128 lanes (R425). -/
def laneSum (l : List Nat) : Nat :=
  let lane (j : Nat) : Nat := ((List.range (cdiv l.length 128)).filterMap (fun i => l[128 * i + j]?)).foldl fAdd 0
  ((List.range (min 128 l.length)).map lane).foldl fAdd 0

/-- ROWOP on a row of binary32 values, with the parameter set (R425). -/
def rowOp (op : Nat) (x : List Nat) (eps scale : Nat) (a b : Nat → Nat) : List Nat :=
  let len := fOfInt x.length
  match op with
  | 0 =>
    let mu := fDiv (laneSum x) len
    let dv := x.map (fun v => fSub v mu)
    let var := fDiv (laneSum (dv.map (fun v => fMul v v))) len
    let q := fDiv f1 (fSqrt (fAdd var eps))
    (List.range x.length).map (fun j => fAdd (fMul (fMul (dv.getD j 0) q) (a j)) (b j))
  | 1 =>
    let q := fDiv f1 (fSqrt (fAdd (fDiv (laneSum (x.map (fun v => fMul v v))) len) eps))
    (List.range x.length).map (fun j => fAdd (fMul (fMul (x.getD j 0) q) (a j)) (b j))
  | _ =>
    let z := x.map (fMul scale)
    let t := match z with | [] => 0 | v :: vs => vs.foldl fMax v
    let e := z.map (fun v => fExp (fSub v t))
    e.map (fun v => fDiv v (laneSum e))

/-! ### Running a stage -/

/-- Row r of batch b of an operand stream, read as elements (R420). -/
def State.opRow (s : State) (d : Desc) (r b : Nat) : El :=
  let b := if d.cnt 4 = 1 then 0 else b
  let els := (List.range (d.cnt 0 * d.cnt 1)).map (fun v =>
    s.elRd d [(v % max 1 (d.cnt 0) : Nat), (v / max 1 (d.cnt 0) : Nat), (r % max 1 (d.cnt 2) : Nat), (r / max 1 (d.cnt 2) : Nat), (b : Nat)])
  { data := els.flatMap El.data, err := els.findSome? El.err, poison := els.flatMap El.poison, src := els.flatMap El.src }

/-- The A row from the hand-off slot of visit j (R428). -/
def State.slotRow (s : State) (hand : List (List Byte)) (j : Nat) (d : Desc) (r b : Nat) : El :=
  let d0 := { d with start := 0 }
  { data := (List.range (d.cnt 0 * d.cnt 1)).flatMap (fun v =>
      s.slotRd hand j ((d.start : Int) + d0.addr [(v % max 1 (d.cnt 0) : Nat), (v / max 1 (d.cnt 0) : Nat), (r % max 1 (d.cnt 2) : Nat), (r / max 1 (d.cnt 2) : Nat), (b : Nat)]) d.elem) }

/-- A binary32 output that is NaN or infinite in its format, or an id of no codeword (R430). -/
def nonFinite (fmt w : Nat) : Bool :=
  match fmt with
  | 1 => fE4M3.dec w = .nan
  | 2 => match fE5M2.dec w with | .fin _ _ _ => false | _ => true
  | 3 => match fBF16.dec w with | .fin _ _ _ => false | _ => true
  | 4 => match fF16.dec w with | .fin _ _ _ => false | _ => true
  | 5 => !fFinite w
  | _ => false

/-- An ORY stage as one step: `f` gives, for batch b and row m, the output words of the row and the auxiliary words
(R423 to R425). -/
def State.oryRun (s : State) (op t k : Nat) (x : Task) (g : Stage) : State :=
  let ws := g.words
  let mode := oryMode ws
  let A := s.descOf t k 5
  let O := s.descOf t k 7
  let W := s.descOf t k 9
  let X := s.descOf t k 90
  let hasX := s.hasDesc t k 90
  let hasTk := s.hasDesc t k 100
  let e := (List.range 5).map O.cnt
  let hand := handIn x k
  let par := s.parData t g
  let pf (a : Nat) : Nat := leNat ((par.drop a).take 4)
  let pa (n : Nat) : Nat := if g.par.isSome then pf (0x40 + 8 * n) else if op = 2 then 0 else f1
  let pb (n : Nat) : Nat := if g.par.isSome then pf (0x44 + 8 * n) else 0
  let fmt := oryOut ws
  let aRow (j r b : Nat) : El := if k = 0 then s.opRow A r b else s.slotRow hand j A r b
  let vals (u e5 : Bool) (r : El) : Vals := rowVals mode u e5 r.data
  let aV (j r b : Nat) : Vals := vals (wb ws 4 25) (wb ws 4 24) (aRow j r b)
  let wV (n b : Nat) : Vals := vals false (wb ws 4 23) (s.opRow W n b)
  let resid (i : List Nat) : El := s.elRd X (i.map Int.ofNat)
  let toF (l : Vals) : List Nat := match l with
    | .num l => l.map (fF32.enc false)
    | .int l => l.map fOfInt
  let rowOut (j m b : Nat) : List Nat :=
    rowOp (wd ws 4 16 15) (toF (aV j m b)) (pf 0xC) (if g.par.isSome then pf 0x10 else f1) pa pb
  let best (j m b : Nat) : Nat × Nat :=
    (List.range (W.cnt 2 * W.cnt 3)).foldl (fun r n =>
      let sc := fSub (accF32 mode (dotAcc (aV j m b) (wV n b))) (pa n)
      if fIsNan sc then r else if r.1 = 0xFFFFFFFF || fLt r.2 sc then (n, sc) else r)
      (0xFFFFFFFF, s.freeAt 7 [b, m] % 2 ^ 32)
  let outWord (j : Nat) (i : List Nat) : Nat :=
    let n := i.getD 0 0
    let m := i.getD 1 0
    let b := i.getD 2 0
    match op with
    | 1 =>
      let acc := dotAcc (aV j m b) (wV n b)
      if fmt = 6 then acc
      else
        let v := oryAct (wd ws 4 19 17) (fAdd (fMul (accF32 mode acc) (pa n)) (pb n))
        outConv fmt (if hasX then fAdd v (elemF32 (fmt + 1) (leNat (resid i).data)) else v)
    | 2 => (best j m b).1
    | _ => outConv fmt ((rowOut j m b).getD n 0)
  let visits := tileVisits ws e
  let js := List.range visits.length
  let els := js.map (fun j => tileEls ws e (visits.getD j []))
  -- poison in A or the residual zeroes a batch index; poison in W or the set ends the command
  let aPois (b : Nat) : Bool :=
    (k = 0 && (List.range (O.cnt 1)).any (fun m => !(s.opRow A m b).poison.isEmpty)) ||
    (op = 1 && hasX && (List.range (O.cnt 0 * O.cnt 1)).any (fun v => !(resid [v % max 1 (O.cnt 0), v / max 1 (O.cnt 0), b, 0, 0]).poison.isEmpty))
  let wRows : List El := if op = 3 then [] else (List.range (W.cnt 4)).flatMap (fun b => (List.range (W.cnt 2 * W.cnt 3)).map (fun n => s.opRow W n b))
  let wPois := wRows.any (fun r => !r.poison.isEmpty)
  let batch := List.range (O.cnt 2)
  let dead (b : Nat) : Bool := hasTk && aPois b
  let word (j : Nat) (i : List Nat) : Nat := if dead (i.getD 2 0) then 0 else outWord j i
  let works := js.map (fun j =>
    Work.join ((els.getD j []).map (fun i =>
      let m := i.getD 1 0
      let b := i.getD 2 0
      { reads := (if k = 0 then [s.opRow A m b] else []) ++ (if op = 1 then [s.opRow W (i.getD 0 0) b] else []) ++ (if op = 1 && hasX then [resid i] else [])
        writes := (if handsOut x k then [] else [(7, undigits O.counts i, leBytes O.elem (word j i), false)]) ++
          (if op = 2 && hasX then [(90, undigits X.counts i, leBytes 4 (if dead b then 0 else (best j m b).2), false)] else []) })))
  let works := if op = 2 then works.map (fun w => { w with reads := w.reads ++ wRows }) else works
  let pois := ((works.flatMap Work.reads).flatMap El.poison).eraseDups.length
  let stop := wPois || (!hasTk && batch.any aPois)
  let s1 := s.countPoison pois
  if stop then s1.endStage t k { status := stPOISON }
  else
    let (s1, err) := s1.runWorks t k works
    match err with
    | some c => s1.endStage t k { status := c }
    | none =>
      let bad (i : List Nat) (j : Nat) : Bool := let w := word j i; if op = 2 then w = 0xFFFFFFFF else nonFinite fmt w
      let nf (b : Nat) : Nat := (js.map (fun j => ((els.getD j []).filter (fun i => i.getD 2 0 = b && bad i j)).length)).sum
      let total := (batch.map nf).sum
      let base := bORY + 0x1000 + 0x100 * (g.inst - 30)
      let T := if op = 2 then O.cnt 1 else O.cnt 0 * O.cnt 1
      let outc (b : Nat) : Outcome :=
        let tk := s.ticketAt (s.descOf t k 100) b
        if dead b then failedSample tk stPOISON 4
        else s.damaged x.gen tk (if wb ws 4 14 then damageBp (nf b) T else 0) 2
      let outs := if hasTk then batch.map outc else []
      let dmg := (outs.filter (fun o => o.status = stDAMAGED)).length
      let c := coreExt ws (effExt ws e)
      let passes := cdiv c.1 128 * cdiv c.2 128
      let cores := (els.map (fun l =>
        ((l.map (fun i => [i.getD 0 0 % (effExt ws e).getD 0 1 / max 1 c.1, i.getD 1 0 % (effExt ws e).getD 1 1 / max 1 c.2, i.getD 2 0])).eraseDups).length)).sum
      let K := (oryK mode (rowBytes A)).getD 0
      let macs := if op = 3 then 0 else (if op = 2 then O.cnt 1 * O.cnt 2 * (W.cnt 2 * W.cnt 3) else O.total) * K
      let s1 := ((s1.bump base (cores * passes)).bump (base + 8) macs).bump (base + 0x20) total
      let s1 := s1.fresh (fun f s => (s.bump (base + 0x10) (Config.freeValue f 0)).bump (base + 0x18) (Config.freeValue f 1))
      let s1 := s1.errN (base + 0x28) dmg
      let hb := if handsOut x k then js.map (fun j => s.handBytes ws e (visits.getD j []) O.elem (fun i => leBytes O.elem (word j i))) else []
      let r := sampleRes (oryStage ws) [] outs
      s1.endStage t k (if hasTk then { r with reports := reportsOf (oryStage ws) (mergeOutcomes outs) } else {}) hb

/-- R423, R426 to R430. -/
def execMatmul (t k : Nat) (s : State) : Host.Outcome State Fault Refusal := .next (s.eng t k 4 1 (fun x g s => s.oryRun 1 t k x g))

/-- R424. -/
def execVqSearch (t k : Nat) (s : State) : Host.Outcome State Fault Refusal := .next (s.eng t k 4 2 (fun x g s => s.oryRun 2 t k x g))

/-- R425. -/
def execRowop (t k : Nat) (s : State) : Host.Outcome State Fault Refusal := .next (s.eng t k 4 3 (fun x g s => s.oryRun 3 t k x g))

/-- The stage checks of the kind by opcode. -/
def oryStageInfo (op : Nat) (ws : List Nat) (hin hout : Bool) : Option (Except Fail SInfo) :=
  if op = 1 ∨ op = 2 ∨ op = 3 then some (.ok (oryInfo op ws hin hout)) else none

end Sys2Proof.Machine
end

