-- ==== Sys2Proof/Machine/Smp.lean ====
section
/-! DEFINITION. The sampler: SAMPLE, logit pages and kills (chapter 20). -/

namespace Sys2Proof.Machine

/-! ### The body (R477, R478) -/

/-- R477, R478: the checks of an SMP stage. -/
def smpInfo (ws : List Nat) (hout : Bool) : SInfo :=
  { bad := (if wd ws 4 28 16 ≠ 0 then [4] else []) ++ (if ws.getD 9 0 ≠ 0 then [9] else []) ++ (if ws.getD 10 0 ≠ 0 then [10] else []) ++
      (if wd ws 11 27 0 ≠ 0 || keepPrev ws then [11] else []) ++
      (if wd ws 12 31 16 > 64 || wd ws 12 15 0 ≠ 1 then [12] else []) ++
      (if ws.getD 13 0 ≠ 0x01010100 then [13] else []) ++ (if wd ws 14 19 5 ≠ 0x4688 then [14] else [])
    refs := [refAt ws 5 false, { refAt ws 7 true with shapeOnly := hout }]
    out := 7
    rel := fun f =>
      let one (d : Desc) : Bool := (span 1 4).all (fun k => d.cnt k = 1)
      (if (f 5).elem ≠ 4 || !one (f 5) then [5] else []) ++
      (if (f 7).elem ≠ 16 || !one (f 7) || (f 7).cnt 0 ≠ (f 5).cnt 0 then [7] else [])
    bins := fun _ t => [4 * t.getD 0 1]
    bouts := fun _ t => if hout then [] else [16 * t.getD 0 1]
    scratch := fun _ _ => 65536
    tiled := if hout then [] else [7] }

/-! ### Sequence descriptors (R474) -/

def State.seqAddr (s : State) (g id : Nat) : Nat := put (wfld (s.cfgAt g (bSMP + 0x10)) 43 7) 7 37 + 128 * id
def State.seqCount (s : State) (g : Nat) : Nat := wfld (s.cfgAt g (bSMP + 0x10)) 60 44

/-- The fields of a descriptor. -/
structure Seq where
  ticket : Nat
  state : Nat
  ctrl : Nat
  genSlot : Nat
  vocab : Nat
  topK : Nat
  step : Nat
  temp : Nat
  topP : Nat
  length : Nat
  capacity : Nat
  tokAddr : Nat
  logits : Nat
  stop0 : Nat
  stop1 : Nat
  received : Nat
  maxNew : Nat
  rsv : Nat
  ctx : List Byte
  deriving DecidableEq, Repr

def Seq.ofBytes (b : List Byte) : Seq :=
  let f (a n : Nat) : Nat := leNat ((b.drop a).take n)
  { ticket := f 0 4, state := f 4 1, ctrl := f 6 1, genSlot := f 7 1, vocab := f 8 4, topK := f 0xC 2, step := f 0xE 2
    temp := f 0x10 4, topP := f 0x14 4, length := f 0x18 4, capacity := f 0x1C 4, tokAddr := f 0x20 8 % 2 ^ 44
    logits := f 0x28 8 % 2 ^ 44, stop0 := f 0x30 4, stop1 := f 0x34 4, received := f 0x38 4, maxNew := f 0x3C 2, rsv := f 0x3E 2
    ctx := b.drop 64 }

def Seq.method (q : Seq) : Nat := q.ctrl % 4
def Seq.fmt (q : Seq) : Nat := fld q.ctrl 3 2
def Seq.width (q : Seq) : Nat := if q.fmt = 2 then 4 else 2

/-- A context as saved: key words, counter words, position and flags (R440). -/
def ctxWord (b : List Byte) (i : Nat) : Nat := leNat ((b.drop (4 * i)).take 4)

/-- A restored context passes R441. -/
def ctxOk (b : List Byte) : Bool :=
  let f (a n : Nat) : Nat := leNat ((b.drop a).take n)
  f 0x3C 4 = crc32 (b.take 0x3C) && bit (f 0x31 1) 0 && ctxWord b 11 = 1 && f 0x30 1 ≤ 3 && f 0x31 1 / 4 = 0 && f 0x32 10 = 0

/-- The 64 bytes of a context (R440, R441). -/
def ctxBytes (key ctr : List Nat) (pos flags : Nat) : List Byte :=
  let b := key.flatMap (leBytes 4) ++ ctr.flatMap (leBytes 4) ++ leBytes 1 pos ++ leBytes 1 flags ++ leBytes 10 0
  b ++ leBytes 4 (crc32 b)

/-- The context is fresh: step 0 and the valid flag clear (R480, R483). -/
def Seq.fresh (q : Seq) : Bool := q.step = 0 && !bit (leNat ((q.ctx.drop 0x31).take 1)) 0

/-- A value is finite and greater than 0. -/
def fPos (x : Nat) : Bool := fFinite x && fLt 0 x

/-- Step 4 of R480: the fields pass R474, R481 and R484. -/
def Seq.ok (q : Seq) : Bool :=
  q.method ≠ 3 && q.fmt ≠ 3 && q.ctrl / 32 = 0 && 1 ≤ q.vocab && q.vocab ≤ 1048576 && q.topK ≤ 4096 && q.tokAddr % 4 = 0 &&
  1 ≤ q.maxNew && q.rsv = 0 && q.length < q.capacity && (q.fresh || ctxOk q.ctx) &&
  (q.method = 0 || fPos q.temp) && (q.method ≠ 1 || (fPos q.topP && !fLt f1 q.topP)) && (q.method ≠ 2 || q.topP = f1)

/-! ### Choosing the token (R481 to R483) -/

/-- A logit as binary32, a NaN as minus infinity. -/
def logitF32 (fmt w : Nat) : Nat :=
  let x := match fmt with | 0 => fF32.enc false (fBF16.dec w) | 1 => fF32.enc false (fF16.dec w) | _ => w
  if fIsNan x then 0xFF800000 else x

/-- Insert a candidate in descending order of z, ties in ascending index. -/
def insCand (c : Nat × Nat) : List (Nat × Nat) → List (Nat × Nat)
  | [] => [c]
  | d :: ds => if fLt d.2 c.2 then c :: d :: ds else d :: insCand c ds

/-- The index of the largest value, the lowest where equal; a NaN is never the largest. -/
def argMax (l : List (Nat × Nat)) : Option Nat :=
  (l.foldl (fun (best : Option (Nat × Nat)) c =>
    if fIsNan c.2 then best
    else match best with
      | none => some c
      | some b => if fLt b.2 c.2 then some c else best) none).map Prod.fst

/-- Running sums of a list. -/
def runSums : Nat → List Nat → List Nat
  | _, [] => []
  | a, x :: xs => fAdd a x :: runSums (fAdd a x) xs

/-- The candidates of R481: index and z, best first. -/
def candidates (q : Seq) (x : List Nat) : List (Nat × Nat) :=
  let k := if q.topK = 0 then 4096 else q.topK
  (((List.range x.length).foldl (fun l j => insCand (j, fDiv (x.getD j 0) q.temp) l) [])).take k

/-- CATEGORICAL with its one word. -/
def categorical (q : Seq) (x : List Nat) (w : Nat) : Nat :=
  let cs := candidates q x
  let zmax := match cs with | [] => 0 | c :: _ => c.2
  let e := cs.map (fun c => fExp (fSub c.2 zmax))
  let sums := runSums 0 e
  let target := fMul q.topP (sums.getLastD 0)
  let n := match sums.findIdx? (fun v => !fLt v target) with | some i => i + 1 | none => sums.length
  let K := sums.getD (n - 1) 0
  let c := fMul (fF32.enc false (.fin false (w / 256) (-24))) K
  let i := match (sums.take n).findIdx? (fun v => fLt c v) with | some i => i | none => n - 1
  (cs.getD i (0, 0)).1

/-- GUMBEL with a word for every index. -/
def gumbel (q : Seq) (x : List Nat) (w : Nat → Nat) : Nat :=
  let u (v : Nat) : Nat := fMul (fAdd (fOfInt (w v / 256 : Nat)) 0x3F000000) 0x33800000
  let score (v : Nat) : Nat := fSub (fDiv (x.getD v 0) q.temp) (fLn (fNeg (fLn (u v))))
  let among := if q.topK = 0 then List.range x.length else (candidates q x).map Prod.fst
  (argMax ((List.range x.length).filterMap (fun v => if among.contains v then some (v, score v) else none))).getD 0

/-- The key of a sequence's context (R434, R483). -/
def State.seqKey (s : State) (g : Nat) (q : Seq) : List Nat :=
  if q.fresh then
    azKey (s.cfgAt g bLDG).toNat (s.cfgAt g (bLDG + 8)).toNat (s.ctx (q.ticket % 2 ^ 21)).key (256 + q.genSlot)
  else (List.range 8).map (ctxWord q.ctx)

/-- Words a step draws (R483). -/
def Seq.words (q : Seq) : Nat := match q.method with | 1 => 4 | 2 => 4 * cdiv q.vocab 4 | _ => 0

/-- The token of a step; none where every candidate is minus infinity. -/
def State.chooseTok (s : State) (g : Nat) (q : Seq) (x : List Nat) : Option Nat :=
  let key := s.seqKey g q
  let block (b : Nat) : List Nat := azimuth key [q.step, b % 2 ^ 32, b / 2 ^ 32, 1]
  if x.all (fun v => v = 0xFF800000) then none
  else match q.method with
    | 0 => argMax ((List.range x.length).map (fun j => (j, x.getD j 0)))
    | 1 => some (categorical q x ((block 0).getD 0 0))
    | _ => some (gumbel q x (fun v => (block (v / 4)).getD (v % 4) 0))

/-! ### One step (R480) -/

/-- The fields line of a descriptor with what a step changes. -/
def State.seqWrite (s : State) (a state reason step length received : Nat) : State :=
  let b := s.mem.rds a 64
  let b := b.take 4 ++ leBytes 1 state ++ leBytes 1 reason ++ (b.drop 6).take 8 ++ leBytes 2 step ++ (b.drop 16).take 8 ++
    leBytes 4 length ++ (b.drop 28).take 28 ++ leBytes 4 received ++ b.drop 60
  s.store a b

/-- An output entry (R485). -/
def seqEntry (id ticket tok step outcome state : Nat) : Nat :=
  leNat (leBytes 4 id ++ leBytes 4 ticket ++ leBytes 4 tok ++ leBytes 2 step ++ leBytes 1 outcome ++ leBytes 1 state)

/-- What one listed sequence comes to. -/
inductive SeqRes where
  /-- The logits are not ready and may still come. -/
  | wait
  | entry (n : Nat)
  | fail (status : Nat)

/-- What stops a read of device memory, poison included. -/
def State.rdErr (s : State) (a n : Nat) : Option Nat :=
  match s.accErr 0 (a : Nat) n with
  | some e => some e
  | none => if s.mem.anyPoison a n then some stPOISON else none

/-- The steps of R480 for one sequence of a command: `waitOver` tells that wait_us has passed. -/
def State.seqStep (s : State) (g inst id : Nat) (waitOver : Bool) : State × SeqRes :=
  let a := s.seqAddr g id
  let ctr (m : Nat) : Nat := bSMP + 0x1000 + 0x100 * (inst - 40) + 8 * m
  if id ≥ s.seqCount g then (s, .entry (seqEntry id 0 0xFFFFFFFF 0 3 0))
  else match s.rdErr a 128 with
  | some e => (s.countPoison (s.poisonIn 0 (a : Nat) 128).length, .fail e)
  | none =>
    let q := Seq.ofBytes (s.mem.rds a 128)
    let failWith (s : State) (reason outcome : Nat) : State × SeqRes :=
      ((s.seqWrite a 3 reason q.step q.length q.received), .entry (seqEntry id q.ticket 0xFFFFFFFF q.step outcome 3))
    if q.state ≠ 1 then (s, .entry (seqEntry id q.ticket 0xFFFFFFFF q.step 3 q.state))
    else if !s.ticketCur q.ticket then failWith s 4 4
    else if q.received ≠ q.vocab then
      if waitOver then (s.bump (ctr 2) 1, .entry (seqEntry id q.ticket 0xFFFFFFFF q.step 2 1)) else (s, .wait)
    else if !q.ok then failWith (s.err (ctr 4)) 5 5
    else match s.rdErr q.logits (q.vocab * q.width) with
      | some e => (s.countPoison (s.poisonIn 0 (q.logits : Nat) (q.vocab * q.width)).length, .fail e)
      | none =>
        let x := (List.range q.vocab).map (fun j => logitF32 q.fmt (s.mem.le (q.logits + q.width * j) q.width))
        match s.chooseTok g q x with
        | none => failWith (s.err (ctr 4)) 5 5
        | some tok =>
          let stop := tok = q.stop0 && q.stop0 ≠ 0xFFFFFFFF || tok = q.stop1 && q.stop1 ≠ 0xFFFFFFFF
          let keep := !stop || bit q.ctrl 4
          let step := (q.step + 1) % 2 ^ 16
          let len := if keep then q.length + 1 else q.length
          let reason := if stop then 1 else if step = q.maxNew then 2 else if len = q.capacity then 3 else 0
          match if keep then s.accErr 0 ((q.tokAddr + 4 * q.length : Nat) : Int) 4 else none with
          | some e => (s, .fail e)
          | none =>
            let key := s.seqKey g q
            let s := if keep then s.store (q.tokAddr + 4 * q.length) (leBytes 4 tok) else s
            let s := s.store (a + 64) (ctxBytes key [step, 0, 0, 1] 0 1)
            let state := if reason = 0 then 1 else 2
            let s := ((s.seqWrite a state reason step len 0).bump (ctr 0) 1).bump (ctr 3) q.words
            let s := s.whenB (state = 2) (·.bump (ctr 1) 1)
            (s, .entry (seqEntry id q.ticket tok step (if reason = 0 then 0 else 1) state))

/-- The sequences of a command from a place of its list on, until one must wait or the command fails. -/
def State.seqLoop (s : State) (g inst : Nat) (waitOver : Bool) (ids : List Nat) : List Nat → List Nat → State × List Nat × Option Nat
  | [], done => (s, done, none)
  | id :: rest, done =>
    if (ids.take done.length).contains id then
      let q := Seq.ofBytes (s.mem.rds (s.seqAddr g id) 128)
      s.seqLoop g inst waitOver ids rest (done ++ [seqEntry id q.ticket 0xFFFFFFFF q.step 6 q.state])
    else match s.seqStep g inst id waitOver with
      | (s, .entry n) => s.seqLoop g inst waitOver ids rest (done ++ [n])
      | (s, .wait) => (s, done, none)
      | (s, .fail e) => (s, done, some e)

/-- Outcome of an output entry for the report and the status (R484, R485). -/
def entryOutcome (n : Nat) : Outcome :=
  let o := fld n 119 112
  { ticket := fld n 63 32, status := if o = 5 then stFORMAT else if o = 2 ∨ o = 3 ∨ o = 4 ∨ o = 6 then stSTALE else stOK
    report := if o = 1 then some (false, 0, 0) else if o = 5 then some (true, 1, 10000) else none }

/-- R477 to R485. -/
def execSample (t k : Nat) (s : State) : Host.Outcome State Fault Refusal :=
  .next (s.eng t k 6 1 (fun x g s =>
    let L := s.descOf t k 5
    let O := s.descOf t k 7
    let n := L.cnt 0
    let els := (List.range n).map (s.elN L)
    match els.findSome? El.err with
    | some e => s.endStage t k { status := e }
    | none =>
      if els.any (fun e => !e.poison.isEmpty) then
        (s.countPoison (els.flatMap El.poison).eraseDups.length).endStage t k { status := stPOISON }
      else
        let ids := els.map (fun e => leNat e.data)
        let (s, done, fail) := s.seqLoop x.gen g.inst x.waitOver ids (ids.drop g.work.length) g.work
        let s := s.modTask t (fun y => { modStage y k (fun h => { h with work := done }) with started := true })
        match fail with
        | some e => s.endStage t k { status := e }
        | none =>
          if done.length < n then s
          else
            let e := [n, 1, 1, 1, 1]
            let visits := tileVisits g.words e
            let val (i : List Nat) : List Byte := leBytes 16 (done.getD (i.getD 0 0) 0)
            let works := visits.map (fun j => Work.join ((tileEls g.words e j).map (fun i =>
              { reads := [], writes := if handsOut x k then [] else [(7, i.getD 0 0, val i, false)] })))
            let (s, err) := s.runWorks t k works
            match err with
            | some c => s.endStage t k { status := c }
            | none =>
              let hb := if handsOut x k then visits.map (fun j => s.handBytes g.words e j O.elem val) else []
              s.endStage t k (sampleRes (wd g.words 4 31 29) [stSTALE] (done.map entryOutcome)) hb))

/-- R480: wait_us of a command passes. -/
def execSampleWaitExpiry (t : Nat) (s : State) : Host.Outcome State Fault Refusal :=
  .next (s.modTask t (fun x => if x.stages.any (fun g => g.kind = 6 && g.op = 1 && g.res.isNone) then { x with waitOver := true } else x))

/-! ### Pages and kills (R475, R476) -/

/-- R476: the oldest received LOGIT_PAGE is written where it fits its sequence's step, or discarded. -/
def execLogitPage (s : State) : Host.Outcome State Fault Refusal :=
  match s.inMsg 7 0 with
  | none => .next s
  | some m =>
    let f (a n : Nat) : Nat := leNat ((m.body.drop a).take n)
    let s := s.popMsg m
    let id := f 0 4 % 2 ^ 16
    let a := s.seqAddr s.gen id
    if !s.domOn 13 then .next s
    else if id ≥ s.seqCount s.gen || (s.rdErr a 128).isSome then .next (s.err (bSMP + 0x108))
    else
      let q := Seq.ofBytes (s.mem.rds a 128)
      let n := f 0xC 4
      let dst := q.logits + f 8 4 * q.width
      let fits := q.state = 1 && f 4 2 = q.step && f 8 4 = q.received && f 8 4 + n ≤ q.vocab && f 6 1 = q.fmt &&
        1 ≤ n && 16 + n * q.width ≤ m.body.length && (s.accErr 0 (dst : Nat) (n * q.width)).isNone
      if fits then
        .next (((s.store dst ((m.body.drop 16).take (n * q.width))).store (a + 0x38) (leBytes 4 (q.received + n))).bump (bSMP + 0x100) 1)
      else .next (s.err (bSMP + 0x108))

/-- R475: an ACTIVE sequence becomes FAILED with reason 6. The manual names no stage for its report: it is a free value. -/
def State.seqKill (s : State) (id : Nat) : State :=
  let a := s.seqAddr s.gen id
  if id ≥ s.seqCount s.gen || (s.rdErr a 128).isSome then s
  else
    let q := Seq.ofBytes (s.mem.rds a 128)
    if q.state ≠ 1 then s
    else (s.seqWrite a 3 6 q.step q.length q.received).fresh (fun n s =>
      s.gatePut (kindBay 6) (.report { ticket := q.ticket, stage := Config.freeValue n 0 % 8, fault := true, cause := 8, damage := 10000 }))

/-- R475: a write of SMP_SEQ_KILL. -/
def execSmpSeqKill (p : Path) (id : Nat) (s : State) : Host.Outcome State Fault Refusal :=
  if s.wgate p (bSMP + 0x20) then .next ((s.setReg (bSMP + 0x20) (BitVec.ofNat 64 (id % 2 ^ 16))).seqKill (id % 2 ^ 16)) else .next s

end Sys2Proof.Machine
end

