-- ==== Sys2Proof/Machine/Pak.lean ====
section
/-! DEFINITION. The Packer: deposits, layouts, builds and offers (chapter 21). -/

namespace Sys2Proof.Machine

/-! ### The bodies (R492, R493) -/

/-- The shape of a data stream fits a field. -/
def PakField.fits (f : PakField) (d : Desc) : Bool :=
  if f.packed then d.elem = f.tokBytes && (span 2 3).all (fun k => d.cnt k = 1)
  else d.cnt 0 * d.cnt 1 * d.cnt 2 * d.cnt 3 * d.elem = f.size

/-- The named field in the layouts of the enabled pipelines, lowest pipeline first. -/
def State.fieldCands (s : State) (fld : Nat) : List PakField :=
  s.pipesOn.filterMap (fun p => if (s.pakPipe p).ready then (s.pakPipe p).fields[fld]? else none)

/-- The sample dimension of a data stream, by the kind of its field. -/
def sampleDim (packed : Bool) : Nat := if packed then 1 else 4

/-- Command word of a tile extent. -/
def extWord (d : Nat) : Nat := if d < 2 then 12 else 13

/-- The tile clause of R493 with a sample dimension. -/
def depClause (ws : List Nat) (d : Desc) (sd : Nat) : List Nat :=
  let t := tExt ws
  ((List.range sd).filter (fun k => t.getD k 0 ≠ d.cnt k)).map extWord ++
  (if 1 ≤ t.getD sd 0 && t.getD sd 0 ≤ 16 then [] else [extWord sd]) ++
  (if wd ws 13 7 0 ≠ 0 then [13] else []) ++ (if wd ws 14 19 5 ≠ 0x4688 then [14] else [])

/-- R492, R493: the checks of a DEPOSIT stage; `hin` is the producer's principal output. -/
def State.depInfo (s : State) (ws : List Nat) (hin : Option Desc) : SInfo :=
  let fld := wd ws 4 28 26
  let cands := s.fieldCands fld
  let data (f : Nat → Desc) : Desc := match hin with | some d => d | none => f 5
  { bad := (if wd ws 4 24 0 ≠ 0 then [4] else []) ++ (if hin.isSome && w64 ws 5 ≠ 0 then [5] else []) ++
      (if ws.getD 9 0 ≠ 0 then [9] else []) ++ (if ws.getD 10 0 ≠ 0 then [10] else []) ++ (if wd ws 11 27 0 ≠ 0 then [11] else [])
    refs := (if hin.isSome then [] else [refAt ws 5 false]) ++ [refAt ws 7 false]
    ext := some (fun f => (List.range 5).map (data f).cnt)
    rel := fun f =>
      let d := data f
      let i := f 7
      if cands.isEmpty then [4]
      else match cands.find? (fun c => c.fits d) with
        | none => [5]
        | some c =>
          let sd := sampleDim c.packed
          (if (i.elem = 64 || (i.elem = 4 && wb ws 4 25)) && i.cnt 0 ≥ d.cnt sd && (span 1 4).all (fun k => i.cnt k = 1) then [] else [7]) ++
          depClause ws d sd
    bins := fun f t => if hin.isSome then [] else [prod t * (data f).elem]
    aux := fun f => [if (cands.find? (fun c => c.fits (data f))).any PakField.packed then 1 else 0] }

/-- R492, R495: the checks of a DEPOSIT_SEQ stage. -/
def State.depSeqInfo (s : State) (ws : List Nat) (hin : Option Desc) : SInfo :=
  let cands := s.fieldCands (wd ws 4 28 26)
  let data (f : Nat → Desc) : Desc := match hin with | some d => d | none => f 5
  { bad := (if wd ws 4 25 14 ≠ 0 then [4] else []) ++ (if hin.isSome && w64 ws 5 ≠ 0 then [5] else []) ++
      (if w64 ws 7 ≠ 0 then [7] else []) ++ (if ws.getD 9 0 ≠ 0 then [9] else []) ++ (if ws.getD 10 0 ≠ 0 then [10] else []) ++
      (if wd ws 11 27 0 ≠ 0 then [11] else []) ++ (if cands.any (fun c => c.packed && c.tokBytes = 4) then [] else [4])
    refs := if hin.isSome then [] else [refAt ws 5 false]
    ext := some (fun f => (List.range 5).map (data f).cnt)
    rel := fun f =>
      let d := data f
      (if d.elem ≠ 16 || !(span 1 4).all (fun k => d.cnt k = 1) then [5] else []) ++ depClause ws d 0
    bins := fun f t => if hin.isSome then [] else [prod t * (data f).elem] }

/-- The stage checks of the kind by opcode. -/
def State.pakInfo (s : State) (op : Nat) (ws : List Nat) (hin : Option Desc) : Option (Except Fail SInfo) :=
  match op with
  | 1 => some (.ok (s.depInfo ws hin))
  | 2 => some (.ok (s.depSeqInfo ws hin))
  | _ => none

/-! ### Depositing one sample (R494) -/

/-- A sample's tokens or bytes go to its staging slot; the answer is its outcome, or a status that ends the command.
`cnt` is the token count of a PACKED field. -/
def State.depositOne (s : State) (t inst fld tk : Nat) (fits : PakField → Bool) (cnt elem : Nat) (data : List Byte) (bad : Bool) :
    State × Except Nat Outcome :=
  let c := s.ctx (tk % 2 ^ 21)
  if !s.ticketCur tk || c.state ≠ .active then (s, .ok { ticket := tk, status := stSTALE, report := none })
  else
    let fs := (s.pakPipe c.pipe).fields
    match s.bufOf c.pipe c.batchRef, fs[fld]? with
    | some (k, b), some f =>
      let n := if f.packed then cnt else f.size
      if !fits f then (s, .ok (failedSample tk stFORMAT 1))
      else if f.packed && (n > f.size || n * elem > data.length) then (s, .ok (failedSample tk stOVERFLOW 1))
      else if bad then (s, .ok (failedSample tk stPOISON 4))
      else
        let a := stageAddr b.addr fs (s.batchSize c.pipe) c.slot
        match s.accErr 0 (a : Nat) (partOff fs fs.length) with
        | some e => (s, .error e)
        | none =>
          let s := s.store (a + partOff fs fld) (data.take (if f.packed then n * elem else f.size))
          let s := (s.store a (leBytes 8 c.key)).store (a + 32 + 4 * fld) (leBytes 4 n)
          let s := s.store (a + 8) (leBytes 1 (s.mem.le (a + 8) 1 ||| 2 ^ fld))
          let s := s.setBuf k { b with users := (t :: b.users).eraseDups }
          (s.bump (pakCtr inst 0) 1, .ok { ticket := tk, status := stOK, report := some (false, 0, 0) })
    | _, _ => (s, .ok (failedSample tk stFORMAT 1))

/-- One sample as a deposit command reads it: what to do with the state, and what stops the read. -/
structure DepItem where
  err : Option Nat
  /-- Poisoned lines met. -/
  poison : Nat
  act : State → State × Except Nat Outcome

/-- Do the samples in order up to a failure. -/
def depLoop (s : State) : List DepItem → List Outcome → State × List Outcome × Option Nat
  | [], done => (s, done, none)
  | x :: xs, done => match x.act s with
    | (s, .error e) => (s, done, some e)
    | (s, .ok o) => depLoop s xs (done ++ [o])

/-- A deposit command over its samples. Where a read fails, a free number of the samples before it have been written (R253). -/
def State.depRun (s : State) (items : List DepItem) : State × List Outcome × Option Nat :=
  let s := s.countPoison (items.map DepItem.poison).sum
  match items.findIdx? (fun x => x.err.isSome) with
  | none => depLoop s items []
  | some m =>
    let c := Config.freeValue s.free 0 % (m + 1)
    let (s, done, _) := depLoop { s with free := s.free + 1 } (items.take c) []
    (s, done, ((items[m]?).bind DepItem.err))

/-- R494. -/
def execDeposit (t k : Nat) (s : State) : Host.Outcome State Fault Refusal :=
  .next (s.eng t k 7 1 (fun x g s =>
    let hin := k ≠ 0
    let d := if hin then s.handDesc t k x else s.descOf t k 5
    let info := s.descOf t k 7
    let sd := sampleDim (g.aux.getD 0 0 = 1)
    let e := (List.range 5).map d.cnt
    let per := ((List.range sd).map d.cnt).foldl (· * ·) 1
    let ext := max 1 ((effExt g.words e).getD sd 1)
    let item (i : Nat) : DepItem :=
      let els := (List.range per).map (fun j =>
        if hin then s.handElem x k d (i / ext) (digits d.counts (i * per + j)) else s.elN d (i * per + j))
      let ie := s.elN info i
      let bad := !(ie.poison ++ els.flatMap El.poison).isEmpty
      let cnt := if wb g.words 4 25 then d.cnt 0 else leNat ((ie.data.drop 4).take 4)
      { err := ((ie :: els).findSome? El.err), poison := ((ie.poison ++ els.flatMap El.poison).eraseDups).length
        act := fun s => s.depositOne t g.inst (wd g.words 4 28 26) (leNat (ie.data.take 4)) (fun f => f.packed = (sd = 1) && f.fits d)
          cnt d.elem (els.flatMap El.data) bad }
    match s.depRun ((List.range (d.cnt sd)).map item) with
    | (s, _, some c) => s.endStage t k { status := c }
    | (s, done, none) => s.endStage t k (sampleRes (wd g.words 4 31 29) [stSTALE] done)))

/-! ### Step pages (R495) -/

/-- A step page still held: at the gate, waiting, or whole in a transmit stream. -/
def State.stepHeld (s : State) (ep ctr : Nat) : Bool :=
  let hit (m : Msg) : Bool := m.type = 1 && m.dst = ep && pageKey m = (0, ctr, 1)
  s.ngl.wait.any (fun w => hit w.msg) || s.ngl.port.any (fun e => (e.2.tx.getD 1 []).any (fun b =>
    b.length ≥ 16 && b.length = leNat ((b.drop 4).take 4) && hit (msgOf b)))

/-- One step page leaves for an endpoint. The page index, pipeline and receive-area offset of a STEP page are free values. -/
def State.sendStep (s : State) (bay ep : Nat) (l : List (List Byte)) (poison : Bool) : State :=
  let ctr := tget 0 s.pak.stepCtr ep
  let data := leBytes 2 l.length ++ leBytes 14 0 ++ l.flatten
  let body := leBytes 8 0 ++ leBytes 4 ctr ++ leBytes 4 (Config.freeValue s.free 0) ++ leBytes 1 1 ++ leBytes 1 (Config.freeValue s.free 1) ++
    leBytes 2 data.length ++ leBytes 4 0 ++ leBytes 8 (Config.freeValue s.free 2) ++ data
  let s := { s with
    free := s.free + 1
    pak := { s.pak with
      stepCtr := tset 0 s.pak.stepCtr ep ((ctr + 1) % 2 ^ 32)
      steps := (s.pak.steps.filter (fun (x : Nat × Nat × Nat) => s.stepHeld x.1 x.2.1)) ++ [(ep, ctr, bay)] } }
  (s.sendMsg bay { dst := ep, toEp := true, type := 1, payload := body, poison := poison }).bump (pakCtr bay 7) 1

/-- R495. -/
def execDepositSeq (t k : Nat) (s : State) : Host.Outcome State Fault Refusal :=
  .next (s.eng t k 7 2 (fun x g s =>
    let hin := k ≠ 0
    let d := if hin then s.handDesc t k x else s.descOf t k 5
    let e := (List.range 5).map d.cnt
    let ext := max 1 ((effExt g.words e).getD 0 1)
    let n := d.cnt 0
    let els := (List.range n).map (fun i => if hin then s.handElem x k d (i / ext) [i, 0, 0, 0, 0] else s.elN d i)
    let outcome (b : List Byte) : Nat := leNat ((b.drop 14).take 1)
    let item (el : El) : DepItem :=
      let tk := leNat ((el.data.drop 4).take 4)
      let q := Seq.ofBytes (s.mem.rds (s.seqAddr x.gen (leNat (el.data.take 2))) 128)
      let done := outcome el.data = 1
      let er := match el.err with
        | some e => some e
        | none => if !done then none else match s.rdErr (s.seqAddr x.gen (leNat (el.data.take 2))) 128 with
          | some e => some e
          | none => s.accErr 0 (q.tokAddr : Nat) (4 * q.length)
      let bad := !el.poison.isEmpty || s.mem.anyPoison q.tokAddr (4 * q.length)
      { err := er, poison := el.poison.length
        act := fun s =>
          if done then s.depositOne t g.inst (wd g.words 4 28 26) tk (fun f => f.packed && f.tokBytes = 4) q.length 4
            (s.mem.rds q.tokAddr (4 * q.length)) bad
          else (s, .ok { ticket := tk, status := stOK, report := none }) }
    match s.depRun (els.map item) with
    | (s, _, some c) => s.endStage t k { status := c }
    | (s, done, none) =>
      let sampled := els.filter (fun el => outcome el.data = 0)
      let pages := chunks 255 (sampled.length + 1) sampled
      let s := pages.foldl (fun s l => s.sendStep g.inst (wd g.words 4 13 0) (l.map El.data) (l.any (fun el => !el.poison.isEmpty))) s
      s.endStage t k (sampleRes (wd g.words 4 31 29) [stSTALE] done)))

/-- R495: a step page held for hold_us is dropped. -/
def execStepPageDrop (ep ctr : Nat) (s : State) : Host.Outcome State Fault Refusal :=
  if !s.stepHeld ep ctr then .next s
  else
    let bay := match s.pak.steps.find? (fun (x : Nat × Nat × Nat) => x.1 = ep && x.2.1 = ctr) with | some x => x.2.2 | none => 44
    .next ((s.purge (fun (x : Nat × Nat × Nat) (d : Nat) => d = ep && x = (0, ctr, 1))).err (pakCtr bay 8))

/-! ### Layouts, builds and offers (R490, R496 to R504) -/

/-- R490: the layout of a newly enabled pipeline is read and checked. -/
def execLayoutRead (p : Nat) (s : State) : Host.Outcome State Fault Refusal :=
  let x := s.pakPipe p
  if !x.due || !s.domOn 14 then .next s
  else match s.readLayout p with
    | some fs => .next (s.setPakPipe p { fields := fs, ready := true })
    | none => .next (s.setPakPipe p { bad := true })

/-- R496 to R500, R505: a build ends; its batch joins its destination's queue. -/
def execBatchBuildDone (e : Nat) (s : State) : Host.Outcome State Fault Refusal :=
  match s.pakBatch e with
  | none => .next s
  | some b =>
    match b.inst with
    | none => .next s.pakAssign
    | some n =>
      let w := match s.openBatch e with | some x => x.mains.length + x.reserves.length | none => b.batchSize
      let im := s.buildImage b w
      if b.built || !s.instRuns n || !s.jrnRoom im.lost.length || (s.accErr 0 (b.addr : Nat) im.bytes.length).isSome then .next s
      else
        let s := s.store b.addr im.bytes
        let s := s.setPakBatch e (some { b with built := true, comp := im.comp, ranges := im.ranges })
        let s := im.lost.foldl (fun s key => s.declareLoss b.pipe key n) s
        let s := (s.bump (pakCtr n 1) 1).bump (pakCtr n 6) im.spilled
        let k := s.destKey b.pipe (b.id % 2 ^ 40)
        .next ((s.setPakDest k { s.pakDest k with queue := (s.pakDest k).queue ++ [e] }).pakAssign)

/-- The instance that takes over the offers of one that is gone (R504). -/
def State.offerInst (s : State) : Option Nat :=
  (kindBays 7).foldl (fun best n =>
    if !s.instOk n then best
    else match best with
      | none => some n
      | some b => if s.buildsOn n < s.buildsOn b then some n else best) none

/-- The delivery fields of a trailer (R500). -/
def State.stampOffer (s : State) (b : PakBatch) (dsn offer : Nat) : State :=
  let a := b.addr + 4096 * fieldPage b.fields b.batchSize b.fields.length
  (s.store (a + 0x10) (leBytes 4 dsn ++ leBytes 2 offer)).store (a + 0x28) (leBytes 8 s.ns)

/-- R501, R502: a destination starts its next offer, or goes on with one that was held before its first page. -/
def execOfferStart (k : Nat) (s : State) : Host.Outcome State Fault Refusal :=
  let d := s.pakDest k
  if d.cur.isSome then .next (s.pushOffer k)
  else match d.queue with
    | [] => .next s
    | e :: rest => match s.pakBatch e with
      | none => .next s
      | some b =>
        let inst := match b.inst with
          | some n => if s.instOk n then some n else s.offerInst
          | none => s.offerInst
        match inst with
        | none => .next s
        | some n =>
          if !s.running || s.flt.state = .c2Recovery then .next s
          else
            let b := { b with inst := some n, offers := b.offers + 1 }
            let s := (s.setPakBatch e (some b)).setPakDest k { dsn := (d.dsn + 1) % 2 ^ 32, queue := rest, cur := some { entry := e, dsn := d.dsn } }
            .next ((s.stampOffer b d.dsn b.offers).pushOffer k)

/-- The destination of a pipeline whose current offer an acknowledgement names. -/
def State.ackedDest (s : State) (m : RxMsg) : Option Nat :=
  (s.pak.dest.filter (fun e => e.1 / 16384 = m.fld 12 1 && m.srcEp && s.destEp e.1 % 2 ^ 14 = m.src && !s.pakHost (m.fld 12 1) &&
    (match e.2.cur with
     | some o => o.dsn = m.fld 8 4 && (match s.pakBatch o.entry with | some b => b.id = m.fld 0 8 | none => false)
     | none => false))).head?.map Prod.fst

/-- R502, R504: the oldest BATCH_ACK received. A full journal holds it (R316). -/
def execBatchAck (s : State) : Host.Outcome State Fault Refusal :=
  match s.inMsg 8 1 with
  | none => .next s
  | some m => match s.ackedDest m with
    | some k => if s.jrnRoom 1 then .next ((s.popMsg m).delivered k) else .next s
    | none => .next ((s.popMsg m).bump (pakCtr 44 5) 1)

/-- R502: HIF has accepted the last write of a host offer. -/
def execHostOfferDone (p : Nat) (s : State) : Host.Outcome State Fault Refusal :=
  match (s.pakDest (16384 * p)).cur with
  | some o => if o.sent && s.pakHost p && s.hostUp && s.jrnRoom 1 then .next (s.delivered (16384 * p)) else .next s
  | none => .next s

/-- R503: an offer has been held for hold_us. -/
def execHoldTimeout (k : Nat) (s : State) : Host.Outcome State Fault Refusal :=
  if (s.pakDest k).cur.isSome && s.jrnRoom 1 then .next (s.endOffer k true) else .next s

/-- R502, R508: a write of PAK_HOST_HEAD_p. -/
def execPakHostHead (p : Path) (n v : Nat) (s : State) : Host.Outcome State Fault Refusal :=
  let a := bPAK + 0x20000 + 8 * n
  if n < 256 && s.wgate p a then .next ((s.setReg a (BitVec.ofNat 64 (v % 2 ^ 32))).pushOffer (16384 * n)) else .next s

end Sys2Proof.Machine
end

