-- ==== Sys2Proof/Machine/SenOps.lean ====
section
/-! DEFINITION. Sensor layers, their rings and frames (R510 to R516, R521). -/

namespace Sys2Proof.Machine

/-! ### Configuration (R530, R531) -/

def rRingCfg (l : Nat) : Nat := rLayer l + 8

/-- A layer is enabled in the current configuration. -/
def State.layerOn (s : State) (l : Nat) : Bool := s.cb (rLayer l) 63
def State.layerW (s : State) (l : Nat) : Nat := s.cf (rLayer l) 49 35
def State.layerH (s : State) (l : Nat) : Nat := s.cf (rLayer l) 34 20
def State.layerDt (s : State) (l : Nat) : Nat := s.cf (rLayer l) 55 50

/-- The configured ring of a layer. -/
def State.cfgRing (s : State) (l : Nat) : Ring :=
  { base := put (s.cf (rLayer l + 8) 43 6) 6 38, slots := s.cf (rLayer l + 0x10) 7 0
    slotBytes := s.cf (rLayer l + 0x10) 63 32, latch := s.cf (rLayer l + 0x10) 31 16 }

def State.layer (s : State) (l : Nat) : Layer := tget {} s.sen.layer l
def State.setLayer (s : State) (l : Nat) (x : Layer) : State := { s with sen := { s.sen with layer := tset {} s.sen.layer l x } }
def State.group (s : State) (g : Nat) : Group := tget {} s.sen.group g
def State.setGroup (s : State) (g : Nat) (x : Group) : State := { s with sen := { s.sen with group := tset {} s.sen.group g x } }

def State.grpOn (s : State) (g : Nat) : Bool := s.cb (rGrp g) 63

/-- Members of a group: index and layer. -/
def State.grpMembers (s : State) (g : Nat) : List (Nat × Nat) :=
  (List.range 8).filterMap (fun m =>
    let v := s.cf (rGrp g + 8) (8 * m + 7) (8 * m)
    if bit v 7 then some (m, v % 32) else none)

def State.grpPeriod (s : State) (g : Nat) : Nat := (s.cfg (rGrp g + 0x10)).toNat
def State.grpPhase (s : State) (g : Nat) : Nat := (s.cfg (rGrp g + 0x18)).toNat

/-- Fabric time of boundary k. -/
def State.boundary (s : State) (g : Nat) (k : Int) : Int := (s.grpPhase g : Int) + k * s.grpPeriod g

/-- The boundary whose window holds a time (R521). -/
def State.windowOf (s : State) (g ts : Nat) : Option Int :=
  let p := s.grpPeriod g
  let h := p / 2
  if p = 0 then none
  else
    let x : Int := (ts : Int) - s.grpPhase g + h
    if (x % p).toNat < 2 * h then some (x / p) else none

/-- SEN receives on a port: P3 powered, not fenced, the port enabled (R510). -/
def State.senPort (s : State) (p : Nat) : Bool := s.instRuns 52 && s.cb (bSEN + 0x1000 + 0x20 * p) 31

/-- A counter of SEN (R532). -/
def senCtr (k : Nat) : Nat := bSEN + 0x8000 + 8 * k

/-! ### Slots (R515) -/

/-- Every frame whose slot is held: open, waiting for a close, a HOLD_LAST source, fused, or taken by a CAPTURE. -/
def State.heldFrames (s : State) : List SFrame :=
  (s.sen.layer.filterMap (fun e => e.2.openF)) ++
  s.sen.group.flatMap (fun e => e.2.cands ++ e.2.src.filterMap Prod.snd ++ e.2.ring.flatMap (fun f => f.members.filterMap Member.frame)) ++
  s.sen.taken.filterMap Taken.frame

/-- Held slots of a layer, each once. -/
def State.heldSlots (s : State) (l : Nat) : List (Ring × Nat) :=
  ((s.heldFrames.filter (fun f => decide (f.layer = l))).map (fun f => (f.ring, f.slot))).eraseDups

/-- SEN_LAYER_RSTAT_l.old_held. -/
def State.oldHeld (s : State) (l : Nat) : Nat :=
  ((s.heldSlots l).filter (fun x => decide (some x.1 ≠ (s.layer l).ring))).length

/-! ### Lines (R512, R514) -/

/-- Bits of a pixel on the wire. -/
def wireBits (dt : Nat) : Nat :=
  if dt = 0x2A then 8 else if dt = 0x2B then 10 else if dt = 0x2C then 12 else if dt = 0x2D then 14 else if dt = 0x24 then 24 else 16

/-- Bit depth of a data type. -/
def wireDepth (dt : Nat) : Nat :=
  if dt = 0x2B then 10 else if dt = 0x2C then 12 else if dt = 0x2D then 14 else if dt = 0x2E then 16 else 8

/-- Bytes of a stored pixel. -/
def storedBytes (dt : Nat) : Nat := (senFormat dt).getD 1

/-- Pixel i of a line as stored (R512). -/
def linePixel (dt : Nat) (b : List Byte) (i : Nat) : List Byte :=
  if dt = 0x2A then [b.getD i 0]
  else if dt = 0x24 then [b.getD (3 * i + 2) 0, b.getD (3 * i + 1) 0, b.getD (3 * i) 0]
  else if dt = 0x1E then
    let (r, g, bl) := yccRgb 2990 1140 false 8 (Config.csiSample dt b i 0) (Config.csiSample dt b i 1) (Config.csiSample dt b i 2)
    leBytes 1 r ++ leBytes 1 g ++ leBytes 1 bl
  else leBytes 2 (toDepth (wireDepth dt) 16 (Config.csiSample dt b i 0))

/-- A line as stored: the pixels received, then zero. -/
def lineBytes (dt width : Nat) (b : List Byte) : List Byte :=
  let n := min width (8 * b.length / wireBits dt)
  (List.range n).flatMap (linePixel dt b) ++ List.replicate ((width - n) * storedBytes dt) 0

/-- Address of a line of a frame. -/
def State.lineAddr (s : State) (f : SFrame) (y : Nat) : Nat :=
  f.ring.base + f.slot * f.ring.slotBytes + y * s.layerW f.layer * storedBytes (s.layerDt f.layer)

/-- Write one line where memory takes it. -/
def State.putLine (s : State) (f : SFrame) (y : Nat) (b : List Byte) : State :=
  let a := s.lineAddr f y
  if (s.accErr 0 (a : Nat) b.length).isSome then s else s.store a b

/-! ### Latch and close (R513, R514, R516, R521) -/

/-- The layer takes the configured ring at the latch of its open frame (R516). -/
def State.latchFrame (s : State) (l : Nat) : State :=
  let x := s.layer l
  match x.openF with
  | some f =>
    if f.latched then s
    else
      let r := s.cfgRing l
      s.setLayer l { x with openF := some { f with latched := true }, next := if x.ring = some r then none else some (r, x.late), late := false }
  | none => s

/-- The group and member that a layer belongs to. -/
def State.memberOf (s : State) (l : Nat) : Option (Nat × Nat) :=
  (List.range 8).findSome? (fun g => if s.grpOn g then ((s.grpMembers g).find? (fun m => m.2 = l)).map (fun m => (g, m.1)) else none)

/-- The open frame of a layer closes: missing lines are zero and damaged; it waits for its window's close, or is late and
released. -/
def State.closeFrame (s : State) (l : Nat) : State :=
  let s := s.latchFrame l
  let x := s.layer l
  match x.openF with
  | none => s
  | some f =>
    let h := s.layerH l
    let zero := List.replicate (s.layerW l * storedBytes (s.layerDt l)) (0 : Byte)
    let s := (span f.lines (h - f.lines)).foldl (fun s y => s.putLine f y zero) s
    let f := { f with bad := f.bad + (h - f.lines), lines := max h f.lines }
    let s := s.setLayer l { x with openF := none }
    match s.memberOf l with
    | none => s
    | some (g, _) =>
      let gr := s.group g
      match gr.next, s.windowOf g f.ts with
      | some k, some w =>
        if w < k then s.bump (senCtr 2) 1 else s.setGroup g { gr with cands := gr.cands ++ [f] }
      | _, _ => s

/-- Damaged pixels of a frame. -/
def State.frameBad (s : State) (f : SFrame) : Nat := f.bad * s.layerW f.layer

/-- A trigger output takes a level. -/
def State.trigLevel (s : State) (t : Nat) (high : Bool) : State :=
  let was := bit s.pins.trig t
  let s := { s with pins := { s.pins with trig := s.pins.trig - putB was t + putB high t } }
  if was = high || s.tapHolds then s else s.emit (.trig t high s.ns)

/-- The level of a trigger output between pulses. -/
def State.trigIdle (s : State) (t : Nat) : Bool := s.cb (bSEN + 0x6000 + 0x20 * t) 63 && s.cb (bSEN + 0x6000 + 0x20 * t) 62

def State.trig (s : State) (t : Nat) : Trig := tget {} s.sen.trig t
def State.setTrig (s : State) (t : Nat) (x : Trig) : State := { s with sen := { s.sen with trig := tset {} s.sen.trig t x } }

/-! ### What an apply instant starts (R516, R520, R521) -/

/-- A group newly enabled begins at the first boundary whose window starts at or after now. -/
def State.grpStart (s : State) (g : Nat) : State :=
  let p : Int := s.grpPeriod g
  let x : Int := (s.ns : Int) + (s.grpPeriod g / 2 : Nat) - s.grpPhase g
  s.setGroup g { next := some (if p = 0 then 0 else -((-x) / p)) }

/-- A trigger output without a pulse in progress takes its idle level; its schedule counts from now (R520). -/
def State.trigStart (s : State) (t : Nat) : State :=
  let x := s.trig t
  let s := s.setTrig t { x with since := s.ns }
  if x.pulse.isSome then s else s.trigLevel t (s.trigIdle t)

/-- P3 reaches ON: what its configuration enables begins (R51, R520, R521). -/
def State.senGain (s : State) : State :=
  let s := ((List.range 8).filter s.grpOn).foldl State.grpStart s
  (List.range 4).foldl State.trigStart s

/-- An apply instant: what it enables begins, what it disables ends, and a changed ring is pending (R516, R520, R521).
`old` is the configuration before it. -/
def State.senApply (s : State) (old : Tbl Word) : State :=
  if !s.powered 3 then s
  else
    let s := (List.range 8).foldl (fun s g =>
      match cbt old (rGrp g) 63, s.grpOn g with
      | false, true => s.grpStart g
      | true, false => s.setGroup g {}
      | _, _ => s) s
    let oldRing (l : Nat) : Ring :=
      { base := put (cfl old (rLayer l + 8) 43 6) 6 38, slots := cfl old (rLayer l + 0x10) 7 0
        slotBytes := cfl old (rLayer l + 0x10) 63 32, latch := cfl old (rLayer l + 0x10) 31 16 }
    let s := (List.range 32).foldl (fun s l =>
      let x := s.layer l
      match cbt old (rLayer l) 63, s.layerOn l with
      | false, true => s.setLayer l { x with ring := some (s.cfgRing l), next := none, late := false, ptr := 0 }
      | true, false => s.setLayer l { x with openF := none }
      | true, true =>
        if oldRing l = s.cfgRing l then s
        else s.setLayer l { x with late := match x.openF with | some f => f.latched | none => decide (x.frames ≠ 0) }
      | false, false => s) s
    (List.range 4).foldl (fun s t =>
      if (List.range 4).all (fun i => tget 0 old (bSEN + 0x6000 + 0x20 * t + 8 * i) = s.cfg (bSEN + 0x6000 + 0x20 * t + 8 * i)) then s
      else s.trigStart t) s

end Sys2Proof.Machine
end

