-- ==== Sys2Proof/Machine/Sen.lean ====
section
/-! DEFINITION. Live sensor ingress (chapter 22). -/

namespace Sys2Proof.Machine

/-! ### Packets (R510 to R516) -/

/-- Enabled layers of a port and virtual channel. -/
def State.layersOf (s : State) (port vc : Nat) : List Nat :=
  (List.range 32).filter (fun l => s.layerOn l && s.cf (rLayer l) 62 60 = port && s.cf (rLayer l) 59 56 = vc)

/-- The timestamp of a frame that starts now, and whether it fell back (R513). -/
def State.frameTs (s : State) (l : Nat) : Nat × Bool :=
  let src := s.cf (rLayer l) 19 16
  let off := sgn 32 (s.cf (rLayer l + 0x18) 31 0)
  let at' (t : Nat) : Nat := unsgn 64 ((t : Int) - off)
  let cap := if 1 ≤ src && src ≤ 8 then tget none s.sen.lastTs (src - 1) else none
  match cap with
  | some t => if s.ns ≤ t + s.cf (rLayer l) 15 0 * 1000 then (at' t, false) else (at' s.ns, true)
  | none => (at' s.ns, decide (1 ≤ src ∧ src ≤ 8))

/-- A frame starts on one layer (R513, R515, R516). -/
def State.openFrame (s : State) (num l : Nat) : State :=
  let s := s.closeFrame l
  let x := s.layer l
  let x := if x.ring.isNone && x.next.isNone then { x with ring := some (s.cfgRing l) } else x
  let (r, slot, fresh, late) := match x.next, x.ring with
    | some (r, late), _ => (r, 0, true, late)
    | none, some r => (r, x.ptr, false, false)
    | none, none => (s.cfgRing l, 0, false, false)
  if (s.heldSlots l).contains (r, slot) then s.err (senCtr 8)
  else
    let no := x.frames + 1
    let (ts, fb) := s.frameTs l
    (s.setLayer l { x with
      openF := some { layer := l, no := no, csi := num, ring := r, slot := slot, ts := ts, fallback := fb }
      ring := some r, next := none, frames := no, ptr := if slot + 1 ≥ r.slots then 0 else slot + 1
      ringFrame := if fresh then no else x.ringFrame
      ringLate := if fresh then late else x.ringLate }).bump (senCtr 0) 1

/-- R513: a Frame Start packet of a port and virtual channel, with its frame number. -/
def execFrameStart (port vc num : Nat) (s : State) : Host.Outcome State Fault Refusal :=
  if s.senPort port && vc < 16 then .next ((s.layersOf port vc).foldl (fun s l => s.openFrame num l) s) else .next s

/-- R513: the Frame End that matches the open frame. -/
def execFrameEnd (port vc num : Nat) (s : State) : Host.Outcome State Fault Refusal :=
  if s.senPort port && vc < 16 then
    .next (((s.layersOf port vc).filter (fun l => (s.layer l).openF.any (fun f => f.csi = num))).foldl State.closeFrame s)
  else .next s

/-- R511, R512, R514: a long packet with its payload: whether its header could be read and its CRC held. -/
def execLongPacket (port vc dt : Nat) (hdrOk crcOk : Bool) (data : List Byte) (s : State) : Host.Outcome State Fault Refusal :=
  if !s.senPort port then .next s
  else if !hdrOk then .next (s.err (senCtr 9))
  else match (s.layersOf port vc).find? (fun l => s.layerDt l = dt && vc < 16) with
    | none => .next (s.bump (senCtr 11) 1)
    | some l =>
      let x := s.layer l
      match x.openF with
      | none => .next s
      | some f =>
        if f.lines ≥ s.layerH l then .next s
        else
          let w := s.layerW l
          let s := s.whenB (!crcOk) (·.err (senCtr 10))
          let whole := data.length = cdiv (w * wireBits dt) 8
          let bytes := if crcOk then lineBytes dt w data
            else match f.good with
              | some y => s.mem.rds (s.lineAddr f y) (w * storedBytes dt)
              | none => List.replicate (w * storedBytes dt) 0
          let s := s.putLine f f.lines bytes
          let good := crcOk && whole
          .next (s.setLayer l { x with openF := some { f with
            lines := f.lines + 1, bad := if good then f.bad else f.bad + 1, good := if good then some f.lines else f.good } })

/-- The latch line of a frame: its ring's, or the last active line. -/
def State.latchLine (s : State) (f : SFrame) : Nat := if f.ring.latch = 0xFFFF then s.layerH f.layer - 1 else f.ring.latch

/-- R516: the latch line of the layer's open frame has been written. -/
def execFrameLatch (l : Nat) (s : State) : Host.Outcome State Fault Refusal :=
  match (s.layer l).openF with
  | some f => if s.latchLine f < f.lines then .next (s.latchFrame l) else .next s
  | none => .next s

/-! ### Time (R517 to R520) -/

/-- The servo takes PTP time from a port. -/
def State.ptpFrom (s : State) (src : Nat) : Bool :=
  let p : EthPort := tget {} s.eth.port src
  src < 2 && (s.timeSrc = src || s.timeSrc = 2) && s.domOn 2 && p.up && !tget false s.clk.lost 2

/-- R518: a valid Sync from a port's master, with its offset in ns. -/
def execPtpSync (src : Nat) (off : Int) (s : State) : Host.Outcome State Fault Refusal :=
  if s.ptpFrom src then .next (s.servoSync off) else .next s

/-- R517: another PTP message. One that completes a two-step Sync brings its offset; the others serve the standard's
clock roles, or are discarded, and change nothing the manual names. -/
def execPtpMessage (src : Nat) (off : Option Int) (s : State) : Host.Outcome State Fault Refusal :=
  match off with
  | some o => if s.ptpFrom src then .next (s.servoSync o) else .next s
  | none => .next s

/-- R518: no valid Sync for four intervals, or the source port is down. -/
def execServoHoldover (s : State) : Host.Outcome State Fault Refusal := .next s.servoLost

/-- R519: an edge of a timestamp input that has held for 20 ns. -/
def execTsInCapture (n : Nat) (rising : Bool) (s : State) : Host.Outcome State Fault Refusal :=
  let e := s.cf (bSEN + 0x5000 + 0x10 * n) 1 0
  if s.instRuns 52 && n < 8 && (e = 2 || e = (if rising then 0 else 1)) then
    let q := tget [] s.sen.ts n
    if q.length ≥ 64 then .next (s.setBits (bSEN + 0x5800 + 8 * n) (2 ^ 31))
    else .next { s with sen := { s.sen with ts := tset [] s.sen.ts n (q ++ [s.ns]), lastTs := tset none s.sen.lastTs n (some s.ns) } }
  else .next s

/-- R520: the scheduled edge of a trigger: a pulse begins, or the pulse in progress ends. -/
def execTrigEdge (t : Nat) (s : State) : Host.Outcome State Fault Refusal :=
  if t ≥ 4 || !s.instRuns 52 then .next s
  else
    let x := s.trig t
    let a := bSEN + 0x6000 + 0x20 * t
    match x.pulse with
    | some _ => .next ((s.setTrig t { x with pulse := none }).trigLevel t (s.trigIdle t))
    | none =>
      if s.cb a 63 then .next ((s.setTrig t { x with pulse := some (s.cf a 31 0, s.cb a 62) }).trigLevel t (!s.cb a 62))
      else .next s

/-! ### Fusion (R521 to R524) -/

/-- A fault of SEN for a ticket: cause 8 at the group's close stage. -/
def State.senFault (s : State) (g ticket : Nat) : State :=
  s.gatePut 52 (.report { ticket := ticket, stage := s.cf (rGrp g) 60 58, fault := true, cause := 8, damage := 10000 })

/-- The next entry of a pipeline's admission ring, taken for good (R523). -/
def State.takeEntry (s : State) (p : Nat) : State × Option Nat :=
  let pl : Pipe := tget {} s.ldg.pipe p
  if pl.admHead ≥ pl.admTail then (s, none)
  else
    let a := put (s.pipeF p 6 43 4) 4 40 + 16 * (pl.admHead % 2 ^ s.pipeF p 6 63 59)
    ({ s with ldg := { s.ldg with pipe := tset {} s.ldg.pipe p { pl with admHead := pl.admHead + 1 } } }, some (s.mem.le (a + 8) 4))

/-- The candidate nearest to a boundary; ties go to the earlier timestamp. -/
def nearest (b : Int) : List SFrame → Option SFrame
  | [] => none
  | f :: fs => match nearest b fs with
    | none => some f
    | some h =>
      let df := ((f.ts : Int) - b).natAbs
      let dh := ((h.ts : Int) - b).natAbs
      if df < dh || (df = dh && f.ts ≤ h.ts) then some f else some h

/-- A member of a fused frame at boundary b (R521, R522). -/
def State.chooseMember (s : State) (g : Nat) (b : Int) (mine : List SFrame) (m : Nat) : Member :=
  match nearest b mine with
  | some f => { frame := some f }
  | none =>
    if s.cf (rGrp g) 62 61 ≠ 1 then {}
    else match tget none (s.group g).src m with
      | some f =>
        let age := (b - f.ts).toNat / 1000
        if age ≤ s.cf (rGrp g) 31 0 then { frame := some f, stale := true, age := age } else {}
      | none => {}

/-- A fused frame enters its group's ring, ahead of which the oldest of 64 is discarded (R524). -/
def State.emitFused (s : State) (g : Nat) (f : Fused) : State :=
  let gr := s.group g
  let s := if gr.ring.length ≥ 64 then
      match gr.ring.head? with
      | some o => ((s.senFault g o.ticket).err (senCtr 7)).setGroup g { gr with ring := gr.ring.drop 1 }
      | none => s
    else s
  let gr := s.group g
  let stale := (f.members.filter Member.stale).length
  ((s.setGroup g { gr with ring := gr.ring ++ [f] }).bump (senCtr 1) 1).bump (senCtr 4) stale

/-- R521 to R524: the window of a group's next boundary closes. -/
def execFusionClose (g : Nat) (s : State) : Host.Outcome State Fault Refusal :=
  let gr := s.group g
  match gr.next with
  | none => .next s
  | some k =>
    if g ≥ 8 || !s.grpOn g || !s.instRuns 52 then .next s
    else
      let b := s.boundary g k
      let now := gr.cands.filter (fun f => s.windowOf g f.ts = some k)
      let rest := gr.cands.filter (fun f => match s.windowOf g f.ts with | some w => decide (k < w) | none => false)
      let ms := s.grpMembers g
      let mine (l : Nat) : List SFrame := now.filter (fun f => decide (f.layer = l))
      let picks := ms.map (fun m => (m.1, s.chooseMember g b (mine m.2) m.1))
      let extra := (ms.map (fun m => (mine m.2).length - 1)).sum
      let drop := s.cf (rGrp g) 62 61 = 2 && picks.any (fun p => p.2.frame.isNone)
      let s := s.bump (senCtr 3) extra
      let s := s.setGroup g { gr with next := some (k + 1), seq := (gr.seq + 1) % 2 ^ 32, cands := rest }
      let s := s.whenB drop (·.err (senCtr 5))
      let (s, tk) := s.takeEntry (s.cf (rGrp g) 57 50)
      match tk with
      | none => .next (s.err (senCtr 6))
      | some t =>
        if drop then .next (s.senFault g t)
        else
          let all := (List.range 8).map (fun m => ((picks.find? (fun p => p.1 = m)).map Prod.snd).getD {})
          let gr := s.group g
          let src := picks.foldl (fun t p => match p.2.frame with
            | some f => if p.2.stale then t else tset none t p.1 (some f)
            | none => t) gr.src
          .next ((s.setGroup g { gr with src := src }).emitFused g
            { seq := (gr.seq + 2 ^ 32 - 1) % 2 ^ 32, ticket := t, at' := b, members := all })

/-! ### CAPTURE (R525 to R528) -/

def capGroup (ws : List Nat) : Nat := wd ws 4 28 26
def capMember (ws : List Nat) : Nat := wd ws 4 25 23

/-- The layer of a member in a generation; none where the member is not valid. -/
def State.capLayer (s : State) (gen : Nat) (ws : List Nat) : Option Nat :=
  let v := wfld (s.cfgAt gen (rGrp (capGroup ws) + 8)) (8 * capMember ws + 7) (8 * capMember ws)
  if bit v 7 then some (v % 32) else none

/-- The checks of a CAPTURE stage. -/
def State.capInfo (s : State) (gen : Nat) (ws : List Nat) (hout : Bool) : SInfo :=
  let l := s.capLayer gen ws
  let c := s.cfgAt gen (rLayer (l.getD 0))
  { bad := (if wd ws 4 13 0 ≠ 0 || l.isNone then [4] else []) ++ (if ws.getD 5 0 ≠ 0 then [5] else []) ++
      (if ws.getD 6 0 ≠ 0 then [6] else []) ++ (if ws.getD 10 0 ≠ 0 then [10] else []) ++ (if wd ws 11 27 0 ≠ 0 then [11] else [])
    refs := [{ refAt ws 7 true with shapeOnly := hout }, refId 90 9 (wd ws 9 31 16) true]
    out := 7
    rel := fun d =>
      let o := d 7
      let t := tExt ws
      let t1 := t.getD 1 0
      (if o.elem ≠ storedBytes (wfld c 55 50) || o.cnt 0 < wfld c 49 35 || o.cnt 1 < wfld c 34 20 || o.cnt 3 ≠ 1 || o.cnt 4 ≠ 1 then [7] else []) ++
      (if (d 90).elem ≠ 64 || (d 90).cnt 0 < o.cnt 2 then [9] else []) ++
      (if t.getD 0 0 ≠ o.cnt 0 || (t1 % 8 ≠ 0 && t1 ≠ o.cnt 1) then [12] else []) ++
      (if t.getD 2 0 ≠ 1 || t.getD 3 0 ≠ 1 || t.getD 4 0 ≠ 1 || wd ws 13 7 0 ≠ 0x33 then [13] else []) ++
      (if wd ws 14 19 5 ≠ 0x4688 then [14] else [])
    bins := fun d t => [t.getD 1 1 * (d 7).cnt 0 * (d 7).elem]
    bouts := fun d t => (if hout then [] else [t.getD 1 1 * (d 7).cnt 0 * (d 7).elem]) ++ [64]
    tiled := if hout then [] else [7] }

/-- The fused frames a CAPTURE may take: not consumed by the member and not taken. -/
def State.capAvail (s : State) (ws : List Nat) : List Fused :=
  let g := capGroup ws
  let m := capMember ws
  (s.group g).ring.filter (fun f => !f.consumed.contains m &&
    !s.sen.taken.any (fun x => x.group = g && x.member = m && x.seq = f.seq))

/-- One sample of a CAPTURE. -/
structure CapRes where
  f : Fused
  mem : Member
  out : Outcome
  m : Nat := 0
  reads : List El := []
  /-- The frame's pixels are delivered. -/
  live : Bool := false

/-- R527, case by case. -/
def State.capSample (s : State) (gen : Nat) (ws : List Nat) (f : Fused) : CapRes :=
  let mem := f.members.getD (capMember ws) {}
  let r : CapRes := { f := f, mem := mem, out := { ticket := f.ticket, status := stSTALE, report := none } }
  if !s.ticketCur f.ticket then r
  else match mem.frame with
    | none => { r with out := { ticket := f.ticket, status := stMISSING, report := if wb ws 4 22 then some (false, 0, 0) else none } }
    | some fr =>
      let w := s.layerW fr.layer
      let h := s.layerH fr.layer
      let b := storedBytes (s.layerDt fr.layer)
      let reads := (List.range h).map (fun y => s.elAt 0 (s.lineAddr fr y : Nat) (w * b))
      if reads.any (fun e => !e.poison.isEmpty) then
        { r with reads := reads, out := { failedSample f.ticket stPOISON 4 with report := if wb ws 4 22 then some (true, 4, 10000) else none } }
      else
        let m := s.frameBad fr
        let o := s.damaged gen f.ticket (damageBp m (w * h)) 2
        { r with reads := reads, m := m, live := true, out := if wb ws 4 22 then o else { o with report := none } }

/-- The information entry (R528). -/
def State.capEntry (s : State) (ws : List Nat) (r : CapRes) : List Byte :=
  let bits (p : Member → Bool) : Nat := ((List.range 8).map (fun m => putB (p (r.f.members.getD m {})) m)).sum
  let tail (age ts : Nat) : List Byte :=
    leBytes 4 r.f.seq ++ leBytes 4 age ++ leBytes 8 ts ++ leBytes 8 (unsgn 64 r.f.at') ++
    leBytes 1 (bits (fun m => m.frame.isSome)) ++ leBytes 1 (bits Member.stale) ++ leBytes 1 (capMember ws) ++ leBytes 1 (capGroup ws) ++ leBytes 4 0
  match r.mem.frame with
  | none => leBytes 4 r.f.ticket ++ leBytes 6 0 ++ leBytes 2 r.out.status ++ leBytes 2 0 ++ leBytes 1 4 ++ leBytes 17 0 ++ tail 0 0
  | some fr =>
    let w := s.layerW fr.layer
    let h := s.layerH fr.layer
    let dt := s.layerDt fr.layer
    leBytes 4 r.f.ticket ++ leBytes 2 w ++ leBytes 2 h ++ leBytes 2 1 ++ leBytes 2 r.out.status ++ leBytes 2 (damageBp r.m (w * h)) ++
    leBytes 1 4 ++ leBytes 1 0 ++ leBytes 8 r.m ++ leBytes 2 w ++ leBytes 2 h ++ leBytes 1 (wireDepth dt) ++
    leBytes 1 (if dt = 0x24 then 5 else if dt = 0x1E then 2 else 0) ++ leBytes 2 (putB r.mem.stale 3 + putB fr.fallback 4) ++
    tail (if r.mem.stale then r.mem.age else 0) fr.ts

/-- Reports for the stages that a MISSING sample's consumers will not make. -/
def absentReports (ws : List Nat) (rs : List CapRes) : List Report :=
  if !wb ws 4 22 then []
  else (rs.filter (fun r => r.out.status = stMISSING)).flatMap (fun r =>
    ((List.range 8).filter (fun k => wb ws 4 (14 + k))).map (fun k => { ticket := r.f.ticket, stage := k, fault := false, cause := 0, damage := 0 }))

/-- A CAPTURE stage as one step once its fused frames are there (R527). -/
def State.capRun (s : State) (t k : Nat) (x : Task) (g : Stage) : State :=
  let ws := g.words
  let o := s.descOf t k 7
  let e := (List.range 5).map o.cnt
  let av := (s.capAvail ws).take (e.getD 2 1)
  if av.length < e.getD 2 1 && !x.waitOver then s
  else if av.isEmpty then (if s.grpOn (capGroup ws) then s else s.endStage t k {})
  else
    let rs := av.map (s.capSample x.gen ws)
    let e' := e.set 2 rs.length
    let pixel (i : List Nat) : List Byte := match rs[i.getD 2 0]? with
      | some r => (match r.mem.frame with
        | some fr =>
          if r.live && i.getD 0 0 < s.layerW fr.layer && i.getD 1 0 < s.layerH fr.layer then
            s.mem.rds (s.lineAddr fr (i.getD 1 0) + i.getD 0 0 * o.elem) o.elem
          else List.replicate o.elem 0
        | none => List.replicate o.elem 0)
      | none => []
    let visits := tileVisits ws e'
    let works := visits.map (fun j =>
      let els := tileEls ws e' j
      let i := j.getD 2 0
      let r := rs[i]?
      { reads := (r.map CapRes.reads).getD []
        writes := (if handsOut x k then [] else els.map (fun i => (7, undigits o.counts i, pixel i, false))) ++
          (if j.getD 1 0 + 1 = (tileCounts ws e').getD 1 1 then (match r with | some r => [(90, i, s.capEntry ws r, false)] | none => []) else []) : Work })
    let pois := ((rs.flatMap CapRes.reads).flatMap El.poison).eraseDups.length
    let hb := if handsOut x k then visits.map (fun j => s.handBytes ws e' j o.elem pixel) else []
    let (s1, err) := (s.countPoison pois).runWorks t k works
    let s1 := { s1 with sen := { s1.sen with taken := s1.sen.taken ++ rs.map (fun (r : CapRes) =>
      { task := t, group := capGroup ws, member := capMember ws, seq := r.f.seq, frame := r.mem.frame : Taken }) } }
    match err with
    | some c => s1.endStage t k { status := c }
    | none =>
      let r := sampleRes (wd ws 4 31 29) [stSTALE, stMISSING] (rs.map CapRes.out)
      s1.endStage t k { r with reports := r.reports ++ absentReports ws rs } hb

/-- R527. -/
def execCapture (t k : Nat) (s : State) : Host.Outcome State Fault Refusal := .next (s.eng t k 8 1 (fun x g s => s.capRun t k x g))

/-- R527: wait_us of a CAPTURE has passed. -/
def execCaptureWaitExpiry (t : Nat) (s : State) : Host.Outcome State Fault Refusal :=
  match s.task t with
  | some x => if x.stages.any (fun g => g.kind = 8 && g.op = 1) then .next (s.modTask t (fun x => { x with waitOver := true })) else .next s
  | none => .next s

/-- A CAPTURE's record is written: the frames it took are consumed by its member, and a fused frame that every member
has consumed leaves the ring (R524, R527). -/
def State.senTaskEnd (s : State) (t : Nat) : State :=
  let mine := s.sen.taken.filter (fun x => decide (x.task = t))
  if mine.isEmpty then s
  else
    let s := mine.foldl (fun s x =>
      let gr := s.group x.group
      let ring := gr.ring.map (fun f => if f.seq = x.seq then { f with consumed := (f.consumed ++ [x.member]).eraseDups } else f)
      let ms := (s.grpMembers x.group).map Prod.fst
      s.setGroup x.group { gr with ring := ring.filter (fun f => !ms.all (fun m => f.consumed.contains m)) }) s
    { s with sen := { s.sen with taken := s.sen.taken.filter (fun x => decide (x.task ≠ t)) } }

/-- The stage checks of the kind by opcode. -/
def State.senStageInfo (s : State) (gen op : Nat) (ws : List Nat) (hout : Bool) : Option (Except Fail SInfo) :=
  if op = 1 then some (.ok (s.capInfo gen ws hout)) else none

end Sys2Proof.Machine
end

