-- ==== Sys2Proof/Machine/Xch.lean ====
section
/-! DEFINITION. The exchange engine: COPY, GATHER_ROWS and SCATTER_ROWS (chapter 23). -/

namespace Sys2Proof.Machine

/-! ### Tensor descriptors (R537, R538) -/

/-- A tensor descriptor. -/
structure Tensor where
  stream : Nat
  ty : Nat
  origin : List Nat
  global : List Nat
  /-- Every reserved byte is zero. -/
  clean : Bool
  deriving DecidableEq, Repr

/-- Element widths of types 1 to 6; RAW takes the stream's. -/
def tyWidth (ty : Nat) : Nat := [0, 1, 1, 1, 2, 2, 4].getD ty 0

def Tensor.ofBytes (b : List Byte) : Tensor :=
  let f (a n : Nat) : Nat := leNat ((b.drop a).take n)
  { stream := f 0 2, ty := f 2 1
    origin := (List.range 5).map (fun k => f (4 + 4 * k) 4)
    global := (List.range 5).map (fun k => f (0x18 + 4 * k) 4)
    clean := f 3 1 = 0 && f 0x2C 20 = 0 }

/-- Read tensor descriptor `i` at issue. -/
def State.tensor (s : State) (g i : Nat) : Except Nat Tensor :=
  let c := s.cfgAt g (bXCH + 0x10)
  if i ≥ wfld c 60 44 then .error stINVALID
  else match s.issueRead (64 * wfld c 43 6 + 64 * i) with
    | .error e => .error e
    | .ok b =>
      let x := Tensor.ofBytes b
      if x.ty > 6 || !x.clean then .error stINVALID else .ok x

/-- What breaks R538 for a tensor against its stream. -/
def Tensor.bad (x : Tensor) (d : Desc) : Bool :=
  (x.ty ≠ 0 && d.elem ≠ tyWidth x.ty) || (List.range 5).any (fun k => x.origin.getD k 0 + d.cnt k > x.global.getD k 0)

/-! ### COPY -/

/-- The permutation of a COPY: source dimension of each destination dimension (R539). -/
def copyPerm (ws : List Nat) : List Nat := (List.range 5).map (fun d => wd ws 5 (19 + 3 * d) (17 + 3 * d))

/-- Numbers a COPY keeps of a tensor: its type and origins. -/
def Tensor.nums (x : Tensor) : List Nat := x.ty :: x.origin

/-- R538, R539, R544. -/
def State.copyInfo (s : State) (g : Nat) (ws : List Nat) : Except Fail SInfo :=
  match s.tensor g (wd ws 4 31 16), s.tensor g (wd ws 4 15 0) with
  | .error e, _ => .error (e, 4, 0)
  | _, .error e => .error (e, 4, 0)
  | .ok a, .ok b =>
    let p := copyPerm ws
    let isPerm := (List.range 5).all (fun d => p.contains d)
    .ok {
      bad := (if !isPerm || wd ws 5 14 0 ≠ 0 then [5] else []) ++
        ((span 6 5).filter (fun w => ws.getD w 0 ≠ 0)) ++ (if wd ws 11 27 0 ≠ 0 then [11] else []) ++
        (if wd ws 13 7 4 ≠ 5 || wd ws 13 3 0 ≠ 5 then [13] else []) ++
        (if isPerm && (List.range 5).any (fun d => b.global.getD d 0 ≠ a.global.getD (p.getD d 0) 0) then [5] else []) ++
        (if (a.ty = 0) != (b.ty = 0) then [4] else [])
      refs := [{ key := 0, word := 4, id := a.stream, spaces := [0] }, { key := 1, word := 4, id := b.stream, write := true, spaces := [0] }]
      out := 1
      rel := fun d => if a.bad (d 0) || b.bad (d 1) || (a.ty = 0 && b.ty = 0 && (d 0).elem ≠ (d 1).elem) then [4] else []
      bins := fun d t => [prod t * (d 0).elem]
      bouts := fun d t => [prod t * (d 1).elem]
      scratch := fun _ _ => 65536
      tiled := [1]
      aux := fun _ => a.nums ++ b.nums }

/-- The source element of a destination element, where it lies in the source piece (R540). -/
def copySrc (p so dO : List Nat) (d : Desc) (i : List Nat) : Option (List Int) :=
  let g (k : Nat) : Int := (dO.getD k 0 : Nat) + (i.getD k 0 : Nat)
  let j := (List.range 5).map (fun m => g (p.idxOf m) - (so.getD m 0 : Nat))
  if (List.range 5).all (fun m => 0 ≤ j.getD m 0 && j.getD m 0 < d.cnt m) then some j else none

/-- Convert one element between tensor types (R541). -/
def copyConv (sty dty : Nat) (b : List Byte) : List Byte :=
  if sty = dty then b else leBytes (tyWidth dty) (outConv (dty - 1) (elemF32 sty (leNat b)))

/-- A COPY takes the exchange path (R542). -/
def copyExchange (ws : List Nat) (e f : Nat) : Bool :=
  let ok (n : Nat) := n = 1 || n = 2 || n = 4 || n = 8
  !wb ws 5 15 && (copyPerm ws).getD 0 0 ≠ 0 && (copyPerm ws).getD 1 0 = 0 && ok e && ok f

/-- R540 to R544, R550. -/
def execCopy (t k : Nat) (s : State) : Host.Outcome State Fault Refusal :=
  .next (s.eng t k 9 1 (fun _ g s =>
    let ws := g.words
    let a := s.descOf t k 0
    let b := s.descOf t k 1
    let e := (List.range 5).map b.cnt
    let sty := g.aux.getD 0 0
    let dty := g.aux.getD 6 0
    let skip := wb ws 5 16
    let src := fun i => copySrc (copyPerm ws) ((g.aux.drop 1).take 5) ((g.aux.drop 7).take 5) a i
    let unit := fun (i : List Nat) =>
      match src i with
      | some j => let r := s.elRd a j; [copyUnit 1 r (undigits b.counts i) (copyConv sty dty r.data)]
      | none => if skip then [] else [{ reads := [], writes := [(1, undigits b.counts i, List.replicate b.elem 0, false)] }]
    let tiles := (tileVisits ws e).map (fun j => tileEls ws e j)
    let works := tiles.map (fun l => Work.join (l.flatMap unit))
    let (s', err) := s.runWorks t k works
    let outs := (tiles.map (fun l => (l.filter (fun i => (src i).isNone)).length)).sum
    let inside := b.total - outs
    let ex := copyExchange ws a.elem b.elem
    let s' := (s'.bump (bXCH + 0x1000) (inside * a.elem)).bump (bXCH + 0x1008) ((if skip then inside else b.total) * b.elem)
    let s' := if ex then
        s'.bump (bXCH + 0x1010) ((List.range 5).map (fun d => cdiv (e.getD d 1) (if d < 2 then 32 else 1))).prod
      else s'.bump (bXCH + 0x1018) ((a.transfers.map Tr.pieces).sum)
    let s' := s'.bump (bXCH + 0x1028) outs
    let n := worksPoison works
    let s' := s'.countPoison n
    match err with
    | some c => s'.endStage t k { status := c }
    | none =>
      if n ≠ 0 then s'.endStage t k { status := stPOISON, result := n }
      else s'.endStage t k { result := putB (!ex) 63 + put (if skip then inside else b.total) 0 48 }))

/-! ### GATHER_ROWS and SCATTER_ROWS -/

/-- R546, R549: the two opcodes share their body; `sc` is SCATTER_ROWS. -/
def rowsInfo (sc : Bool) (ws : List Nat) : SInfo :=
  let one (d : Desc) : Bool := (span 1 4).all (fun m => d.cnt m = 1)
  { bad := (if wd ws 4 31 1 ≠ 0 then [4] else []) ++ (if wd ws 9 15 0 ≠ 0 then [9] else []) ++
      (if ws.getD 10 0 ≠ 0 then [10] else []) ++ (if wd ws 11 27 0 ≠ 0 then [11] else []) ++
      (if wd ws 12 15 0 ≠ 1 then [12] else []) ++ (if ws.getD 13 0 ≠ 0x01010100 then [13] else []) ++
      (if wd ws 14 19 5 ≠ 0x4688 then [14] else [])
    refs := [refAt ws 5 false [0], refAt ws 7 true [0], { refId 9 9 (wd ws 9 31 16) false with spaces := [0] }]
    out := 7
    ext := some (fun d => (List.range 5).map (d 9).cnt)
    rel := fun d =>
      (if !one (d 5) || (sc && (d 5).cnt 0 ≠ (d 9).cnt 0) then [5] else []) ++
      (if !one (d 7) || (d 7).elem ≠ (d 5).elem || (!sc && (d 7).cnt 0 ≠ (d 9).cnt 0) then [7] else []) ++
      (if !one (d 9) || (d 9).elem ≠ 4 then [9] else [])
    bins := fun d t => (t.getD 0 1 * 4) :: (if sc then [t.getD 0 1 * (d 5).elem] else [])
    bouts := fun d t => [t.getD 0 1 * (d 7).elem]
    tiled := if sc then [] else [7] }

/-- The positions of a tile's indices; the first out-of-range one stops the command before its tile (R547). -/
def rowTiles (ws : List Nat) (q : Nat) : List (List Nat) :=
  (tileVisits ws [q, 1, 1, 1, 1]).map (fun j => (tileEls ws [q, 1, 1, 1, 1] j).map (fun i => i.getD 0 0))

/-- R546 to R548 for both opcodes. -/
def State.rowsRun (s : State) (sc : Bool) (t k : Nat) (g : Stage) : State :=
  let src := s.descOf t k 5
  let dst := s.descOf t k 7
  let ix := s.descOf t k 9
  let q := ix.cnt 0
  let idx := fun n => leNat (s.elN ix n).data
  let rows := if sc then dst.cnt 0 else src.cnt 0
  let pad := wb g.words 4 0
  let unit := fun n =>
    let i := idx n
    let ie := s.elN ix n
    if i = 0xFFFFFFFF then
      [{ reads := [ie], writes := if !sc && pad then [(7, n, List.replicate dst.elem 0, !ie.poison.isEmpty)] else [] }]
    else
      let r := s.elN src (if sc then n else i)
      [{ reads := [ie, r], writes := [(7, if sc then i else n, r.data, !(ie.poison ++ r.poison).isEmpty)] }]
  let tiles := rowTiles g.words q
  let bad := fun n => idx n ≠ 0xFFFFFFFF && idx n ≥ rows
  let good := tiles.takeWhile (fun l => !l.any bad)
  let works := good.map (fun l => Work.join (l.flatMap unit))
  let (s', err) := s.runWorks t k works
  let done := good.flatten
  let pads := (done.filter (fun n => idx n = 0xFFFFFFFF)).length
  let moved := done.length - pads
  let s' := (s'.bump (bXCH + 0x1000) (done.length * 4 + moved * src.elem)).bump (bXCH + 0x1008)
    ((if !sc && pad then done.length else moved) * dst.elem)
  let s' := (s'.bump (bXCH + 0x1020) moved).bump (bXCH + 0x1030) pads
  let n := worksPoison works
  let s' := s'.countPoison n
  match err with
  | some c => s'.endStage t k { status := c }
  | none =>
    match (List.range q).find? bad with
    | some p => (s'.err (bXCH + 0x1038)).endStage t k { status := stFORMAT, result := p }
    | none =>
      if n ≠ 0 then s'.endStage t k { status := stPOISON, result := n }
      else s'.endStage t k { result := put pads 32 32 + put q 0 32 }

/-- R547. -/
def execGatherRows (t k : Nat) (s : State) : Host.Outcome State Fault Refusal :=
  .next (s.eng t k 9 2 (fun _ g s => s.rowsRun false t k g))

/-- R547, R548. -/
def execScatterRows (t k : Nat) (s : State) : Host.Outcome State Fault Refusal :=
  .next (s.eng t k 9 3 (fun _ g s => s.rowsRun true t k g))

/-- The stage checks of the kind by opcode. -/
def State.xchInfo (s : State) (g op : Nat) (ws : List Nat) : Option (Except Fail SInfo) :=
  match op with
  | 1 => some (s.copyInfo g ws)
  | 2 => some (.ok (rowsInfo false ws))
  | 3 => some (.ok (rowsInfo true ws))
  | _ => none

end Sys2Proof.Machine
end

