-- ==== Sys2Proof/Machine/QueOps.lean ====
section
/-!
DEFINITION. Queues: semaphores, records and the checks of the head command (chapter 9).
-/

namespace Sys2Proof.Machine

/-- A field of GLB_Q_CFG_q in a generation: word, high bit, low bit (R215). -/
def State.qF (s : State) (g q w hi lo : Nat) : Nat := wfld (s.cfgAt g (rQ q + 8 * w)) hi lo
def State.qB (s : State) (g q w i : Nat) : Bool := wbit (s.cfgAt g (rQ q + 8 * w)) i

/-- Distance of two free-running indices. -/
def dist32 (a b : Nat) : Nat := (a + 2 ^ 32 - b % 2 ^ 32) % 2 ^ 32

/-! ### Semaphores (R235 to R238) -/

def rSem (n : Nat) : Nat := bGLB + 0x80000 + 8 * (n / 2)

def State.sem (s : State) (n : Nat) : Nat := if n % 2 = 0 then wfld (s.reg (rSem n)) 31 0 else wfld (s.reg (rSem n)) 63 32

def State.setSem (s : State) (n v : Nat) : State :=
  let w := s.reg (rSem n)
  s.setReg (rSem n) (BitVec.ofNat 64 (if n % 2 = 0 then 2 ^ 32 * wfld w 63 32 + v % 2 ^ 32 else 2 ^ 32 * (v % 2 ^ 32) + wfld w 31 0))

/-- An addition holds at the maximum, with the overflow flag and a C0 fault (R238). -/
def State.semAdd (s : State) (n v : Nat) : State :=
  if s.sem n + v < 2 ^ 32 then s.setSem n (s.sem n + v)
  else ((s.setSem n (2 ^ 32 - 1)).setReg (bGLB + 0x100) (BitVec.ofNat 64 (2 ^ 31 + n))).faultC0 0x15 uSem n

/-- What a command subtracts at issue: semaphore and amount (R236). -/
def semNeeds (w : List Nat) : List (Nat × Nat) :=
  (if wb w 2 15 then [(2 * wd w 2 14 0, wd w 3 31 24)] else []) ++
  (if wb w 3 15 then [(2 * wd w 3 14 0 + 1, wd w 3 23 16)] else [])

def State.canTake (s : State) (w : List Nat) : Bool := (semNeeds w).all (fun x => decide (x.2 ≤ s.sem x.1))
def State.takeSems (s : State) (w : List Nat) : State := (semNeeds w).foldl (fun s x => s.setSem x.1 (s.sem x.1 - x.2)) s

/-- The additions at completion (R236); DAMAGED releases every output (R362), so its slots are offered. -/
def State.signal (s : State) (w : List Nat) (status : Nat) : State :=
  let s := if wb w 2 15 then s.semAdd (2 * wd w 2 14 0 + 1) (wd w 3 31 24) else s
  if wb w 3 15 then s.semAdd (2 * wd w 3 14 0 + (if status = stOK ∨ status = stDAMAGED then 0 else 1)) (wd w 3 23 16) else s

/-! ### Records and interrupts (R239 to R242) -/

/-- What a record holds beside its place and time. -/
structure Cpl where
  queue : Nat
  index : Nat
  tag : Nat
  gen : Nat
  status : Nat
  detail : Nat := 0
  result : Nat := 0
  inst : Nat := 0xFF
  failing : Nat := 0
  irq : Bool := false

/-- Statuses with which a command ends before its work is done, and whose detail and result the chapters leave open
(R239, R243). -/
def openStatus (st : Nat) : Bool :=
  st = stADDR_RANGE || st = stFENCED || st = stPOISON || st = stTIMEOUT || st = stABORTED || st = stREMOTE

/-- A record whose detail, and where no chapter gives it whose result, are free values (assumption log 2). -/
def Cpl.opened (c : Cpl) (f : Nat) (keep : Bool := false) : Cpl :=
  { c with detail := Config.freeValue f 0 % 2 ^ 16, result := if keep then c.result else Config.freeValue f 1 % 2 ^ 64 }

/-- Size of the completion ring. -/
def State.cplSize (s : State) (g q : Nat) : Nat := 2 ^ s.qF g q 2 27 23

/-- The completion ring is full (R241). -/
def State.cplFull (s : State) (g q : Nat) : Bool := dist32 (s.queue q).cplTail (s.queue q).cplHead = s.cplSize g q

/-- The 32 bytes of a record (R239). -/
def State.cplBytes (s : State) (c : Cpl) : List Byte :=
  let phase := 1 - (s.queue c.queue).cplTail / s.cplSize c.gen c.queue % 2
  leBytes 4 (put c.inst 24 8 + put c.failing 18 2 + put phase 16 1 + put c.status 0 16) ++ leBytes 4 c.tag ++
  leBytes 4 (put c.gen 16 16 + put c.detail 0 16) ++ leBytes 4 c.index ++ leBytes 8 s.ns ++ leBytes 8 c.result

/-- The interrupt of a queue: one message, or one when the hold-off ends (R242). -/
def State.qIrq (s : State) (g q : Nat) : State :=
  let x := s.queue q
  if x.holdoff then s.setQueue q { x with irqPend := true }
  else (s.setQueue q { x with irqPend := false, holdoff := decide (s.qF g q 2 42 33 ≠ 0) }).msix (s.qF g q 2 53 43)

/-- A record is written, or discarded where the host cannot take it, and cpl_tail advances (R239, R241). The steps that
follow it, the stop on error included, proceed either way. -/
def State.record (s : State) (c : Cpl) : State :=
  let b := s.cplBytes c
  let x := s.queue c.queue
  let a := put (s.qF c.gen c.queue 1 63 5) 5 59 + 32 * (x.cplTail % s.cplSize c.gen c.queue)
  let s := if s.qB c.gen c.queue 1 0 then
      (if s.hostUp then s.hostStore a b (some c.gen) else s.setBits (bGLB + 0x50000 + 16 * c.queue) (2 ^ 60))
    else if s.reachable a then s.store a b else s
  let stop := c.status ≠ stOK && c.status ≠ stABORTED && x.state = .active && s.qB c.gen c.queue 2 55
  s.setQueue c.queue { x with cplTail := (x.cplTail + 1) % 2 ^ 32, state := if stop then .stopped else x.state }

/-- The interrupt that a record makes pending (R242). -/
def State.recordIrq (s : State) (c : Cpl) : State :=
  s.whenB (c.irq || (c.status ≠ stOK && s.qB c.gen c.queue 2 54)) (·.qIrq c.gen c.queue)

/-- Records of aborted commands, as far as the ring has room (R221, R241). -/
def State.drainAborted (s : State) (q : Nat) : State :=
  (s.queue q).aborted.foldl (fun s a =>
    if s.cplFull s.gen q then s
    else
      let c : Cpl := { queue := q, index := a.1, tag := a.2.1, gen := s.gen, status := stABORTED, irq := a.2.2 }
      let s := s.fresh (fun f s => s.record (c.opened f))
      (s.setQueue q { s.queue q with aborted := (s.queue q).aborted.drop 1 }).recordIrq c) s

/-! ### The checks of the head command (R227 to R233, R281, R288) -/

/-- What a stage must pass by its kind, opcode and body; none for an undefined opcode. `hin` is the producer's principal
output, `hout` tells whether the stage hands over. -/
def State.stageInfo (s : State) (g kind op : Nat) (ws : List Nat) (hin : Option Desc) (hout : Bool) : Option (Except Fail SInfo) :=
  match kind with
  | 0 => ingStageInfo op ws hout
  | 1 => decStageInfo op ws hout
  | 2 => s.lexStageInfo g op ws hout
  | 3 => grtStageInfo op ws hin hout
  | 4 => oryStageInfo op ws hin.isSome hout
  | 5 => if 1 ≤ op ∧ op ≤ 3 then some (s.gthInfo g op ws hin hout) else none
  | 6 => if op = 1 then some (.ok (smpInfo ws hout)) else none
  | 7 => s.pakInfo op ws hin
  | 8 => s.senStageInfo g op ws hout
  | 9 => s.xchInfo g op ws
  | _ => none

/-- Opcodes that a kind defines beside NOP. -/
def opDefined (kind op : Nat) : Bool := 1 ≤ op && op ≤ [1, 2, 1, 1, 3, 3, 1, 2, 1, 3].getD kind 0

/-- A kind may not take this stage of a fused command: XCH none; ING, DEC, LEX, SMP and SEN only stage 0; DEPOSIT_SEQ
stages 0 and 1. A producer without a principal output has nothing to hand over. -/
def badPlace (k kind op : Nat) (prev : Option (Nat × Nat)) : Bool :=
  kind = 9 || (k ≠ 0 && [0, 1, 2, 6, 8].contains kind) || (kind = 7 && op = 2 && k ≥ 2) ||
  (match prev with | some (pk, po) => pk = 7 || (pk = 5 && po = 3) | none => false)

/-- Word A of stage entry k (R231). -/
def wordA (k : Nat) : Nat := 4 + 3 * k

/-- Kind and opcode of stage entry k. -/
def entryKind (w : List Nat) (k : Nat) : Nat := wd w (wordA k) 31 28
def entryOp (w : List Nat) (k : Nat) : Nat := wd w (wordA k) 27 20

/-- Offending words of the header and the stage entries (R228, R229, R231, R233). -/
def headerBad (qkind : Nat) (w : List Nat) : List Nat :=
  let op := wd w 0 27 20
  let last := wd w 0 19 18
  (if wd w 0 14 0 ≠ 0 || wd w 0 31 28 ≠ qkind || (op ≠ 0 && !opDefined qkind op) || (op = 0 && last ≠ 0) then [0] else []) ++
  (if (wb w 2 15 && wd w 3 31 24 = 0) || (wb w 3 15 && wd w 3 23 16 = 0) then [3] else []) ++
  (if op = 0 then (span 4 12).filter (fun i => w.getD i 0 ≠ 0)
   else if last = 0 then []
   else (List.range 4).flatMap (fun k =>
    let a := wordA k
    if k > last then (span a 3).filter (fun i => w.getD i 0 ≠ 0 && i < 16)
    else
      let kind := entryKind w k
      let eop := entryOp w k
      let prev := if k = 0 then none else some (entryKind w (k - 1), entryOp w (k - 1))
      let earlier := ((List.range k).filter (fun j => entryKind w j = kind)).length
      (if wd w a 19 12 ≠ 0 || !opDefined kind eop || (k = 0 && (kind ≠ wd w 0 31 28 || eop ≠ op)) || earlier ≥ kindCount kind ||
          badPlace k kind eop prev then [a] else []) ++
      (if wd w (a + 1) 5 0 ≠ 0 then [a + 1] else []) ++
      (if (if k = last then w.getD (a + 2) 0 ≠ 0 else wd w (a + 2) 31 24 ≠ 0 || wd w (a + 2) 5 0 ≠ 0) then [a + 2] else [])))

/-- A stage that passed its checks. -/
structure Chk where
  kind : Nat
  op : Nat
  words : List Nat
  ok : SOk

/-- The 16 words of 64 bytes. -/
def wordsOf (b : List Byte) : List Nat := (List.range 16).map (fun i => leNat ((b.drop (4 * i)).take 4))

/-- The bodies of a command: kind, opcode and words of each stage; a stage block is read here (R227, R232). -/
def State.bodies (s : State) (w : List Nat) : Except Fail (List (Nat × Nat × List Nat)) :=
  if wd w 0 19 18 = 0 then .ok [(wd w 0 31 28, wd w 0 27 20, w)]
  else (List.range (wd w 0 19 18 + 1)).mapM (fun k =>
    let a := wordA k
    match s.issueRead (put (wd w a 11 0) 32 12 + put (wd w (a + 1) 31 6) 6 26) with
    | .error e => .error (e, a, 0)
    | .ok b => .ok (entryKind w k, entryOp w k, wordsOf b))

/-- The stages one after another, each with its producer's principal output (R227, R248, R273). -/
def State.checkStages (s : State) (g : Nat) : Option Desc → List (Nat × Nat × List Nat) → Except Fail (List Chk)
  | _, [] => .ok []
  | hin, (kind, op, ws) :: rest => do
    let i ← (s.stageInfo g kind op ws hin (!rest.isEmpty)).getD (.error (stINVALID, 0, 0))
    let x ← s.stageRefs g ws i
    let more ← s.checkStages g (some (x.desc i.out)) rest
    pure ({ kind := kind, op := op, words := ws, ok := x } :: more)

/-- Hand-off slots from stage k to the next, and their place in the consumer's Bay: offset and bytes (R231, R282, R287). -/
def handOf (w : List Nat) (cs : List Chk) (k : Nat) : Nat × Nat :=
  match cs[k]? with
  | none => (0, 0)
  | some c =>
    let cw := wordA k + 2
    (put (wd w cw 21 6) 6 16, (wd w cw 23 22 + 1) * slotBytes c.words c.ok.ext (c.ok.desc c.ok.info.out).elem)

/-- The hand-off bytes that stage k consumes. -/
def handIn' (w : List Nat) (cs : List Chk) (k : Nat) : Nat × Nat := if k = 0 then (0, 0) else handOf w cs (k - 1)

/-- Word A of the first consumer that breaks R288. -/
def fusedBad (w : List Nat) (cs : List Chk) : List Nat :=
  (List.range cs.length).flatMap (fun k =>
    match cs[k]?, (if k = 0 then none else cs[k - 1]?) with
    | some c, none => if cs.length > 1 && keepPrev c.words then [wordA 0] else []
    | some c, some p =>
      if tileCounts p.words p.ok.ext ≠ tileCounts c.words c.ok.ext || wd p.words 14 19 5 ≠ wd c.words 14 19 5 ||
         (keepPrev c.words && wd w (wordA (k - 1) + 2) 23 22 = 0) then [wordA k] else []
    | none, _ => [])

/-- Every check of R227 on the words of a command under a generation. A NOP has no stage to check. -/
def State.checkCmd (s : State) (g qkind : Nat) (w : List Nat) : Except Fail (List Chk) :=
  match invalidAt (headerBad qkind w) with
  | some f => .error f
  | none =>
    if wd w 0 27 20 = 0 then .ok []
    else do
      let cs ← (← s.bodies w) |> s.checkStages g none
      match invalidAt (fusedBad w cs) with
      | some f => .error f
      | none =>
        match (List.range cs.length).findSome? (fun k => (cs[k]?).bind (fun c => s.shapeCheck g k c.kind c.words c.ok (handIn' w cs k).2)) with
        | some f => .error f
        | none => .ok cs

end Sys2Proof.Machine
end

