-- ==== Sys2Proof/Machine/Queue.lean ====
section
/-! DEFINITION. The rows of queues, semaphores, issue and completion (chapter 9), and what a stage takes at issue. -/

namespace Sys2Proof.Machine

/-! ### Queue registers (R216 to R221) -/

def rDb (q : Nat) : Nat := bGLB + 0x40000 + 8 * q
def rQStat (q : Nat) : Nat := bGLB + 0x50000 + 16 * q
def rCplHead (q : Nat) : Nat := bGLB + 0x60000 + 8 * q
def rQCtl (q : Nat) : Nat := bGLB + 0x70000 + 8 * q

/-- Entries of a queue's command ring. -/
def State.ringSize (s : State) (q : Nat) : Nat := 2 ^ s.qF s.gen q 2 32 28

/-- The doorbell test and its effect (R217). -/
def State.ringDoorbell (s : State) (q tail : Nat) : State :=
  let x := s.queue q
  if x.state ≠ .disabled && dist32 x.tail x.head ≤ dist32 tail x.head && dist32 tail x.head ≤ s.ringSize q then
    s.setQueue q { x with tail := tail % 2 ^ 32 }
  else s.setBits (rQStat q) (2 ^ 61)

/-- R217: a doorbell write. -/
def execGlbQDb (p : Path) (q tail : Nat) (s : State) : Host.Outcome State Fault Refusal :=
  if q < 4096 && s.wgate p (rDb q) then .next (s.ringDoorbell q tail) else .next s

/-- The completion-head test and its effect (R217). -/
def State.writeCplHead (s : State) (q v : Nat) : State :=
  let x := s.queue q
  if dist32 v x.cplHead ≤ dist32 x.cplTail x.cplHead then (s.setQueue q { x with cplHead := v % 2 ^ 32 }).drainAborted q
  else s.setBits (rQStat q) (2 ^ 61)

/-- R217: a completion-head write. -/
def execGlbQCplhead (p : Path) (q v : Nat) (s : State) : Host.Outcome State Fault Refusal :=
  if q < 4096 && s.wgate p (rCplHead q) then .next (s.writeCplHead q v) else .next s

/-- Address of a command slot (R215, R216). -/
def State.slotOf (s : State) (q k : Nat) : Nat := put (s.qF s.gen q 0 63 6) 6 58 + 64 * (k % s.ringSize q)

/-- The words of an unissued command as they lie in the ring. -/
def State.ringWords (s : State) (q k : Nat) : List Nat :=
  wordsOf (if s.qB s.gen q 0 0 then s.hostRds (s.slotOf q k) 64 else s.mem.rds (s.slotOf q k) 64)

/-- Every command from the issue point to the tail ends ABORTED (R221). The tag of one not yet fetched is read from its
slot; where a host ring cannot be read it is a free value. -/
def State.abortQueue (s : State) (q : Nat) : State :=
  let x := s.queue q
  if x.state = .disabled then s
  else
    let dark := s.qB s.gen q 0 0 && !s.hostUp
    let ent (i : Nat) : Nat × Nat × Bool :=
      let k := (x.issuePt + i) % 2 ^ 32
      match x.fetched[i]? with
      | some (_, w) => (k, w.getD 1 0, wb w 0 16)
      | none =>
        let w := s.ringWords q k
        if dark then (k, Config.freeValue s.free i % 2 ^ 32, false) else (k, w.getD 1 0, wb w 0 16)
    let x := { x with head := x.tail, issuePt := x.tail, fetched := []
                      aborted := x.aborted ++ (List.range (dist32 x.tail x.issuePt)).map ent }
    ({ s with free := s.free + 1 }.setQueue q x).drainAborted q

/-- R221: the abort operation. -/
def execQueueAbort (p : Path) (q : Nat) (s : State) : Host.Outcome State Fault Refusal :=
  if q < 4096 && s.wgate p (rQCtl q) then .next (s.abortQueue q) else .next s

/-- A STOPPED queue returns to ACTIVE (R220). -/
def State.resumeQueue (s : State) (q : Nat) : State :=
  let x := s.queue q
  if x.state = .stopped then s.setQueue q { x with state := .active } else s

/-- R220: the resume operation. -/
def execQueueResume (p : Path) (q : Nat) (s : State) : Host.Outcome State Fault Refusal :=
  if q < 4096 && s.wgate p (rQCtl q) then .next (s.resumeQueue q) else .next s

/-- R238: a write sets a semaphore at once. -/
def execGlbSem (p : Path) (n v : Nat) (s : State) : Host.Outcome State Fault Refusal :=
  if n < 65536 && s.wgate p (bGLB + 0x80000 + 4 * n) then .next (s.setSem n v) else .next s

/-- R235, R238: a write adds to a semaphore. -/
def execGlbSemAdd (p : Path) (n v : Nat) (s : State) : Host.Outcome State Fault Refusal :=
  if n < 65536 && s.wgate p (bGLB + 0xC0000 + 4 * n) then .next (s.semAdd n (v % 2 ^ 32)) else .next s

/-! ### Fetch (R223) -/

/-- R223: the next command of a queue is fetched, at most 16 ahead of the issue point; while its memory cannot be
reached, the fetch is deferred. -/
def execCommandFetch (q : Nat) (s : State) : Host.Outcome State Fault Refusal :=
  let x := s.queue q
  if !s.running || x.state = .disabled || x.head = x.tail || dist32 x.head x.issuePt ≥ 16 then .next s
  else
    let a := s.slotOf q x.head
    let host := s.qB s.gen q 0 0
    if (if host then !s.hostUp else !s.reachable a) then .next s
    else
      let ent := (!host && s.mem.poisoned a, s.ringWords q x.head)
      let s := s.setQueue q { x with head := (x.head + 1) % 2 ^ 32, fetched := x.fetched ++ [ent] }
      .next (if host then (s.ccRead s.gen a 64).bump (bHIF + 0x1000) 64 else s)

/-! ### Issue (R224, R225, R236) -/

/-- Issue of a queue is halted by the debug port (R677). -/
def State.qHalted (s : State) (q : Nat) : Bool := wbit (s.reg (bDBG + 0x1000 + 8 * (q / 64))) (q % 64)

/-- Instances for the kinds of a command's stages, each with the fewest tasks, distinct (R224, R225). -/
def State.pickInsts (s : State) (mask : Nat) : List Nat → List Nat → Option (List Nat)
  | [], _ => some []
  | k :: ks, used =>
    let cands := (kindBays k).filter (fun n => s.eligible n && !used.contains n && (!used.isEmpty || bit mask (n - kindBay k)))
    match s.fewest cands with
    | none => none
    | some n => (s.pickInsts mask ks (n :: used)).map (n :: ·)

/-- A kind has no healthy instance (R224, R643); XCH also while P14 is not ON (opening of chapter 23). -/
def State.kindGone (s : State) (k : Nat) : Bool := (kindBays k).all s.fencedU || (k = 9 && !s.domOn 14)

/-- What becomes of a queue's head command. -/
inductive Verdict where
  | wait
  /-- It fails a check, or it cannot run and no chapter gives detail and result. -/
  | fail (f : Fail)
  | lost (status : Nat)
  | go (cs : List Chk) (insts : List Nat)

/-- The kinds a command runs on; a NOP runs on its queue's kind. -/
def cmdKinds (w : List Nat) (cs : List Chk) : List Nat := if cs.isEmpty then [wd w 0 31 28] else cs.map Chk.kind

/-- The head command under the conditions of R224, after the checks of R227. -/
def State.verdict (s : State) (q : Nat) : Verdict :=
  let x := s.queue q
  match x.fetched.head? with
  | none => .wait
  | some (bad, w) =>
    if !s.running || s.flt.state = .c2Recovery || x.state ≠ .active || s.qHalted q ||
       ((wb w 0 17 || s.qB s.gen q 2 56) && (x.inFlight ≠ 0 || !x.aborted.isEmpty)) then .wait
    else if bad then .lost stPOISON
    else match s.checkCmd s.gen (s.qF s.gen q 2 62 59) w with
      | .error f => .fail f
      | .ok cs =>
        let ks := cmdKinds w cs
        if ks.any s.kindGone then .lost stFENCED
        else if !s.canTake w then .wait
        else match s.pickInsts (s.qF s.gen q 3 23 0) ks [] with
          | none => .wait
          | some ns => .go cs ns

/-- No other queue of the kind comes first: higher priority, then rotation after the queue issued last (R225). -/
def State.firstOfKind (s : State) (q : Nat) : Bool :=
  let kind := s.qF s.gen q 2 62 59
  let prio (r : Nat) : Nat := s.qF s.gen r 2 58 57
  let turn (r : Nat) : Nat := (r + 4096 - (tget 4095 s.que.lastIssued kind + 1) % 4096) % 4096
  !s.que.q.any (fun e => e.1 ≠ q && s.qF s.gen e.1 2 62 59 = kind && (prio q < prio e.1 || (prio q = prio e.1 && turn e.1 < turn q)) &&
    (match s.verdict e.1 with | .go _ _ => true | _ => false))

/-- Bytes of a stream's bucket when it is full (R256). -/
def Desc.depth (d : Desc) : Nat := if d.burstKib = 0 then d.rateCap * 64 else d.burstKib * 1024

/-- The active streams of a stage (R248, R256, R257). -/
def State.addStreams (s : State) (t k : Nat) (c : Chk) : State :=
  c.ok.descs.foldl (fun s e =>
    let d := e.2
    let x : Strm := { task := t, stage := k, key := e.1.key, desc := d, rate := d.rateHint * 64 * 65536, bucket := d.depth
                      level := if d.write then outDepth c.words * up64 (prod (effExt c.words c.ok.ext) * d.elem) else 0
                      ended := e.1.shapeOnly, shape := e.1.shapeOnly }
    { s with str := { s.str with strm := tset none s.str.strm s.str.nextStrm (some x), nextStrm := s.str.nextStrm + 1 } }) s

/-- A task claims a free parameter bank for its set, the lowest that no task uses (R282, R292). -/
def State.claimBank (s : State) (n t g : Nat) (addr : Int) (bytes : Nat) : Option State :=
  let x : Inst := tget {} s.str.inst n
  let free (b : Option Bank) : Bool := match b with | some b => b.users.isEmpty | none => true
  match (List.range 2).find? (fun i => free (x.banks.getD i none)) with
  | none => none
  | some i =>
    let sz := 1024 * wfld (s.cfgAt g (bSTR + 0x3000 + 8 * n)) 10 0
    let b : Bank := { addr := addr, bytes := bytes, off := 4194304 - 2 * sz + i * sz, users := [t] }
    let x : Inst := { x with banks := x.banks.set i (some b), waitBank := x.waitBank.filter (fun u => decide (u ≠ t)) }
    some { s with str := { s.str with inst := tset {} s.str.inst n x } }

/-- A stage that names a parameter set reuses a resident one, claims a bank, or waits for one (R292, R293). -/
def State.takeBank (s : State) (n t g : Nat) (reuse : Bool) (d : Desc) : State :=
  let x : Inst := tget {} s.str.inst n
  let addr := (d.start : Int) + d.offset
  let bytes := d.total * d.elem
  let same (b : Option Bank) : Bool := match b with
    | some b => reuse && b.good && b.addr = addr && b.bytes = bytes
    | none => false
  if x.banks.any same then
    let use (b : Option Bank) : Option Bank := if same b then b.map (fun b => { b with users := b.users ++ [t] }) else b
    let y : Inst := { x with banks := (match x.banks with
      | [a, b] => if same a then [use a, b] else [a, use b]
      | l => l) }
    ({ s with str := { s.str with inst := tset {} s.str.inst n y } }).bump (bSTR + 0x5000 + 8 * n) 1
  else
    let wait : Inst := { x with waitBank := x.waitBank ++ [t] }
    let w : State := { s with str := { s.str with inst := tset {} s.str.inst n wait } }
    if x.waitBank.isEmpty then (s.claimBank n t g addr bytes).getD w else w

/-- A command takes its task entries, streams and banks under the current generation (R225, R248). A stream without
elements moves no data: the command ends OK at once (R6). -/
def State.startTask (s : State) (q : Nat) (w : List Nat) (cs : List Chk) (ns : List Nat) : State :=
  let x := s.queue q
  let t := s.que.nextTask
  let nothing := cs.any (fun c => c.ok.descs.any (fun e => e.2.total = 0))
  let stage (k : Nat) : Stage :=
    match cs[k]? with
    | some c =>
      { kind := c.kind, op := c.op, inst := ns.getD k 0, words := c.words
        res := if nothing then some {} else none
        aux := c.ok.info.aux c.ok.desc, out := c.ok.info.out, par := c.ok.info.par
        bufs := stageBufs c.words c.ok (handIn' w cs k)
        nTiles := if nothing then 0 else prod (tileCounts c.words c.ok.ext)
        slots := if k + 1 < cs.length then wd w (wordA k + 2) 23 22 + 1 else 0
        keepPrev := keepPrev c.words }
    | none => { kind := wd w 0 31 28, op := 0, inst := ns.getD k 0, words := w }
  let stages := (List.range ns.length).map stage
  let task : Task := { queue := q, index := x.issuePt, tag := w.getD 1 0, words := w, gen := s.gen, stages := stages
                       deadline := (cs.map (fun c => c.ok.info.deadline)).foldl max 0 }
  let s := (s.setTask t (some task)).takeSems w
  let s := { s with que := { s.que with nextTask := t + 1, lastIssued := tset 4095 s.que.lastIssued (wd w 0 31 28) q } }
  let s := s.setQueue q { x with issuePt := (x.issuePt + 1) % 2 ^ 32, fetched := x.fetched.drop 1, inFlight := x.inFlight + 1 }
  let s := s.fresh (fun f s => s.trace 0x01 (ns.getD 0 uSTR)
    (leBytes 2 q ++ leBytes 2 0 ++ leBytes 4 x.issuePt ++ leBytes 4 s.gen ++ leBytes 4 (Config.freeValue f 0)))
  if nothing then s
  else
    let s := (List.range cs.length).foldl (fun s k => match cs[k]? with
      | some c =>
        let s := s.addStreams t k c
        (match c.ok.info.par with
         | some key => s.takeBank (ns.getD k 0) t s.gen (paramReuse c.words) (c.ok.desc key)
         | none => s)
      | none => s) s
    s.presentAll

/-- The record of a head command that is not issued (R227, R239). -/
def State.headCpl (s : State) (q : Nat) (w : List Nat) (f : Fail) : Cpl :=
  { queue := q, index := (s.queue q).issuePt, tag := w.getD 1 0, gen := s.gen, status := f.1, detail := f.2.1, result := f.2.2, irq := wb w 0 16 }

/-- A command that is not issued completes with a status (R227). -/
def State.failHead (s : State) (q : Nat) (c : Cpl) : State :=
  let x := s.queue q
  let s := (s.record c).setQueue q { (s.record c).queue q with issuePt := (x.issuePt + 1) % 2 ^ 32, fetched := x.fetched.drop 1 }
  let s := s.recordIrq c
  s.trace 0x02 uSTR (leBytes 2 q ++ leBytes 2 c.status ++ leBytes 4 x.issuePt ++ leBytes 2 c.detail)

/-- R224, R225, R227, R236: the head command of a queue is checked and issued. -/
def execCommandIssue (q : Nat) (s : State) : Host.Outcome State Fault Refusal :=
  let w := ((s.queue q).fetched.head?.map Prod.snd).getD []
  match s.verdict q with
  | .wait => .next s
  | .fail f => if s.cplFull s.gen q then .next s else .next (s.failHead q (s.headCpl q w f))
  | .lost st =>
    if s.cplFull s.gen q then .next s
    else .next (s.fresh (fun f s => s.failHead q ((s.headCpl q w (st, 0, 0)).opened f)))
  | .go cs ns => if s.firstOfKind q then .next (s.startTask q w cs ns) else .next s

/-- R230: a NOP moves no data and ends OK. -/
def execNop (t : Nat) (s : State) : Host.Outcome State Fault Refusal :=
  match (s.task t).bind (fun x => x.stages.head?) with
  | none => .next s
  | some g => .next (s.eng t 0 g.kind 0 (fun _ _ s => s.endStage t 0 {}))

/-! ### Completion (R234, R239 to R242) -/

/-- The stage whose result a record carries: the first that is not OK, or the last (R234). -/
def Task.source (x : Task) : Nat × Res :=
  let rs := (List.range x.stages.length).filterMap (fun k => ((x.stages[k]?).bind Stage.res).map (fun r => (k, r)))
  match rs.find? (fun e => e.2.status ≠ stOK) with
  | some e => e
  | none => (0, (rs.getLast?.map Prod.snd).getD {})

/-- A stage ended with a failure, so that the other stages stop (R234). -/
def Task.failed (x : Task) : Bool := x.stages.any (fun g => match g.res with | some r => r.status ≠ stOK && r.status ≠ stDAMAGED | none => false)

/-- The Ledger reports a command sends: all where its outputs are released, none at ADDR_RANGE, FENCED or ABORTED, else
those of the stage that failed (R363). -/
def Task.reports (x : Task) : List Report :=
  let (k, r) := x.source
  if r.status = stOK ∨ r.status = stDAMAGED then x.stages.flatMap (fun g => (g.res.map Res.reports).getD [])
  else if r.status = stADDR_RANGE ∨ r.status = stFENCED ∨ r.status = stABORTED then []
  else (((x.stages[k]?).bind Stage.res).map Res.reports).getD []

/-- What a finished command leaves behind: its streams, banks, frames, records and generation (R146, R294). -/
def State.dropTask (s : State) (t : Nat) (x : Task) : State :=
  let s := ((s.dropFetch t).pakTaskEnd t).senTaskEnd t
  let s := (s.ingTaskEnd t).dropStreamsOf t
  let s := (x.stages.map Stage.inst).foldl (fun s n => s.leaveBank n t) s
  let s := s.setTask t none
  let s := s.setQueue x.queue { s.queue x.queue with inFlight := (s.queue x.queue).inFlight - 1 }
  s.retireGens.retryWaiting.presentAll

/-- A command completes in the order of R240: record and cpl_tail, link additions, interrupt. Its reports follow through
the gate, which the command has passed as a whole (R363, R641): no fence takes them back. -/
def State.complete (s : State) (t : Nat) (x : Task) : State :=
  let (k, r) := x.source
  let c : Cpl := { queue := x.queue, index := x.index, tag := x.tag, gen := x.gen, status := r.status, detail := r.detail
                   result := r.result, inst := (x.stages.head?.map Stage.inst).getD 0xFF, failing := k, irq := wb x.words 0 16 }
  let quiet := wb x.words 0 15 && r.status = stOK
  let kind := ((x.stages[k]?).map Stage.kind).getD 0
  let open' := openStatus r.status && (kind ≠ 0 || r.result = 0)
  let c := if open' then c.opened s.free (kind = 9 && (r.status = stFENCED || r.status = stPOISON)) else c
  let s := if open' then { s with free := s.free + 1 } else s
  let s := if quiet then s else s.record c
  let s := s.signal x.words r.status
  let s := if quiet then s else s.recordIrq c
  let s := x.reports.foldl (fun s r => s.gatePut 0xFFF (.report r)) s
  let s := s.trace 0x02 c.inst (leBytes 2 x.queue ++ leBytes 2 r.status ++ leBytes 4 x.index ++ leBytes 2 (c.detail % 65536))
  s.dropTask t x

/-- A command that can complete: every stage has ended, or one failed; its record has room (R234, R241). -/
def State.tryComplete (s : State) (t : Nat) (x : Task) : State :=
  if !(x.finished || x.failed) || s.que.reissue.contains t || !s.mainRunning then s
  else
    let quiet := wb x.words 0 15 && x.source.2.status = stOK
    if !quiet && s.cplFull x.gen x.queue then s.setTask t (some { x with stalled := true })
    else s.complete t x

/-- R240: a command completes, or stalls on its full completion ring. -/
def execCommandComplete (t : Nat) (s : State) : Host.Outcome State Fault Refusal :=
  match s.task t with
  | none => .next s
  | some x => .next (s.tryComplete t x)

/-- R241: a held completion writes its record once the ring has room. -/
def execCompletionStallRelease (t : Nat) (s : State) : Host.Outcome State Fault Refusal :=
  match s.task t with
  | none => .next s
  | some x => if x.stalled && !s.cplFull x.gen x.queue then .next (s.tryComplete t { x with stalled := false }) else .next s

/-- R242: the hold-off of a queue ends; a pending interrupt is sent. -/
def execIrqHoldoffExpiry (q : Nat) (s : State) : Host.Outcome State Fault Refusal :=
  let x := s.queue q
  if !x.holdoff then .next s
  else
    let s := s.setQueue q { x with holdoff := false }
    .next (if x.irqPend then s.qIrq s.gen q else s)

end Sys2Proof.Machine
end

