-- ==== Sys2Proof/Machine/Str.lean ====
section
/-! DEFINITION. The Perihelion arbiter, the stream accounts, the instances' tasks and the parameter banks (chapters 10
and 11). -/

namespace Sys2Proof.Machine

/-! ### Shared ports (R261) -/

/-- Die of an address of device memory; 2 is the I/O die (R38, R188). -/
def memDie (a : Nat) : Nat :=
  match region a with
  | some (.hbm d) => d
  | some (.depot b) => b
  | some (.bay n) => islandDie (bayIsland n)
  | none => 2

/-- Bridge directions between two dies in order: 0 from die 0 to the I/O die, 1 back, 2 from die 1, 3 back (R194). -/
def bridgePath (x y : Nat) : List Nat :=
  if x = y then [] else (if x = 2 then [] else [2 * x]) ++ (if y = 2 then [] else [2 * y + 1])

/-- The transfer a stream has presented, with its place in the arbitration. -/
def Strm.tr (x : Strm) : Option (Waiting × Tr) :=
  match x.presented, x.desc.transfers[x.cursor - 1]? with
  | some w, some t => some (w, t)
  | _, _ => none

/-- The port at the end of a transfer's way (R252, R261). -/
def homePort (space : Nat) (a : Int) : MemPort :=
  if space = 0 then
    match region a.toNat with
    | some (.depot b) => .depot b (a.toNat / 64 % 64)
    | some (.bay n) => .bay n
    | _ => .hbm (stackOf a.toNat) (channelOf a.toNat)
  else .hif

/-- The port a transfer waits at: the next bridge direction on its way, then its home port. -/
def State.portOf (s : State) (x : Strm) (w : Waiting) (t : Tr) : MemPort :=
  let n := (((s.task x.task).bind (fun y => y.stages[x.stage]?)).map Stage.inst).getD 53
  let die := if x.desc.space = 0 then memDie t.addr.toNat else 2
  match (bridgePath (islandDie (bayIsland n)) die)[w.bridged]? with
  | some b => .bridge b
  | none => homePort x.desc.space t.addr

/-- Stream priority (R261). -/
def State.strmPrio (s : State) (x : Strm) : Nat :=
  match s.task x.task with
  | some y => 4 * s.qF y.gen y.queue 2 58 57 + x.desc.subPrio
  | none => 0

/-- One transfer is granted before another: smaller key, higher priority, earlier presentation (R261). -/
def State.before (s : State) (x y : Strm) (a b : Waiting) : Bool :=
  a.q < b.q || (a.q = b.q && (s.strmPrio y < s.strmPrio x || (s.strmPrio x = s.strmPrio y && a.seq < b.seq)))

/-- The waiting transfers of a port. -/
def State.waitingAt (s : State) (p : MemPort) : List (Nat × Strm × Waiting × Tr) :=
  s.str.strm.filterMap (fun e => match e.2 with
    | some x => (match x.tr with
      | some (w, t) => if s.portOf x w t = p then some (e.1, x, w, t) else none
      | none => none)
    | none => none)

/-- The winner of a port. -/
def State.winner (s : State) (p : MemPort) : Option (Nat × Strm × Waiting × Tr) :=
  (s.waitingAt p).foldl (fun best c => match best with
    | none => some c
    | some b => if s.before c.2.1 b.2.1 c.2.2.1 b.2.2.1 then some c else best) none

def State.setStrm (s : State) (n : Nat) (x : Strm) : State := { s with str := { s.str with strm := tset none s.str.strm n (some x) } }

/-- A transfer in the CXL.mem window is made coherent with the host's caches (R624). -/
def State.inWindow (s : State) (space : Nat) (a : Int) : Bool :=
  space = 0 && s.hif.cxlMem && s.hif.hdmCommitted &&
  decide (put (s.cf (bHIF + 0x20) 43 28) 28 16 ≤ a) && decide (a < put (s.cf (bHIF + 0x20) 43 28) 28 16 + 2 ^ s.cf (bHIF + 0x20) 63 56)

/-- A granted transfer leaves the arbitration and is under way; a host read becomes its requests (R618, R625). -/
def State.grantHome (s : State) (n : Nat) (x : Strm) (t : Tr) : State :=
  let y := s.task x.task
  let q := (y.map Task.queue).getD 0
  let id := s.str.nextXfer
  let s := s.setStrm n { x with presented := none }
  let e : Xfer := { stream := n, queue := q, addr := t.addr, len := t.len }
  let s := { s with str := { s.str with xfer := tset none s.str.xfer id (some e), nextXfer := id + 1 } }
  let s := s.whenB (s.inWindow x.desc.space t.addr) (·.bump (bHIF + 0x1058) 1)
  if x.desc.space = 1 && !x.desc.write && s.hostUp then
    let g := (y.map Task.gen).getD s.gen
    let direct := (linePieces t.addr.toNat t.len).filter (fun p => !s.ccUsed g (64 * p.1))
    let s := s.ccRead g t.addr.toNat t.len
    if direct.isEmpty then s
    else s.hostAsk t.addr.toNat t.len { addr := 0, len := 0, task := some x.task, xfer := some id }
  else s

/-- R261: a port grants the waiting transfer with the smallest key. -/
def execTransferGrant (port : MemPort) (s : State) : Host.Outcome State Fault Refusal :=
  if !s.mainRunning then .next s
  else match s.winner port with
    | none => .next s
    | some (n, x, w, t) => .next (match port with
      | .bridge _ => s.setStrm n { x with presented := some { w with bridged := w.bridged + 1 } }
      | _ => (s.grantHome n x t).presentAll)

/-- R255, R197: a granted transfer ends; a memory error met on the way is corrected, or poisons the line. -/
def execTransferDone (x : Nat) (err : MemErr) (s : State) : Host.Outcome State Fault Refusal :=
  match tget none s.str.xfer x with
  | none => .next s
  | some e =>
    if s.hif.reads.any (fun r => match r.2 with | some h => h.xfer = some x | none => false) then .next s
    else
      let s := { s with str := { s.str with xfer := tset none s.str.xfer x none } }
      let dev : Bool := match tget none s.str.strm e.stream with | some z => z.desc.space = 0 | none => false
      let s := match tget none s.str.strm e.stream with
        | some z => s.setStrm e.stream { z with level := z.level + e.len }
        | none => s
      let a := e.addr.toNat
      let s := match (if dev then region a else none), err with
        | none, _ => s
        | some _, .none => s
        | some _, .ce => s.memCe a
        | some r, .ue => s.memUe a (match r with | .hbm _ => 0 | .depot _ => 2 | .bay _ => 3)
      .next s.presentAll

/-! ### Accounts of the streams (R256 to R260, R262) -/

/-- Apply a function to every active stream. -/
def State.mapStrms (s : State) (f : Strm → Strm) : State :=
  { s with str := { s.str with strm := tmap none (fun (e : Option Strm) => e.map f) s.str.strm } }

/-- r ← r + (moved − r) / 2^shift with 16 fraction bits (R257). -/
def rateNext (r moved shift : Nat) : Nat :=
  let m := moved * 65536
  if r ≤ m then r + (m - r) / 2 ^ shift else r - (r - m) / 2 ^ shift

/-- R257: the end of a 1 µs window. -/
def execRateWindowUpdate (s : State) : Host.Outcome State Fault Refusal :=
  let shift := s.cf (bSTR + 0x20) 3 0
  .next (s.mapStrms (fun x => { x with rate := rateNext x.rate x.moved shift, moved := 0 }))

/-- R256: the buckets gain 1 µs of their rate, up to their depth. -/
def execBucketRefill (s : State) : Host.Outcome State Fault Refusal :=
  let up (x : Strm) : Strm := { x with bucket := if x.desc.rateCap = 0 then x.bucket else min x.desc.depth (x.bucket + x.desc.rateCap * 64) }
  .next (s.mapStrms up).presentAll

/-- Recompute one waiting transfer: its key, or 0 once it has waited max_wait (R262). The flag tells of an ageing. -/
def State.requeue (s : State) (x : Strm) : Strm × Bool :=
  match x.presented with
  | none => (x, false)
  | some w =>
    let n := w.windows + 1
    let lim := 64 * s.cf (bSTR + 0x20) 31 16
    let aged := decide (lim ≤ 32 * n)
    ({ x with presented := some { w with windows := n, q := if aged then 0 else s.tte x / 256 } }, aged && decide (32 * w.windows < lim))

/-- R262: the recomputation of every waiting transfer, each 64 spine cycles. -/
def execQRecompute (s : State) : Host.Outcome State Fault Refusal :=
  let n := (s.str.strm.filter (fun e => match e.2 with | some x => (s.requeue x).2 | none => false)).length
  .next (((s.mapStrms (fun x => (s.requeue x).1)).bump (bSTR + 0x50) n).presentAll)

/-! ### Late data (R264, R266) -/

/-- A task could run on an instance: it is there, its parameters are resident and earlier stages have handed over. -/
def State.taskReady (s : State) (n t : Nat) : Bool :=
  s.worksOn n t && (match s.task t with
    | some x => (List.range x.stages.length).any (fun k => match x.stages[k]? with
      | some g => g.inst = n && g.res.isNone && s.parReady t g && (x.stages.take k).all (fun h => h.res.isSome)
      | none => false)
    | none => false)

/-- R264: after yield_after cycles without its data an instance in YIELD turns to the ready task issued first. -/
def execYieldSwitch (n t : Nat) (s : State) : Host.Outcome State Fault Refusal :=
  let cur := s.curTask n
  if n < 54 && s.cb (bSTR + 0x1000 + 8 * n) 31 && s.haltOf n = .running && cur ≠ some t && cur.isSome &&
     ((s.tasksOn n).filter (fun u => decide (some u ≠ cur))).find? (s.taskReady n) = some t then
    let x : Inst := { tget {} s.str.inst n with cur := some t, switching := 16 }
    .next ({ s with str := { s.str with inst := tset {} s.str.inst n x } }.bump (bTEL + 0x20000 + 8 * n) 1)
  else .next s

/-- A stall counter reaches its limit (R266, R661). -/
def State.telSat (s : State) (n c : Nat) : State :=
  let s := s.setReg (bTEL + 0x10000 + 0x80 * n + 8 * c) (BitVec.ofNat 64 (2 ^ 63 + 2 ^ 48 - 1))
  (s.setBits (bTEL + 0x10) (2 ^ n)).event 3

/-- R661: a stall counter saturates. -/
def execTelSat (n c : Nat) (s : State) : Host.Outcome State Fault Refusal :=
  if n < 54 && c < 16 && !wbit (s.reg (bTEL + 0x10000 + 0x80 * n + 8 * c)) 63 then .next (s.telSat n c) else .next s

/-! ### Tiles (R275, R285, R296) -/

/-- Bytes that one tile of a stage moves of a stream: an even share. -/
def Strm.share (x : Strm) (tiles : Nat) : Nat := cdiv (x.desc.total * x.desc.elem) (max 1 tiles)

/-- One tile's part of a stream is consumed or produced (R257). -/
def Strm.work (x : Strm) (t k tiles : Nat) : Strm :=
  if x.task = t && x.stage = k && !x.shape then
    let n := x.share tiles
    { x with level := x.level - n, moved := x.moved + n }
  else x

/-- R285: a Bay tile's last core tile completes. What it writes lies in the stage's own row; here the tile is counted and
its streams' levels move. -/
def execTileComplete (t k : Nat) (s : State) : Host.Outcome State Fault Refusal :=
  match s.task t with
  | none => .next s
  | some x =>
    match x.stages[k]? with
    | none => .next s
    | some g =>
      if g.res.isNone && g.tiles < g.nTiles && s.instRuns g.inst && s.mayWork g.inst t && s.parReady t g then
        let s := s.setTask t (some { modStage x k (fun g => { g with tiles := g.tiles + 1 }) with started := true })
        let s := s.bump (bSTR + 0x4000 + 16 * g.inst) 1
        .next (s.mapStrms (fun z => z.work t k g.nTiles)).presentAll
      else .next s

/-! ### Parameter sets (R291 to R294) -/

/-- The stage of a task that names a parameter set on an instance. -/
def Task.parStage (x : Task) (n : Nat) : Option (Nat × Stage × Nat) :=
  (List.range x.stages.length).findSome? (fun k => match x.stages[k]? with
    | some g => if g.inst = n then g.par.map (fun key => (k, g, key)) else none
    | none => none)

/-- R292: the oldest waiting task of an instance claims a free bank, and its load begins. -/
def execParamLoadStart (n t : Nat) (s : State) : Host.Outcome State Fault Refusal :=
  let x : Inst := tget {} s.str.inst n
  match s.task t, x.waitBank.head? with
  | some y, some u =>
    if u = t && s.mainRunning then
      (match y.parStage n with
       | some (k, _, key) =>
         let d := s.descOf t k key
         .next ((s.claimBank n t y.gen ((d.start : Int) + d.offset) (d.total * d.elem)).getD s)
       | none => .next s)
    else .next s
  | _, _ => .next s

/-- Change the bank of an instance that a task's load fills. -/
def State.modBank (s : State) (n t : Nat) (f : Bank → Option Bank) : State :=
  let x : Inst := tget {} s.str.inst n
  let g (b : Option Bank) : Option Bank := match b with
    | some b => if !b.loaded && b.users.contains t then f b else some b
    | none => none
  let x : Inst := { x with banks := x.banks.map g }
  { s with str := { s.str with inst := tset {} s.str.inst n x } }

/-- The task whose load an instance runs: of the sets not yet loaded, the one issued first (R292). -/
def Inst.loading (x : Inst) : Option Nat :=
  (x.banks.filterMap (fun b => match b with | some b => if b.loaded then none else b.users.head? | none => none)).foldl
    (fun m u => match m with | none => some u | some v => some (min u v)) none

/-- A set that its kind refuses (R378, R399, R422), with the kind's counter. -/
def State.parBad (s : State) (t k : Nat) (g : Stage) (b : List Byte) : Option Nat :=
  if g.kind = 2 && lexDictBad b then some (lexCtr g.inst 10)
  else if g.kind = 3 && grtProgBad b then some (grtCtr g.inst 7)
  else if g.kind = 4 && !oryParOk g.op g.words (s.descOf t k 7) (s.descOf t k 9) b then
    some (bORY + 0x1000 + 0x100 * (g.inst - 30) + 8 * 6)
  else none

/-- The command of a failed load ends; its bank is released (R294). -/
def State.parFail (s : State) (n t k st : Nat) : State := (s.modBank n t (fun _ => none)).endStage t k { status := st }

/-- The data of a set arrive: an error ends the command, else the bank holds them and the kind checks them. -/
def State.parLoad (s : State) (n t k : Nat) (g : Stage) (key : Nat) (off : Nat) : State :=
  let els := s.elAll (s.descOf t k key)
  match els.findSome? El.err with
  | some e => s.parFail n t k e
  | none =>
    let poison := (els.flatMap El.poison).eraseDups
    if !poison.isEmpty then (s.countPoison poison.length).parFail n t k stPOISON
    else
      let b := els.flatMap El.data
      let s := (s.store (bayBase n + off) b).bump (bSTR + 0x4008 + 16 * n) 1
      match s.parBad t k g b with
      | some ctr => (s.err ctr).parFail n t k stFORMAT
      | none => (s.modBank n t (fun x => some { x with loaded := true, good := true })).presentAll

/-- R291: the load of a parameter set ends. -/
def execParamLoadDone (n t : Nat) (s : State) : Host.Outcome State Fault Refusal :=
  let x : Inst := tget {} s.str.inst n
  if x.loading ≠ some t || !s.mainRunning || !s.powered (bayDom n) then .next s
  else match s.task t, s.bankOf t n with
    | some y, some b =>
      (match y.parStage n with
       | some (k, g, key) => if g.res.isSome then .next s else .next (s.parLoad n t k g key b.off)
       | none => .next s)
    | _, _ => .next s

end Sys2Proof.Machine
end

