-- ==== Sys2Proof/Machine/Apply.lean ====
section
/-! DEFINITION. The apply instant of a commit and what each block does at it (R141 and the chapters it names). -/

namespace Sys2Proof.Machine

/-! ### Queues (R219) -/

/-- A queue enters ACTIVE with its four indices at zero. -/
def State.queueEnable (s : State) (q : Nat) : State :=
  let x := s.queue q
  s.setQueue q { state := .active, inFlight := x.inFlight, irqPend := x.irqPend, holdoff := x.holdoff }

/-- A queue enters DISABLED: its fetched, unissued commands are dropped; its indices keep their values. -/
def State.queueDisable (s : State) (q : Nat) : State :=
  s.setQueue q { s.queue q with state := .disabled, fetched := [] }

/-! ### Islands (R62, R63) -/

/-- A running DVFS island takes its target from its new configuration. -/
def State.islApply (s : State) (old : Tbl Word) (n : Nat) : State :=
  if islandKind n ≠ .dvfs || tget 0 old (rIslCfg n) = s.cfg (rIslCfg n) then s
  else
    let pol := s.cf (rIslCfg n) 7 6
    s.retarget n (if pol = 1 then s.effCeil n else if pol = 2 then s.fMin n else max (s.fMin n) (s.isl n).target)

/-! ### Tables and pin sets (R313, R450) -/

/-- Tables whose GTH_TBL_CUR changed. -/
def State.switched (s : State) (old : Tbl Word) : List Nat :=
  ((s.cfgTbl s.gen ++ old).filterMap (fun e =>
    if bGTH + 0x40000 ≤ e.1 ∧ e.1 < bGTH + 0x60000 then some ((e.1 - (bGTH + 0x40000)) / 0x20) else none)).eraseDups.filter (fun t =>
      (List.range 3).any (fun i => tget 0 old (rCur t + 8 * i) ≠ s.cfg (rCur t + 8 * i)))

/-- The named version takes a free slot and becomes CURRENT; the one that was CURRENT becomes RETIRING. -/
def State.tblSwitch (s : State) (t : Nat) : State :=
  let old (v : GthVer) : GthVer := if v.state = .current then { v with state := .retiring } else v
  let new : GthVer := { state := .current, version := s.cf (rCur t) 31 0, base := s.cf (rCur t + 8) 43 0, host := (s.cfg (rCur t + 0x10)).toNat }
  let free := (List.range 4).find? (fun i => (tget ({} : GthVer) s.gth.ver (4 * t + i)).state = .free)
  let ver := (List.range 4).foldl (fun m i => tset {} m (4 * t + i) (old (tget ({} : GthVer) m (4 * t + i)))) s.gth.ver
  match free with
  | some i => { s with gth := { s.gth with ver := tset {} ver (4 * t + i) new } }
  | none => s

/-- A pipeline that stays enabled and lists the table waits for its new pin set. -/
def State.pinDue (s : State) (t p : Nat) : State :=
  if (s.pinTables p).contains t then
    let pl : Pipe := tget {} s.ldg.pipe p
    { s with ldg := { s.ldg with pipe := tset {} s.ldg.pipe p { pl with pinWait := pl.pinWait ++ [(t, s.cf (rCur t) 31 0)] } } }
  else s

/-! ### Pipelines (R306, R315, R490, R502) -/

/-- A pipeline starts at start_batch of start_epoch: its admission ring is empty, its layout is to be read, its delivery
sequence numbers start at 0, and it takes a pin set. -/
def State.pipeStart (s : State) (p : Nat) : State :=
  let stride := max 1 (s.pipeF p 5 31 16)
  let first := s.pipeF p 5 15 0
  let b := s.pipeF p 4 39 0
  let next := b + (first + stride - b % stride) % stride
  let s := s.leavePin p
  let x : Pipe := { state := .running, epoch := s.pipeF p 4 63 48, next := next }
  let dest (e : Nat × Dest) : Nat × Dest := if e.1 / 16384 = p then (e.1, { e.2 with dsn := 0 }) else e
  let s := { s with
    ldg := { s.ldg with pipe := tset {} s.ldg.pipe p x }
    pak := { s.pak with
      pipe := tset {} s.pak.pipe p { due := true }
      dest := (s.pak.dest.map dest).filter (fun e => decide (e.2 ≠ ({} : Dest))) } }
  if s.freePin.isSome then s.newPin p
  else (s.pinTables p).foldl (fun s t => s.pinDue t p) s

/-- A pipeline that is no longer enabled admits nothing more. -/
def State.pipeStop (s : State) (p : Nat) : State :=
  { s with ldg := { s.ldg with pipe := tset {} s.ldg.pipe p { tget {} s.ldg.pipe p with state := .disabled } } }

/-! ### Links and the domain (R333, R556, R590, R602, R605) -/

/-- A Nguorn port is enabled or disabled. -/
def State.portApply (s : State) (old : Tbl Word) (p : Nat) : State :=
  match cbt old (rPort p) 63, s.portEn p with
  | false, true => s.portStart p
  | true, false => if (s.port p).state = .disabled then s else s.portTo p .disabled (s.port p).cause
  | _, _ => s

/-- A changed Ethernet port forgets its resolution entries; one that is disabled goes down. -/
def State.ethApply (s : State) (old : Tbl Word) (x : Nat) : State :=
  if (List.range 8).all (fun i => tget 0 old (rEth x + 8 * i) = s.cfg (rEth x + 8 * i)) then s
  else if !s.cb (rEth x) 48 then (if (s.ethPort x).up then (List.range 64).foldl State.tgtLost (s.ethDown x) else s)
  else s.setEthPort x { s.ethPort x with arp := [] }

/-- The servo leaves HOLDOVER when a commit names source 0, 1 or 2 in place of 3. -/
def State.timeApply (s : State) (old : Tbl Word) : State :=
  if s.servo.state = .holdover && cfl old (bSEN + 8) 1 0 = 3 && s.timeSrc ≠ 3 then
    { s with servo := { s.servo with state := .locking, good := 0 } }
  else s

/-! ### The apply instant -/

/-- What the blocks do at the apply instant; `old` is the configuration before it, `role` tells whether the commit set the
domain role. -/
def State.applyHooks (s : State) (old : Tbl Word) (role : Bool) : State :=
  let new := s.cfgTbl s.gen
  let s := (queuesOn new).foldl (fun s q => if cbt old (rQ q + 0x10) 63 then s else s.queueEnable q) s
  let s := (queuesOn old).foldl (fun s q => if cbt new (rQ q + 0x10) 63 then s else s.queueDisable q) s
  let s := (span 3 22).foldl (fun s n => s.islApply old n) s
  let s := { s with aon := { s.aon with wakeCfg := s.cfg (bAON + 0x100), wakeDir := s.cfg (bAON + 0x108) } }
  let ts := s.switched old
  let s := ts.foldl State.tblSwitch s
  let kept := (pipesIn new).filter (fun p => cbt old (rPipe p) 63)
  let s := ts.foldl (fun s t => kept.foldl (fun s p => s.pinDue t p) s) s
  let s := (pipesIn old).foldl (fun s p => if cbt new (rPipe p) 63 then s else s.pipeStop p) s
  let s := (pipesIn new).foldl (fun s p => if cbt old (rPipe p) 63 then s else s.pipeStart p) s
  let s := (List.range 16).foldl (fun s p => s.portApply old p) s
  let s := (List.range 2).foldl (fun s x => s.ethApply old x) s
  let s := (s.senApply old).timeApply old
  if role then s.startRole else s

/-- The staged values become generation g + 1 (R141, R142, R155). -/
def State.applyCommit (s : State) : State :=
  let role := (tget none s.stg.set (rDom 0)).isSome || (tget none s.stg.set (rDom 0 + 4)).isSome
  let cfg := s.newCfg
  let s := if s.domRole ≠ 0 && cfl cfg (rDom 0) 63 62 = 0 then s.leaveDomain 1 else s
  let old := s.cfgTbl s.gen
  let g := (s.gen + 1) % 2 ^ 32
  let s : State := { s with stg := { s.stg with gens := (g, cfg) :: s.stg.gens, result := .accepted, state := .idle } }
  let s := (s.stgRelease.retireGens.bump (bSTG + 0x40) 1).commitTrace .accepted 0
  (s.applyHooks old role).presentAll

/-- R141: the apply instant. -/
def execCommitApply (s : State) : Host.Outcome State Fault Refusal :=
  if s.stg.state = .apply && s.bootRuns then .next s.applyCommit else .next s

end Sys2Proof.Machine
end

