-- ==== Sys2Proof/Machine/Azm.lean ====
section
/-! DEFINITION. The Azimuth test port (R443, R444). -/

namespace Sys2Proof.Machine

/-- The two halves of a list of registers, lower half first. -/
def State.halves (s : State) (a n : Nat) : List Nat :=
  (List.range n).flatMap (fun i => [wfld (s.reg (a + 8 * i)) 31 0, wfld (s.reg (a + 8 * i)) 63 32])

/-- R444: a write of 1 latches the key and counter registers and starts a block. -/
def execGlbAzmGo (p : Path) (s : State) : Host.Outcome State Fault Refusal :=
  if s.wgate p (bGLB + 0x830) then
    .next { s with azm := { s.azm with jobs := s.azm.jobs ++ [(s.halves (bGLB + 0x800) 4, s.halves (bGLB + 0x820) 2)] } }
  else .next s

/-- GLB_AZM_OUT_i. -/
def Azm.outReg (z : Azm) (i : Nat) : Nat := z.out.getD (2 * i) 0 + 2 ^ 32 * z.out.getD (2 * i + 1) 0

/-- Data of a read of GLB_AZM_OUT at an offset. -/
def Azm.outRead (z : Azm) (off size : Nat) : Nat :=
  z.outReg ((off - 0x838) / 8) / 2 ^ (8 * (off % 8)) % 2 ^ (8 * size)

/-- A read is answered on its path; the debug transport answers with the tag of the waiting request (R673). -/
def State.answer (s : State) (p : Path) (size v : Nat) : State :=
  match p with
  | .debug => match s.dbg.waiting with
    | some tag => { s with dbg := { s.dbg with waiting := none } }.emit (.debug tag stOK (leBytes size v))
    | none => s
  | _ => s.emit (.read p size v)

/-- The shadow of a path latches the high half that goes with a low-half read (R17). -/
def State.latch (s : State) (p : Path) (a : Nat) (hi : Half) : State :=
  match p with
  | .host => { s with shHost := some (a, hi) }
  | .debug => { s with shDbg := some (a, hi) }
  | .vault => { s with shVlt := some (a, hi) }
  | .boot => s

/-- A held read of GLB_AZM_OUT is answered with the block now there; a low-half read latches its high half (R17). -/
def State.answerHeld (s : State) (h : HeldRead) : State :=
  let s := if h.wanted then s.answer h.path h.size (s.azm.outRead h.off h.size) else s
  if h.size = 4 && h.off % 8 = 0 then
    s.latch h.path h.off (BitVec.ofNat 32 (s.azm.outReg ((h.off - 0x838) / 8) / 2 ^ 32))
  else s

/-- R444: the oldest block is ready; the reads that waited for it are answered. -/
def execAzmBlockReady (s : State) : Host.Outcome State Fault Refusal :=
  match s.azm.jobs with
  | [] => .next s
  | (k, c) :: js =>
    let held := s.azm.held.map (fun (h : HeldRead) => { h with left := h.left - 1 })
    let z : Azm := { jobs := js, out := azimuth k c, held := held.filter (fun h => decide (h.left ≠ 0)) }
    let s := { s with azm := z }
    .next ((held.filter (fun h => decide (h.left = 0))).foldl State.answerHeld s)

end Sys2Proof.Machine
end

