-- ==== Sys2Proof/Machine/Fab.lean ====
section
/-! DEFINITION. The shuffle domain's messages and timers, and table pulls (chapter 25). -/

namespace Sys2Proof.Machine

/-! ### Echoes and fabric time over Nguorn (R604) -/

/-- R604: an ECHO_REQ to the held root, with a token of its own. -/
def execEchoSend (s : State) : Host.Outcome State Fault Refusal :=
  let d := s.ngl.dom
  if s.timeSrc = 3 && d.rootHeld && d.state ≠ .root && d.heldRoot ≠ s.devId then
    let s := s.setDomn { d with echoTok := (d.echoTok + 1) % 2 ^ 64, echoSent := some (d.echoTok, s.ns) }
    .next (s.domSend (ctrlMsg false d.heldRoot 3 (leBytes 8 d.echoTok)))
  else .next s

/-- R604: the answer to the echo in flight gives one round-trip time; the 16 latest are kept. -/
def execEchoRsp (s : State) : Host.Outcome State Fault Refusal :=
  match s.inMsg 8 4 with
  | none => .next s
  | some m =>
    let s := s.popMsg m
    let d := s.ngl.dom
    match d.echoSent with
    | some (tok, t) =>
      if tok = m.fld 0 8 && m.src = d.heldRoot && !m.srcEp then
        .next (s.setDomn { d with echoSent := none, rtts := ((s.ns - t) :: d.rtts).take 16 })
      else .next s
    | none => .next s

/-- Half the mean round trip of the latest echoes. -/
def Domn.delay (d : Domn) : Nat := d.rtts.sum / (2 * max 1 d.rtts.length)

/-- A ROOT_BEAT from the held root serves as a Sync under source 3. -/
def State.beatSync (s : State) (t : Nat) : State :=
  if s.timeSrc = 3 then s.servoSync ((s.ns : Int) - (t + s.ngl.dom.delay : Nat)) else s

/-! ### Holding a root (R595, R597, R601) -/

/-- The device takes a claimant as its root: a lease starts, and a JOINING device is IN. -/
def State.holdRoot (s : State) (term src : Nat) : State :=
  let d := s.ngl.dom
  let fresh := !(d.rootHeld && d.heldRoot = src)
  let s := s.setDomn { d with
    heldTerm := term, heldRoot := src, rootHeld := true, lease := true
    rtts := if fresh then [] else d.rtts
    echoSent := if fresh then none else d.echoSent }
  if d.state = .joining then
    let s := s.domSet .isIn
    if s.timeSrc = 3 && s.servo.state = .holdover then { s with servo := { s.servo with state := .locking } } else s
  else s

/-- The claim of a term by a source is accepted (R597). -/
def Domn.accepts (d : Domn) (term src : Nat) : Bool :=
  !d.rootHeld || (term = d.heldTerm && src = d.heldRoot) || (term > d.heldTerm && !d.lease)

/-- A root that meets a greater term is deposed (R598). -/
def State.depose (s : State) : State := ((s.domSet .deposed).setBits (bNGL + 0x8150) 2).event 4

/-- A message of the domain is ignored and counted (R593, R595). -/
def State.domIgnore (s : State) : State := s.bump (fabCtr 6) 1

/-! ### Tokens (R591 to R593) -/

/-- R591: the next token, once every endpoint has sent STEP_DONE for the current one. -/
def execStepTokenIssue (s : State) : Host.Outcome State Fault Refusal :=
  let d := s.ngl.dom
  if d.state = .root && (List.range s.epCount).all (fun i => d.doneEps.contains i) then
    let (e, n) := d.cur
    .next (s.issueToken (if n + 1 = s.cf (rDom 6) 63 32 then ((e + 1) % 2 ^ 16, 0) else (e, n + 1)))
  else .next s

/-- R593: a token of the held root that exceeds the current one is taken and renews the lease. -/
def execStepToken (s : State) : Host.Outcome State Fault Refusal :=
  match s.inMsg 2 0 with
  | none => .next s
  | some m =>
    let s := s.popMsg m
    let f (a n : Nat) : Nat := leNat ((m.body.drop a).take n)
    let t := (f 2 2, f 8 8)
    let d := s.ngl.dom
    let newer := match d.token with | none => true | some c => stepLt c t
    if d.state = .isIn && !m.srcEp && d.rootHeld && m.src = d.heldRoot && newer then
      .next ((s.setDomn { d with token := some t, tokenT := f 0x10 8, deadline := f 0x18 8, lease := true }).bump (fabCtr 2) 1)
    else .next s.domIgnore

/-- R591: an endpoint of the table is done with the current step. -/
def execStepDone (s : State) : Host.Outcome State Fault Refusal :=
  match s.inMsg 8 0x100 with
  | none => .next s
  | some m =>
    let s := s.popMsg m
    let d := s.ngl.dom
    if d.state = .root && m.srcEp && d.token = some (m.fld 2 2, m.fld 8 8) then
      let mine := (List.range s.epCount).filter (fun i => s.domEp i = m.src)
      .next (s.setDomn { d with doneEps := (d.doneEps ++ mine).eraseDups })
    else .next s

/-- R591: the step's deadline passes while STEP_DONE is missing from some endpoint. -/
def execStepDeadline (s : State) : Host.Outcome State Fault Refusal :=
  let d := s.ngl.dom
  match (List.range s.epCount).find? (fun i => !d.doneEps.contains i) with
  | none => .next s
  | some i =>
    if d.state = .root && !d.late then .next ((s.setDomn { d with late := true, lateEp := i }).err (fabCtr 3))
    else .next s

/-! ### Beats and leases (R595, R598) -/

/-- The beat a root sends now (R610). -/
def State.beatMsg (s : State) (toEp : Bool) (dst : Nat) : Msg :=
  ctrlMsg toEp dst 0x101 (s.rootBody s.domTerm s.ngl.dom.cur ++ leBytes 8 s.ns)

/-- R595: the root's beat to every other member. -/
def execRootBeatSend (s : State) : Host.Outcome State Fault Refusal :=
  if s.ngl.dom.state = .root then .next (s.domSendAll (s.beatMsg false) s.others) else .next s

/-- R595, R598, R601, R604: a beat renews the lease, deposes a root of a lesser term, or lets a joiner in. -/
def execRootBeat (s : State) : Host.Outcome State Fault Refusal :=
  match s.inMsg 8 0x101 with
  | none => .next s
  | some m =>
    let s := s.popMsg m
    let d := s.ngl.dom
    let term := m.fld 2 2
    if d.state = .root then .next (if term > s.domTerm then s.depose else s.domIgnore)
    else if d.state = .out || m.srcEp then .next s.domIgnore
    else if d.state = .joining && d.accepts term m.src then .next ((s.holdRoot term m.src).beatSync (m.fld 16 8))
    else if d.state ≠ .joining && d.rootHeld && m.src = d.heldRoot then
      .next ((s.setDomn { d with lease := true }).beatSync (m.fld 16 8))
    else .next s.domIgnore

/-- R595: the lease on the root ends. -/
def execLeaseExpiry (s : State) : Host.Outcome State Fault Refusal :=
  let d := s.ngl.dom
  if d.lease then
    .next ((((s.setDomn { d with lease := false }).setBits (bNGL + 0x8150) 1).event 4).faultC0 0x16 uDomain)
  else .next s

/-! ### Claims (R596 to R598) -/

/-- More than half of the members, this one included, have acknowledged. -/
def State.quorum (s : State) : Bool := 2 * (s.ngl.dom.acks.length + 1) > s.cf (rDom 1) 63 52

/-- R596: the claim goes out once no lease is held, then again to those that have not acknowledged. -/
def execClaimSend (s : State) : Host.Outcome State Fault Refusal :=
  let d := s.ngl.dom
  let msg (toEp : Bool) (x : Nat) : Msg := ctrlMsg toEp x 0x102 (s.rootBody s.domTerm d.cur)
  let rest := s.others.filter (fun x => !d.acks.contains x)
  if d.state = .claiming && !d.lease then
    if d.claimed then .next (s.domSendAll (msg false) rest)
    else
      let s := (s.domSendAll (msg false) rest).domSendAll (msg true) ((List.range s.epCount).map s.domEp)
      let s := (s.setDomn { s.ngl.dom with claimed := true }).bump (fabCtr 4) 1
      .next (s.whenB s.quorum State.enterRoot)
  else if d.state = .root then .next (s.domSendAll (msg false) rest)
  else .next s

/-- R597, R598: a claim is acknowledged or refused; a root that meets a greater term is deposed and refuses it. -/
def execRootClaim (s : State) : Host.Outcome State Fault Refusal :=
  match s.inMsg 8 0x102 with
  | none => .next s
  | some m =>
    let s := s.popMsg m
    let d := s.ngl.dom
    let term := m.fld 2 2
    let nack (s : State) (h q : Nat) : State :=
      s.domSend (ctrlMsg m.srcEp m.src 0x104 (leBytes 2 s.domNum ++ leBytes 2 h ++ leBytes 2 q ++ leBytes 2 0))
    if s.domRole = 0 then .next s
    else if d.state = .root then
      .next (nack (if term > s.domTerm then s.depose else s) s.domTerm s.devId)
    else if d.state = .deposed then .next (nack s s.domTerm d.heldRoot)
    else if d.accepts term m.src then
      let s := s.holdRoot term m.src
      .next (s.domSend (ctrlMsg m.srcEp m.src 0x103 (s.rootBody term s.ngl.dom.cur)))
    else .next (nack s d.heldTerm d.heldRoot)

/-- R596: an acknowledgement of the device's term counts, with the step it carries; a quorum makes the claimant ROOT. -/
def execRootAck (s : State) : Host.Outcome State Fault Refusal :=
  match s.inMsg 8 0x103 with
  | none => .next s
  | some m =>
    let s := s.popMsg m
    let d := s.ngl.dom
    let t := (m.fld 4 2, m.fld 8 8)
    if m.fld 2 2 = s.domTerm && s.others.contains m.src && !m.srcEp && (d.state = .claiming && d.claimed || d.state = .root) then
      let best := if t = (0, 0) then d.best else match d.best with
        | none => some t
        | some b => if stepLt b t then some t else some b
      let s := s.setDomn { d with acks := if d.acks.contains m.src then d.acks else d.acks ++ [m.src], best := best }
      .next (s.whenB (d.state = .claiming && s.quorum) State.enterRoot)
    else .next s

/-- R596: the first refusal deposes a claimant. -/
def execRootNack (s : State) : Host.Outcome State Fault Refusal :=
  match s.inMsg 8 0x104 with
  | none => .next s
  | some m =>
    let s := s.popMsg m
    if s.ngl.dom.state = .claiming then .next (s.domSet .deposed) else .next s

/-! ### Joining, leaving and member status (R600 to R602) -/

/-- R601: a JOINING device asks every other device. -/
def execJoinSend (s : State) : Host.Outcome State Fault Refusal :=
  if s.ngl.dom.state = .joining then
    .next (s.domSendAll (fun x => ctrlMsg false x 0x105 (leBytes 2 s.domNum ++ leBytes 2 s.ngl.dom.heldTerm ++ leBytes 4 0)) s.others)
  else .next s

/-- R601: the root answers with a beat and its current token; every other device ignores a JOIN. -/
def execJoin (s : State) : Host.Outcome State Fault Refusal :=
  match s.inMsg 8 0x105 with
  | none => .next s
  | some m =>
    let s := s.popMsg m
    if s.ngl.dom.state = .root then
      let s := s.setDomn { s.ngl.dom with left := s.ngl.dom.left.filter (fun x => decide (x ≠ m.src)) }
      .next ((s.domSend (s.beatMsg m.srcEp m.src)).domSend (s.tokenMsg m.srcEp m.src))
    else .next s

/-- R602: the sender has left the domain; a lease on it runs out by itself. -/
def execLeave (s : State) : Host.Outcome State Fault Refusal :=
  match s.inMsg 8 0x106 with
  | none => .next s
  | some m =>
    let s := s.popMsg m
    .next (s.setDomn { s.ngl.dom with left := (s.ngl.dom.left ++ [m.src]).eraseDups })

/-- One record of a member's status: a pipeline, its epoch and its lowest undelivered batch (R600). -/
def State.statRec (s : State) (p : Nat) : List Byte :=
  let id := s.lowestUndelivered p
  leBytes 1 p ++ leBytes 1 1 ++ leBytes 2 (fld id 63 48) ++ leBytes 4 0 ++ leBytes 8 (fld id 39 0)

/-- R600: the status of up to 8 enabled pipelines. No table names the spares, so every other member is told. -/
def execMemberStatSend (s : State) : Host.Outcome State Fault Refusal :=
  let d := s.ngl.dom
  if d.state = .isIn || d.state = .root then
    let rs := (s.pipesOn.take 8).map s.statRec
    .next (s.domSendAll (fun x => ctrlMsg false x 0x107 (leBytes 2 s.domNum ++ leBytes 2 rs.length ++ leBytes 4 0 ++ rs.flatten)) s.others)
  else .next s

/-- R600: a root or a spare replaces the sender's entry of its member-status table. -/
def execMemberStat (s : State) : Host.Outcome State Fault Refusal :=
  match s.inMsg 8 0x107 with
  | none => .next s
  | some m =>
    let s := s.popMsg m
    let n := min 8 (m.fld 2 2)
    let recs := ((m.body.drop 16).take (16 * n) ++ List.replicate 128 0).take 128
    match s.memberTbl.find? (fun e => e.2 = m.src) with
    | none => .next s
    | some (i, _) =>
      let a := put (s.cf (rDom 7) 43 7) 7 37 + 128 * i
      if (s.ngl.dom.state = .root || s.domRole = 3) && !m.srcEp && s.reachable a then .next (s.store a recs) else .next s

/-! ### Table pulls (R606, R608) -/

def State.pull (s : State) (n : Nat) : Pull := tget {} s.ngl.dom.pull n
def State.setPull (s : State) (n : Nat) (x : Pull) : State := s.setDomn { s.ngl.dom with pull := tset {} s.ngl.dom.pull n x }

/-- R608: the go bit of pull n; a pull of no rows is done at once. -/
def execNglFabPullGo (p : Path) (n : Nat) (s : State) : Host.Outcome State Fault Refusal :=
  let a := bNGL + 0xB000 + 0x20 * n
  if n < 8 && s.wgate p (a + 0x18) && (s.pull n).state ≠ .busy then
    let x := s.reg a
    let y := s.reg (a + 8)
    let q : Pull := { state := if wfld y 31 0 = 0 then .done else .busy
                      dev := wfld x 58 48, table := wfld x 43 32, version := wfld x 31 0
                      first := wfld y 63 32, count := wfld y 31 0, dest := wfld (s.reg (a + 16)) 43 0 }
    let s := s.setPull n q
    .next (if q.count = 0 then s else s.domSend (pullMsg q.dev q.table q.version q.first q.count))
  else .next s

/-- What a home answers to a pull: the rows' stored bytes, or the reason it refuses. -/
def State.pullRows (s : State) (d : TblDesc) (known : Bool) (table version first count : Nat) : Except Nat (List (List Byte)) :=
  match s.heldBase table version with
  | none => .error 1
  | some base =>
    if !known then .error 1
    else if first + count > d.rowCount then .error 2
    else (span first count).mapM (fun i => match s.tblHome d i with
      | .error _ => .error 1
      | .ok (h, slot) =>
        let a := d.rowAddr base i slot
        if h ≠ s.devId || (s.accErr 0 (a : Nat) d.rowStride).isSome then .error 1
        else if s.mem.anyPoison a d.rowStride || s.remapped table version i then .error 3
        else .ok (s.mem.rds a d.rowStride))

/-- A TABLE_CHUNK (R576). -/
def chunkMsg (dst : Nat) (toEp : Bool) (table version first stride number : Nat) (rows : List (List Byte)) : Msg :=
  { dst := dst, toEp := toEp, type := 6
    payload := leBytes 2 table ++ leBytes 2 0 ++ leBytes 4 version ++ leBytes 4 first ++ leBytes 4 rows.length ++
      leBytes 4 stride ++ leBytes 4 number ++ rows.flatten }

/-- R608: a pull is served in chunks of ascending rows, or refused. -/
def execTablePull (s : State) : Host.Outcome State Fault Refusal :=
  match s.inMsg 8 0x108 with
  | none => .next s
  | some m =>
    let s := s.popMsg m
    let table := m.fld 0 2 % 4096
    let version := m.fld 4 4
    let first := m.fld 8 4
    let b := match s.issueRead (s.tblDescAddr s.gen table) with | .ok b => b | .error _ => []
    let d := TblDesc.ofBytes b
    let known := table < s.cf (bGTH + 0x10) 56 44 && b.length = 64 && !tblBad b
    match s.pullRows d known table version first (m.fld 12 4) with
    | .error r =>
      .next (s.domSend (ctrlMsg m.srcEp m.src 0x109
        (leBytes 2 table ++ leBytes 1 r ++ leBytes 1 0 ++ leBytes 4 version ++ leBytes 4 first ++ leBytes 4 0)))
    | .ok rows =>
      let k := max 1 (65536 / max 1 d.rowStride)
      let cs := chunks k (rows.length + 1) rows
      .next (((List.range cs.length).foldl (fun s i =>
        s.domSend (chunkMsg m.src m.srcEp table version (first + k * i) d.rowStride i (cs.getD i []))) s).bump (fabCtr 8) 1)

/-- The busy pull that an answer belongs to: its device, table and version, and rows from `first`. -/
def State.pullFor (s : State) (m : RxMsg) (table version first count : Nat) : Option (Nat × Pull) :=
  ((List.range 8).map (fun n => (n, s.pull n))).find? (fun (_, q) =>
    q.state = .busy && !m.srcEp && q.dev = m.src && q.table = table && q.version = version &&
    q.first ≤ first && first + count ≤ q.first + q.count)

/-- R608: a chunk's rows are written at their places. Rows in memory that cannot be written are lost. -/
def execTableChunk (s : State) : Host.Outcome State Fault Refusal :=
  match s.inMsg 6 0 with
  | none => .next s
  | some m =>
    let s := (s.popMsg m).bump (fabCtr 7) 1
    let f (a n : Nat) : Nat := leNat ((m.body.drop a).take n)
    let first := f 8 4
    let count := f 12 4
    let stride := f 16 4
    match s.pullFor m (f 0 2) (f 4 4) first count with
    | none => .next s
    | some (n, q) =>
      let a := q.dest + (first - q.first) * stride
      let b := (m.body.drop 24).take (stride * count)
      let s := if (s.accErr 0 (a : Nat) b.length).isSome then s
        else if m.poison then { s with mem := s.mem.storeP a b true }.setLastUe 5 a (s.ownerOf a)
        else s.store a b
      .next (s.setPull n { q with rows := q.rows + count, state := if q.rows + count ≥ q.count then .done else .busy })

/-- R608: the other device refuses the pull. -/
def execTablePullNak (s : State) : Host.Outcome State Fault Refusal :=
  match s.inMsg 8 0x109 with
  | none => .next s
  | some m =>
    let s := s.popMsg m
    match s.pullFor m (m.fld 0 2) (m.fld 4 4) (m.fld 8 4) 0 with
    | none => .next s
    | some (n, q) => .next (s.setPull n { q with state := .failed, reason := m.fld 2 1 })

/-- R608: no chunk came for remote_us. -/
def execPullTimeout (n : Nat) (s : State) : Host.Outcome State Fault Refusal :=
  if n < 8 && (s.pull n).state = .busy then .next (s.setPull n { s.pull n with state := .failed, reason := 4 }) else .next s

end Sys2Proof.Machine
end

