-- ==== Sys2Proof/Machine/Hif.lean ====
section
/-! DEFINITION. The host interface: configuration space, resets, windows, host reads, the coherent cache, MSI-X and DOE
(chapter 26). -/

namespace Sys2Proof.Machine

/-! ### The link and its resets (R50, R614, R621) -/

/-- R50, R614, R622: training ends in L0 with a rate in GT/s, a width and the protocols negotiated. -/
def execPcieLinkUp (rate width : Nat) (flit cache mem : Bool) (s : State) : Host.Outcome State Fault Refusal :=
  if s.hif.training && s.domOn 1 && s.pins.perst && [16, 32, 64].contains rate && [4, 8, 16].contains width then
    .next { s with hif := { s.hif with
      training := false, linkUp := true, flit := flit, cxlCache := cache, cxlMem := mem, rate := rate, width := width } }
  else .next s

/-- R621: a hot reset; the link trains again. -/
def execHotReset (s : State) : Host.Outcome State Fault Refusal := if s.hif.linkUp then .next (s.hifReset true) else .next s

/-- R621: the link goes down and trains again. -/
def execLinkDown (s : State) : Host.Outcome State Fault Refusal := if s.hif.linkUp then .next (s.hifReset true) else .next s

/-- R621: a Function Level Reset keeps the link. -/
def execFunctionLevelReset (s : State) : Host.Outcome State Fault Refusal := if s.hif.linkUp then .next (s.hifReset false) else .next s

/-- R620: the function enters D3hot. -/
def execD3hotEntry (s : State) : Host.Outcome State Fault Refusal :=
  if s.hif.linkUp then .next { s with hif := { s.hif with d3hot := true } } else .next s

/-! ### MSI-X (R629) -/

/-- Messages that were pending are sent where vector and function are both unmasked, each once. -/
def State.msixFlush (s : State) : State :=
  if !s.hif.msixEn || !s.hif.bme || s.hif.d3hot || s.hif.msixMask || s.fencedU uHIF || !s.hif.linkUp || !s.domOn 1 then s
  else (tkeys id s.hif.pba).foldl (fun s v =>
    if wbit (s.reg (bHIF + 0x10008 + 16 * v)) 32 then s
    else { s with hif := { s.hif with pba := tset false s.hif.pba v false } }.emit (.msix v)) s

/-- R629: a vector is unmasked, or the function where none is named. -/
def execMsixVectorUnmask (v : Option (Fin 2048)) (s : State) : Host.Outcome State Fault Refusal :=
  match v with
  | some n => if s.hostBar then .next (s.clrBits (bHIF + 0x10008 + 16 * n.val) (2 ^ 32)).msixFlush else .next s
  | none => if s.hif.linkUp then .next { s with hif := { s.hif with msixMask := false } }.msixFlush else .next s

/-! ### Configuration space (R122, R614 to R616, R619, R620) -/

/-- Configuration Requests are answered with Retry Status (R122). -/
def State.configRetry (s : State) : Bool :=
  !(s.boot.state = .running || s.boot.state = .noImage || s.boot.crsEnd)

/-- What a configuration register reads. -/
def State.cfgRead (s : State) (r : CfgReg) : Nat :=
  let h := s.hif
  match r with
  | .ids => 0x53011DF7
  | .subsystem => 0x00011DF7
  | .classRev => 0x12000010
  | .command => putB h.mse 1 + putB h.bme 2
  | .bar i =>
    match i.val with
    | 0 => h.bar0 % 2 ^ 32 + 4
    | 1 => h.bar0 / 2 ^ 32
    | 2 => if h.bar2Log2 = 0 then 0 else h.bar2 % 2 ^ 32 + 12
    | 3 => if h.bar2Log2 = 0 then 0 else h.bar2 / 2 ^ 32
    | _ => 0
  | .pmcsr => (if h.d3hot then 3 else 0) + 8
  | .devControl => put (Nat.log2 (h.mps / 128)) 5 3 + put (Nat.log2 (h.mrrs / 128)) 12 3
  | .devControl2 => s.cf (bHIF + 0x18) 3 0
  | .msixControl => putB h.msixEn 31 + putB h.msixMask 30 + put 2047 16 11
  | .serialLo => Config.deviceId.toNat % 2 ^ 32
  | .serialHi => Config.deviceId.toNat / 2 ^ 32
  | .other o => Config.cfgSpace o

/-- What a configuration write does. The Completion Timeout Value ignores writes (R619). -/
def State.cfgWrite (s : State) (r : CfgReg) (v : Nat) : State :=
  let h := s.hif
  match r with
  | .command => { s with hif := { h with mse := bit v 1, bme := bit v 2 } }
  | .bar i =>
    let w (old : Nat) (hi : Bool) (log : Nat) : Nat :=
      (if hi then v % 2 ^ 32 * 2 ^ 32 + old % 2 ^ 32 else old / 2 ^ 32 * 2 ^ 32 + v % 2 ^ 32) / 2 ^ log * 2 ^ log
    match i.val with
    | 0 => { s with hif := { h with bar0 := w h.bar0 false 26 } }
    | 1 => { s with hif := { h with bar0 := w h.bar0 true 26 } }
    | 2 => if h.bar2Log2 = 0 then s else { s with hif := { h with bar2 := w h.bar2 false h.bar2Log2 } }
    | 3 => if h.bar2Log2 = 0 then s else { s with hif := { h with bar2 := w h.bar2 true h.bar2Log2 } }
    | _ => s
  | .pmcsr => if fld v 1 0 = 0 then { s with hif := { h with d3hot := false } }
    else if fld v 1 0 = 3 then { s with hif := { h with d3hot := true } } else s
  | .devControl =>
    if bit v 15 then s.hifReset false
    else { s with hif := { h with mps := min 512 (128 * 2 ^ fld v 7 5), mrrs := min 4096 (128 * 2 ^ fld v 14 12) } }
  | .msixControl => { s with hif := { h with msixEn := bit v 31, msixMask := bit v 30 } }.msixFlush
  | _ => s

/-- R122: a Configuration Request. -/
def execConfigRequest (write : Bool) (reg : CfgReg) (v : Nat) (s : State) : Host.Outcome State Fault Refusal :=
  if !s.hif.linkUp then .next s
  else if s.configRetry then .next (s.emit .retryStatus)
  else if write then .next ((s.cfgWrite reg v).emit (.config 0))
  else .next (s.emit (.config (s.cfgRead reg)))

/-! ### The window (R617, R623) -/

/-- Device address of an offset in the window. -/
def State.winAddr (s : State) (o : Nat) : Nat := put (s.cf (bHIF + 0x20) 43 28) 28 16 + o

/-- A host access of the window. -/
def State.winAccess (s : State) (write : Bool) (a : Nat) (data : List Byte) (n : Nat) (poison : Bool) : State :=
  if n = 0 || n > 64 || a / 64 ≠ (a + n - 1) / 64 then s.emit .abort
  else match region a with
    | some (.hbm d) =>
      if !s.dieReady d then (if write then s else s.emit .abort)
      else if write then { s with mem := s.mem.storeP a ((data ++ leBytes n 0).take n) poison }
      else
        let p := s.mem.poisoned a
        (s.countPoison (if p then 1 else 0)).emit (.window (s.mem.rds a n) p)
    | _ => if write then s else s.emit .abort

/-- R617, R620: a host access of 1 to 64 bytes at an offset of BAR2. -/
def execBar2Access (write : Bool) (off : Nat) (data : List Byte) (n : Nat) (poison : Bool) (s : State) : Host.Outcome State Fault Refusal :=
  if !s.domOn 1 || !s.hif.linkUp then .next s
  else if s.hif.d3hot || !s.hif.mse || s.hif.bar2Log2 = 0 || off ≥ 2 ^ s.hif.bar2Log2 then .next (s.emit .unsupported)
  else .next (s.winAccess write (s.winAddr off) data n poison)

/-- R623: a CXL.mem request inside the committed decoder's range. -/
def execCxlMemRequest (write : Bool) (h : Nat) (data : List Byte) (n : Nat) (poison : Bool) (s : State) : Host.Outcome State Fault Refusal :=
  if s.domOn 1 && s.hif.linkUp && s.hif.cxlMem && s.hif.hdmCommitted && s.hif.hdmBase ≤ h && h < s.hif.hdmBase + s.hif.hdmSize then
    .next (s.winAccess write (s.winAddr (h - s.hif.hdmBase)) data n poison)
  else .next s

/-! ### Host reads (R618, R619) -/

def State.setRead (s : State) (tag : Nat) (x : Option HostRead) : State :=
  { s with hif := { s.hif with reads := tset none s.hif.reads tag x } }

/-- A host read ends with a status: so does the record or the command it serves. -/
def State.readFail (s : State) (h : HostRead) (st : Nat) : State :=
  match h.task, h.record with
  | some t, some i => (match s.recOf t i with | some r => (s.ingFail t [(i, st)]).keyRetry r.inst | none => s)
  | some t, none => (s.modTask t (fun x => x.endWith st 0)).dropStreamsOf t
  | none, _ => s

/-- R619: a completion for a host read. -/
def execHostReadCompletion (tag : Nat) (st : CplStatus) (data : List Byte) (s : State) : Host.Outcome State Fault Refusal :=
  if !s.hif.linkUp then .next s
  else match tget none s.hif.reads tag with
    | none =>
      let s := { s with hif := { s.hif with quarantine := s.hif.quarantine.filter (fun t => decide (t ≠ tag)) } }
      .next (s.bump (bHIF + 0x1018) 1)
    | some h =>
      let s := s.setRead tag none
      match st with
      | .ok =>
        let b := (data ++ leBytes h.len 0).take h.len
        .next ({ s with host := (List.range b.length).foldl (fun l i => tins l (h.addr + i) (b.getD i 0)) s.host }.bump (bHIF + 0x1000) h.len)
      | .refused => .next (s.readFail h stADDR_RANGE)
      | .poisoned => .next ((s.err (bHIF + 0x1020)).readFail h stPOISON)

/-- R619: no completion within the range of HIF_CPL_TIMEOUT. -/
def execCompletionTimeout (tag : Nat) (s : State) : Host.Outcome State Fault Refusal :=
  match tget none s.hif.reads tag with
  | none => .next s
  | some h =>
    let s := s.setRead tag none
    let s := { s with hif := { s.hif with quarantine := s.hif.quarantine ++ [tag] } }
    .next ((s.err (bHIF + 0x1010)).readFail h stTIMEOUT)

/-- R619: a further full timeout passes without the completion. -/
def execTagQuarantineEnd (tag : Nat) (s : State) : Host.Outcome State Fault Refusal :=
  .next { s with hif := { s.hif with quarantine := s.hif.quarantine.filter (fun t => decide (t ≠ tag)) } }

/-! ### The coherent cache (R625 to R628) -/

/-- A snoop of the host: 0 SnpData, 1 SnpInv, 2 SnpCur. -/
def State.snoop (s : State) (kind l : Nat) : State :=
  if !s.hif.cxlCache || !s.hif.linkUp || !s.domOn 1 then s
  else
    let s := s.bump (bHIF + 0x1038) 1
    match s.hif.evict.find? (fun e => e.line = l && !e.forwarded) with
    | some e =>
      let s := { s with hif := { s.hif with evict := s.hif.evict.map (fun (x : CcEvict) => if x.line = l then { x with forwarded := true } else x) } }
      (s.bump (bHIF + 0x1040) 1).emit (.cxl "RspIFwdM" l e.data)
    | none =>
      match tget none s.hif.ccPend l with
      | some p =>
        let s := { s with hif := { s.hif with ccPend := tset none s.hif.ccPend l (some { p with snooped := true }) } }
        s.emit (.cxl "RspIHitI" l [])
      | none =>
        match s.ccLine l with
        | none => s.emit (.cxl "RspIHitI" l [])
        | some x =>
          let dirty := x.st = .modified
          match kind with
          | 0 => (s.setCc l (some { x with st := .shared })).emit
              (if dirty then .cxl "RspSFwdM" l x.data else .cxl "RspSHitSE" l [])
          | 1 => (s.setCc l none).emit (if dirty then .cxl "RspIFwdM" l x.data else .cxl "RspIHitSE" l [])
          | _ => s.emit (if dirty then .cxl "RspVFwdV" l x.data else .cxl "RspVHitV" l [])

def execSnpdata (l : Nat) (s : State) : Host.Outcome State Fault Refusal := .next (s.snoop 0 l)
def execSnpinv (l : Nat) (s : State) : Host.Outcome State Fault Refusal := .next (s.snoop 1 l)
def execSnpcur (l : Nat) (s : State) : Host.Outcome State Fault Refusal := .next (s.snoop 2 l)

/-- R626, R625: the GO of a RdShared or RdOwn with the line's data. A line without room waits for an eviction (R627). -/
def execCxlGo (l : Nat) (excl : Bool) (data : List Byte) (s : State) : Host.Outcome State Fault Refusal :=
  match tget none s.hif.ccPend l with
  | none => .next s
  | some p =>
    let d := p.merge.foldl (fun b m => mergeLine b m.1 m.2) ((data ++ leBytes 64 0).take 64)
    let st : CcState := if !p.merge.isEmpty then .modified else if p.own || excl then .exclusive else .shared
    let clear (s : State) : State :=
      { s with
        host := (List.range 64).foldl (fun h i => tins h (64 * l + i) (d.getD i 0)) s.host
        hif := { s.hif with ccPend := tset none s.hif.ccPend l none } }
    if p.snooped then .next (p.merge.foldl (fun s m => s.hostPost (64 * l + m.1) m.2) (clear s))
    else match s.ccInstall l { st := st, data := d } with
      | none => .next s
      | some s => .next (clear s)

/-- The entry of a line leaves the eviction buffer. -/
def State.evictFree (s : State) (l : Nat) : State :=
  { s with hif := { s.hif with evict := s.hif.evict.filter (fun e => decide (e.line ≠ l)) } }

/-- R627: the host pulls the data of an evicted line. -/
def execGoWritepull (l : Nat) (s : State) : Host.Outcome State Fault Refusal :=
  match s.hif.evict.find? (fun e => e.line = l) with
  | none => .next s
  | some e => .next ((s.evictFree l).emit (if e.forwarded then .cxl "Bogus" l [] else .cxl "WritePullData" l e.data))

/-- R627: the host needs no data of an evicted line. -/
def execGoWritepullDrop (l : Nat) (s : State) : Host.Outcome State Fault Refusal := .next (s.evictFree l)

/-- R628: a write of 1 to HIF_CC_FLUSH. -/
def State.ccFlush (s : State) : State := { s with hif := { s.hif with flushing := true } }

def execHifCcFlush (p : Path) (s : State) : Host.Outcome State Fault Refusal :=
  if s.wgate p (bHIF + 0x200) then .next s.ccFlush else .next s

/-- R628: every Modified line has been written back and every line invalidated. -/
def execCcFlushDone (s : State) : Host.Outcome State Fault Refusal :=
  if !s.hif.flushing then .next s
  else
    let s := s.hif.cc.foldl (fun s e => match e.2 with
      | some x => if x.st = .modified then s.emit (.cxl "DirtyEvict" e.1 x.data) else s.emit (.cxl "CleanEvictNoData" e.1 [])
      | none => s) s
    .next { s with hif := { s.hif with cc := [], flushing := false } }

/-! ### DOE and attestation (R180, R578, R632) -/

/-- The answer of DOE Discovery: the protocol at an index, and the next index (0 after the last). -/
def doeDiscovery (req : List Byte) : List Byte :=
  let i := leNat (req.take 1)
  if i = 0 then leBytes 2 1 ++ leBytes 1 0 ++ leBytes 1 1
  else if i = 1 then leBytes 2 1 ++ leBytes 1 1 ++ leBytes 1 0
  else leBytes 2 0xFFFF ++ leBytes 2 0

/-- R632: an object of up to 4,096 bytes. -/
def execDoeObject (proto : DoeProto) (data : List Byte) (s : State) : Host.Outcome State Fault Refusal :=
  if !s.hif.linkUp || s.configRetry then .next s
  else match proto with
    | .discovery => .next (s.emit (.doe (doeDiscovery data)))
    | .spdm => if data.length ≤ 4096 then .next { s with hif := { s.hif with doe := some data } } else .next (s.emit (.doe []))
    | .other => .next (s.emit (.doe []))

/-- R632: the object in progress is discarded, and any answer being formed. -/
def execDoeAbort (s : State) : Host.Outcome State Fault Refusal := .next { s with hif := { s.hif with doe := none } }

/-- R180, R578, R632: the Vault answers the SPDM request of the DOE object, or of the oldest SPDM message. -/
def execSpdmRequest (doe : Bool) (s : State) : Host.Outcome State Fault Refusal :=
  if doe then
    match s.hif.doe with
    | none => .next s
    | some req =>
      let a := s.spdm req
      .next ({ s with hif := { s.hif with doe := none }, vlt := { s.vlt with spdm := s.spdmNext req } }.emit (.doe a))
  else
    match s.inMsg 8 2 with
    | none => .next s
    | some m =>
      let req := (m.body.drop 16).take (m.fld 0 4)
      let a := s.spdm req
      let s := s.popMsg m
      .next ({ s with vlt := { s.vlt with spdm := s.spdmNext req } }.gateMsg (uPort m.port)
        (ctrlMsg m.srcEp m.src 2 (leBytes 4 a.length ++ leBytes 4 0 ++ a)))

end Sys2Proof.Machine
end

