-- ==== Sys2Proof/Machine/Pwr.lean ====
section
/-! DEFINITION. Power domains, rails, sleep, the real-time clock, thermal control and the power cap (chapter 4). -/

namespace Sys2Proof.Machine

/-! ### Domains (R82 to R86) -/

/-- A write to PWR_DOM_REQ_d.on (R82, R83, R84, R86, R208). -/
def State.domReqWrite (s : State) (host : Bool) (d : Nat) (on : Bool) : State :=
  let x := s.dom d
  let s := s.setDomReq d on
  match x.state, on with
  | .on, true => s.domTo d { x with scan := false }
  | .on, false => s.offRequest host d
  | .draining, true => s.domTo d { x with state := .on }
  | .draining, false => s
  | .off, true => s.domTo d { x with waiting := true }
  | .off, false => s.domTo d { x with waiting := false }
  | .powering, _ => s

/-- R82, R86: a write to a domain's on bit. -/
def execPwrDomReq (p : Path) (d : Nat) (on : Bool) (s : State) : Host.Outcome State Fault Refusal :=
  if 1 ≤ d && d ≤ 14 && s.wgate p (rDomReq d) then .next ((s.domReqWrite (p = .host) d on).pakSync).bistSync else .next s

/-- R82: the lowest waiting domain enters POWERING once no other is powering and its own power-off has ended. -/
def execDomainPoweringStart (d : Nat) (s : State) : Host.Outcome State Fault Refusal :=
  let x := s.dom d
  let other := (span 1 14).any (fun e => (s.dom e).state = .powering)
  let lower := (span 1 (d - 1)).any (fun e => (s.dom e).waiting && !(s.dom e).fallingOff)
  if s.bootRuns && x.waiting && !x.fallingOff && !other && !lower then
    .next (s.domTo d { x with state := .powering, waiting := false })
  else .next s

/-- R82, R86: the domain reaches ON; if its on bit was written 0 meanwhile, the off request is handled now. -/
def execDomainPowerOnDone (d : Nat) (s : State) : Host.Outcome State Fault Refusal :=
  let x := s.dom d
  if x.state = .powering then
    let s := ((s.domTo d { x with state := .on, waiting := false }).domGain d).whenB (d = 3) State.senGain
    .next (if s.domReq d then s else s.offRequest false d).pakSync.bistSync.retryWaiting
  else .next s

/-- A domain leaves DRAINING or ON for OFF: its contents go, its clamps and switches are still moving (R82). -/
def State.domToOff (s : State) (d : Nat) : State :=
  (s.domLose d).domTo d { state := .off, fallingOff := true, lastOff := .completed }

/-- R83: every started command of the draining domain has completed. -/
def execDomainDrainDone (d : Nat) (s : State) : Host.Outcome State Fault Refusal :=
  let busy := (domBays d).any (fun n => (s.tasksOn n).any (fun t => match s.task t with
    | some x => x.started && !x.finished
    | none => false))
  if (s.dom d).state = .draining && !busy then .next (s.domToOff d).pakSync.bistSync else .next s

/-- R83: the drain limit passes with started commands left. -/
def execDrainLimitExpiry (d : Nat) (s : State) : Host.Outcome State Fault Refusal :=
  let x := s.dom d
  if x.state = .draining then .next ((s.domTo d { x with state := .on, lastOff := .deferred }).setDomReq d true)
  else .next s

/-- R82: clamps closed, clocks stopped, switches open. -/
def execDomainPowerOffDone (d : Nat) (s : State) : Host.Outcome State Fault Refusal :=
  .next (s.domTo d { s.dom d with fallingOff := false })

/-- R84, R208: the region-map scan of P6 or P7 ends. -/
def execDomainOffScanDone (d : Nat) (s : State) : Host.Outcome State Fault Refusal :=
  let x := s.dom d
  if x.scan && x.state = .on then
    if s.dieOwned (d - 6) || s.holdsHalted d then .next (s.refuseOff d) else .next (s.beginDrain d)
  else .next s

/-! ### Rails, sleep and wake (R87 to R93) -/
def rWakeStat : Nat := bAON + 0x110

/-- Almanac wakes the main rail (R92). -/
def State.wake (s : State) : State :=
  { s with aon := { s.aon with asleep := false }, pins := { s.pins with mainPwrEn := true } }

/-- R88, R157, R181: the standby rail comes into range with no earlier state; the Vault runs its self-tests. -/
def execStandbyRailUp (vaultOk : Bool) (s : State) : Host.Outcome State Fault Refusal :=
  if s.pins.sby then .next s
  else .next { s with
    pins := { s.pins with sby := true, mainPwrEn := true }
    vlt := { s.vlt with state := if vaultOk then .ready else .error, seeded := vaultOk } }

/-- R697: the VDD_SBY tamper detector is armed. -/
def execSbyDetectorArm (s : State) : Host.Outcome State Fault Refusal :=
  if s.pins.sby then .next { s with aon := { s.aon with sbyArmed := true } } else .next s

/-- R94, R157, R318: the standby rail is lost, and the main rail with it (R87). Fuses and flash stay. -/
def execStandbyRailLoss (s : State) : Host.Outcome State Fault Refusal :=
  let s := s.coldReset
  .next { s with
    pins := { porst := false, mainPg := false, mainPwrEn := false, sby := false }
    aon := {}
    dbg := {}
    vlt := { fuses := s.vlt.fuses }
    stg := {}
    ldg := { retValid := false }
    regs := [] }

/-- R88: MAIN_PG has not risen in time; Sparrato stays in sleep until a wake source fires. -/
def execMainPgTimeout (s : State) : Host.Outcome State Fault Refusal :=
  if s.pins.sby && s.pins.mainPwrEn && !s.pins.mainPg then
    .next ({ s with
      pins := { s.pins with mainPwrEn := false }
      aon := { s.aon with asleep := true } }.setBits rWakeStat (2 ^ 9))
  else .next s

/-- R89: MAIN_PG falls; without a sleep request all main-rail state is lost. -/
def execMainPgFall (s : State) : Host.Outcome State Fault Refusal :=
  if !s.pins.mainPg then .next s
  else
    let s := if s.pins.mainPwrEn then s.coldReset else s
    .next { s with pins := { s.pins with mainPg := false }, dbg := {} }

/-- R89, R92: MAIN_PG rises after a loss or a wake: a cold start with the straps as sampled. -/
def execMainPgRise (s : State) : Host.Outcome State Fault Refusal :=
  if s.pins.sby && s.pins.mainPwrEn && !s.pins.mainPg then
    let s := { s with pins := { s.pins with mainPg := true } }
    .next (if s.pins.porst && s.pins.straps.isSome then s.coldStart else s)
  else .next s

/-- R90: sleep entry, steps 1 to 3: the journal is flushed, commands are abandoned, domains switch off in descending
order without a drain. -/
def State.sleepBegin (s : State) : State :=
  let s := (s.startFlush .sleep).ldgReset
  let s := { s with
    ldg := { s.ldg with stopped := true, flush := some .sleep }
    pwr := { s.pwr with sleepEntry := true }
    aon := { s.aon with firedSince := 0 }
    que := {}, str := {}, pak := {} }
  let s := s.clearRegs (bGLB + 0x80000) (bGLB + 0xC0000)
  (span 1 14).reverse.foldl (fun s d => if (s.dom d).state = .off then s.domTo d { s.dom d with waiting := false } else
    (s.domLose d).domTo d { fallingOff := true, lastOff := (s.dom d).lastOff }) s

/-- R90: a write to AON_SLEEP.req. -/
def execAonSleep (p : Path) (s : State) : Host.Outcome State Fault Refusal :=
  if s.wgate p (bAON + 0x120) && !s.pwr.sleepEntry then .next s.sleepBegin else .next s

/-- R90, R93: sleep entry ends, once the flush is done and the flash idle: a wake source that has fired restarts the
part at once, otherwise the main rail goes. -/
def execSleepEntryComplete (s : State) : Host.Outcome State Fault Refusal :=
  if s.pwr.sleepEntry && s.ldg.flush.isNone && s.boot.flBusy.isNone then
    let wake := s.aon.firedSince &&& wfld s.aon.wakeCfg 7 0 ≠ 0
    let s := s.coldReset
    if wake then .next s.coldStart
    else .next { s with pins := { s.pins with mainPwrEn := false }, aon := { s.aon with asleep := true }, dbg := {} }
  else .next s

/-- R131: a flash command still busy at the limit of sleep entry is aborted. -/
def execFlashAbortAtSleep (s : State) : Host.Outcome State Fault Refusal :=
  if s.pwr.sleepEntry && s.boot.flBusy.isSome then .next (s.flashAbort.setBits rWakeStat (2 ^ 11)) else .next s

/-- R91 to R93: a comparator fires: its cause bit is set, and an enabled one wakes Sparrato. The timestamp inputs are
wake inputs only while P3 is off (R51). -/
def execWakeComparatorFire (b : WakeBit) (s : State) : Host.Outcome State Fault Refusal :=
  if !s.pins.sby || (5 ≤ b.val && s.powered 3) then .next s
  else
    let s := s.setBits rWakeStat (2 ^ b.val)
    let s := s.whenB s.pwr.sleepEntry (fun s => { s with aon := { s.aon with firedSince := s.aon.firedSince ||| 2 ^ b.val } })
    .next (if wbit s.aon.wakeCfg b.val && s.aon.asleep && !s.pins.thermTrip then s.wake else s)

/-! ### The real-time clock (R94) -/

/-- R94, R16: a 64-bit write sets the clock; a 32-bit write is discarded. -/
def execAonRtcSet (p : Path) (size v : Nat) (s : State) : Host.Outcome State Fault Refusal :=
  if s.wgate p (bAON + 0x208) && size = 8 then
    .next { s with aon := { s.aon with rtc := v % 2 ^ 64, rtcValid := true, rtcAcc := 0 } }
  else .next s

/-- R94: the crystal has stopped for 1 ms. -/
def execRtcOscFail (s : State) : Host.Outcome State Fault Refusal :=
  if s.pins.sby then .next ({ s with aon := { s.aon with oscStopped := true } }.setBits (bAON + 0x210) 2) else .next s

/-! ### Power fail (R95 to R97) -/

/-- R96, R97: a trip flushes the journal once the Ledger runs, and is counted while the main-rail logic runs. -/
def execPfTrip (s : State) : Host.Outcome State Fault Refusal :=
  if !s.mainRunning || s.pwr.pfTripped then .next s
  else
    let s := { s with pwr := { s.pwr with pfTripped := true } }.bump (bPWR + 0x40) 1
    .next (if s.ldg.initDone then { (s.startFlush .powerFail) with pwr := { s.pwr with pfFlush := true } } else s)

/-- R97: the comparator rearms. -/
def execPfRearm (s : State) : Host.Outcome State Fault Refusal :=
  .next { s with pwr := { s.pwr with pfTripped := false } }

/-- R96, R317: the flush completes; admission goes on unless the flush's cause stops it. -/
def execJournalFlushDone (s : State) : Host.Outcome State Fault Refusal :=
  if s.ldg.flush.isNone then .next s
  else
    let s := s.whenB s.pwr.pfFlush (·.setBits rWakeStat (2 ^ 8))
    .next { s with ldg := { s.ldg with flush := none }, pwr := { s.pwr with pfFlush := false } }

/-! ### Thermal control and the power cap (R98 to R101) -/

/-- DVFS islands that a die carries (R38, R98). -/
def dieIslands (die : Nat) : List Nat := (List.range 26).filter (fun i => islandKind i = .dvfs && islandDie i = die)

/-- The lowest f_min_code of the DVFS islands of a die: no island of the die follows a ceiling below it. -/
def State.dieFloor (s : State) (die : Nat) : Nat := ((dieIslands die).map s.fMin).foldl min 80

/-- Set a compute die's thermal ceiling, and bring its islands under it. -/
def State.setThermCeil (s : State) (die c : Nat) : State :=
  let s := { s with pwr := if die = 0 then { s.pwr with cd0Ceil := c } else { s.pwr with cd1Ceil := c } }
  (dieIslands die).foldl (fun s i => s.retarget i (s.isl i).target) s

/-- The thermal decision of one die (R98): its ceiling, and whether it fell. -/
def State.thermStep (s : State) (die : Nat) (t : Int) (c : Nat) : State × Bool :=
  let thr : Int := s.cf (bPWR + 0x10) 15 8
  let hyst : Int := s.cf (bPWR + 0x10) 7 0
  if t ≥ thr then (s.setThermCeil die (max (s.dieFloor die) (c - 2)), decide (s.dieFloor die < c))
  else if t < thr - hyst then (s.setThermCeil die (min 80 (c + 1)), false)
  else (s, false)

/-- R98: the 100 µs decision. With built-in trims 8 °C is added to what the limits see (R126). Nothing is decided before
a configuration gives the thresholds. -/
def execThermalTick (cd0 cd1 iod : Int) (s : State) : Host.Outcome State Fault Refusal :=
  let s := { s with pwr := { s.pwr with cd0Temp := cd0, cd1Temp := cd1, iodTemp := iod } }
  if s.cfg (bPWR + 0x10) = 0 then .next s
  else
    let add : Int := if s.boot.cal = 1 then 0 else 8
    let (s, a) := s.thermStep 0 (cd0 + add) s.pwr.cd0Ceil
    let (s, b) := s.thermStep 1 (cd1 + add) s.pwr.cd1Ceil
    .next (s.whenB (a || b) (·.bump (bPWR + 0x48) 1))

/-- R99: a sensor reaches 105 °C. -/
def execThermalAlert (die : Fin 3) (s : State) : Host.Outcome State Fault Refusal :=
  if !s.mainRunning then .next s
  else
    let s := if die.val < 2 then s.setThermCeil die.val (s.dieFloor die.val) else s
    .next ({ s with pins := { s.pins with alertTherm := true } }.faultC0 0x10 (uThermal die.val))

/-- R99: every sensor has been cool for 1 ms. -/
def execThermalAlertRelease (s : State) : Host.Outcome State Fault Refusal :=
  .next { s with pins := { s.pins with alertTherm := false } }

/-- R100: a sensor at 115 °C for 10 µs: C3, THERMTRIP_N, the journal flush, and MAIN_PWR_EN goes low. -/
def execThermalTrip (die : Fin 3) (s : State) : Host.Outcome State Fault Refusal :=
  if !s.mainRunning then .next s
  else
    let s := (s.faultC3 0x11 (uThermal die.val)).coldReset
    .next ({ s with
      dbg := {}
      pins := { s.pins with thermTrip := true, mainPwrEn := false }
      aon := { s.aon with asleep := true } }.setBits rWakeStat (2 ^ 10))

/-- R100: THERMTRIP_N is released; with trip_restart the main rail comes back. -/
def execThermtripRelease (s : State) : Host.Outcome State Fault Refusal :=
  if s.pins.thermTrip then
    let s := { s with pins := { s.pins with thermTrip := false } }
    .next (if wbit s.aon.wakeDir 3 && s.aon.asleep then s.wake else s)
  else .next s

/-- One power-cap step of a DVFS island (R101). -/
def State.capStep (s : State) (fall : Bool) (i : Nat) : State :=
  let x := s.isl i
  let drop := if fall then min (x.capDrop + 2) (islandNominal i - s.fMin i) else x.capDrop - 1
  (s.setIsl i { x with capDrop := drop }).retarget i x.target

/-- R101: the power estimate, in 100 mW, for the device and for each domain, against the cap. -/
def execPowerCapTick (power : Nat) (dom : List Nat) (s : State) : Host.Outcome State Fault Refusal :=
  let s := { s with pwr := { s.pwr with devPower := power % 65536 } }
  let s := (span 1 14).foldl (fun s d => s.setDom d { s.dom d with power := dom.getD (d - 1) 0 % 65536 }) s
  let cap := s.cf (bPWR + 0x10) 47 32
  let all := (span 15 10)
  if cap = 0 then .next s
  else if power > 10 * cap then
    let floor := all.all (fun i => (s.isl i).state = .off || (s.isl i).f ≤ s.fMin i)
    let s := s.whenB floor (·.setBits (bPWR + 0x30) (2 ^ 40))
    .next (all.foldl (fun s i => s.capStep true i) s)
  else if 10 * power < 95 * cap then .next (all.foldl (fun s i => s.capStep false i) s)
  else .next s

/-- R72: a write of a lane's freeze bit. -/
def execClkSdFreeze (p : Path) (l : Nat) (freeze : Bool) (s : State) : Host.Outcome State Fault Refusal :=
  if l < 24 && s.wgate p (rSdFreeze l) then .next (s.setReg (rSdFreeze l) (if freeze then 1 else 0)) else .next s

end Sys2Proof.Machine
end

