-- ==== Sys2Proof/Machine/Dbg.lean ====
section
/-! DEFINITION. The TAP and the debug halts (chapter 28). The debug transport lies in Port.lean. -/

namespace Sys2Proof.Machine

/-! ### The TAP (R51, R676) -/

/-- The TAP operates whenever the main rail is up, whatever the level of PORST_N (R51). -/
def State.tapDo (s : State) (f : Dbg → Dbg) : State := if s.railUp then { s with dbg := f s.dbg } else s

/-- The TAP identification register (R692). -/
def tapId : Nat := 0x15301B67

/-- A number with the given bits, lowest first. -/
def bitsNat : List Bool → Nat
  | [] => 0
  | b :: bs => (if b then 1 else 0) + 2 * bitsNat bs

/-- R676: IDCODE selects the identification register, which is shifted out. -/
def execTapIdcode (s : State) : Host.Outcome State Fault Refusal :=
  let s := s.tapDo (fun d => { d with tap := .idcode })
  .next (if s.railUp then s.emit (.tap tapId) else s)

/-- R676: SAMPLE/PRELOAD: the levels of the covered balls are shifted out, and the boundary register is preloaded. -/
def execSamplePreload (sample preload : List Bool) (s : State) : Host.Outcome State Fault Refusal :=
  let s := s.tapDo (fun d => { d with tap := .samplePreload, boundary := preload })
  .next (if s.railUp then s.emit (.tap (bitsNat sample)) else s)

/-- R676: EXTEST drives the covered outputs from the boundary register. -/
def execExtest (boundary : List Bool) (s : State) : Host.Outcome State Fault Refusal :=
  .next (s.tapDo (fun d => { d with tap := .extest, boundary := boundary }))

/-- R676: CLAMP holds the covered outputs at the boundary register, with the bypass register selected. -/
def execClamp (s : State) : Host.Outcome State Fault Refusal := .next (s.tapDo (fun d => { d with tap := .clamp }))

/-- R676: HIGHZ places the covered outputs in high impedance. -/
def execHighz (s : State) : Host.Outcome State Fault Refusal := .next (s.tapDo (fun d => { d with tap := .highz }))

/-- R676: BYPASS selects the bypass register. -/
def execBypass (s : State) : Host.Outcome State Fault Refusal := .next (s.tapDo (fun d => { d with tap := .bypass }))

/-- R51, R676: TRST_N low resets the TAP, which selects IDCODE. -/
def execTapReset (s : State) : Host.Outcome State Fault Refusal := .next (s.tapDo (fun d => { d with tap := .idcode }))

/-! ### Halts (R677, R680) -/

def State.setHalt (s : State) (n : Nat) (h : HaltState) : State :=
  { s with dbg := { s.dbg with halt := tset .running s.dbg.halt n h } }

/-- The halt bit of one instance changes: it ends the task it runs, or it may start its next one. -/
def State.haltBit (s : State) (n : Nat) (on : Bool) : State :=
  if on && s.haltOf n = .running then
    match s.curTask n with
    | some t =>
      let x : Inst := { tget {} s.str.inst n with cur := some t }
      { s with str := { s.str with inst := tset {} s.str.inst n x } }.setHalt n .halting
    | none => s.setHalt n .halted
  else if !on then s.setHalt n .running
  else s

/-- A write of DBG_HALT_INST on the debug path (R677, R680, R682). -/
def State.writeHaltInst (s : State) (v : Nat) : State :=
  let s := s.setReg (bDBG + 0x10) (BitVec.ofNat 64 (v % 2 ^ 54))
  ((List.range 54).foldl (fun s n => s.haltBit n (bit v n)) s).retryWaiting

/-- R677: instances are halted or resumed; only the debug port can ask. -/
def execDbgHaltInst (p : Path) (v : Nat) (s : State) : Host.Outcome State Fault Refusal :=
  if p = .debug && s.wgate p (bDBG + 0x10) then .next (s.writeHaltInst v) else .next s

/-- R677: issue of queues 64 j to 64 j + 63 is halted or resumed; only the debug port can ask. -/
def execDbgHaltQ (p : Path) (j v : Nat) (s : State) : Host.Outcome State Fault Refusal :=
  if p = .debug && j < 64 && s.wgate p (bDBG + 0x1000) then .next (s.setReg (bDBG + 0x1000 + 8 * j) (BitVec.ofNat 64 v)) else .next s

/-- R677: the command stage that a halting instance ran has ended; the instance is HALTED. -/
def execInstanceHalted (n : Nat) (s : State) : Host.Outcome State Fault Refusal :=
  let busy := match (tget ({} : Inst) s.str.inst n).cur with
    | some t => s.worksOn n t
    | none => false
  if s.haltOf n = .halting && !busy then .next (s.setHalt n .halted) else .next s

end Sys2Proof.Machine
end

