-- ==== Sys2Proof/Machine/Tel.lean ====
section
/-! DEFINITION. The rows of the trace and of self-test during work (R660 to R671). -/

namespace Sys2Proof.Machine

/-! ### The trace (R664 to R666) -/

/-- Number of records the buffer holds. -/
def traceSlots : Nat := 524288

/-- The 32 bytes of a trace record. -/
def TraceRec.bytes (r : TraceRec) (seq : Nat) : List Byte :=
  leBytes 8 r.time ++ leBytes 4 seq ++ leBytes 1 r.type ++ leBytes 1 0 ++ leBytes 2 r.unit ++ r.data

/-- R665, R666: the oldest queued record is written at its place; the trace stops when mode STOP has filled the buffer
or the records after a freezing fault are written, and what is still queued is dropped. -/
def execTraceRecordWrite (s : State) : Host.Outcome State Fault Refusal :=
  match s.tel.queue with
  | [] => .next s
  | r :: rest =>
    if s.tel.full || s.tel.frozen then .next s
    else
      let t := s.tel
      let since := t.sinceRun + 1
      let left := t.postLeft.map (· - 1)
      let full := s.cb (bTEL + 0x100) 63 && since ≥ traceSlots
      let frozen : Bool := left = some 0
      .next { s with tel := { t with
        buf := tset [] t.buf (t.seq % traceSlots) (r.bytes t.seq)
        queue := if full || frozen then [] else rest
        seq := (t.seq + 1) % 2 ^ 32
        sinceRun := since, postLeft := left, full := full, frozen := frozen } }

/-- R664: a marker record. -/
def execTelTraceMark (p : Path) (v : Nat) (s : State) : Host.Outcome State Fault Refusal :=
  if s.wgate p (bTEL + 0x118) then .next (s.trace 0x09 0xFFF (leBytes 4 v)) else .next s

/-- R666: a write of run; 1 restarts a stopped trace at the next seq. -/
def execTelTraceCtl (p : Path) (run : Bool) (s : State) : Host.Outcome State Fault Refusal :=
  if !s.wgate p (bTEL + 0x108) then .next s
  else
    let was := wbit (s.reg (bTEL + 0x108)) 0
    let stopped := s.tel.full || s.tel.frozen
    let s := s.setReg (bTEL + 0x108) (if run then 1 else 0)
    if run && (!was || stopped) then
      .next { s with tel := { s.tel with full := false, frozen := false, sinceRun := 0
                                         postLeft := if stopped then none else s.tel.postLeft } }
    else .next s

/-! ### Self-test during work (R668 to R671) -/

/-- The request register. -/
def rBist : Nat := bTEL + 0x208

/-- A sibling outside a scope: healthy, powered, not debug-halted (R669). -/
def State.hasSibling (s : State) (scope : List Nat) (n : Nat) : Bool :=
  (kindBays (bayKind n)).any (fun m => !scope.contains m && s.instOk m && s.haltOf m = .running)

/-- A write of TEL_BIST_REQ (R668): dropped while a request runs, INVALID for a wrong target, FENCED for a scope that
cannot be tested; else `f`. -/
def State.bistReq (s : State) (p : Path) (valid : Bool) (units doms : List Nat) (f : State → State) : State :=
  if !s.wgate p rBist then s
  else if s.tel.bistBusy then s.setBits (bTEL + 0x210) (2 ^ 60)
  else if !valid then s.bistEnd stINVALID
  else if units.any s.fencedU || doms.any (fun d => !s.domOn d) then s.bistEnd stFENCED
  else f { s with tel := { s.tel with bistBusy := true, bistStatus := 0, bistPassed := false, bistStep := 0, bistRecal := 0 } }

/-- DRAIN where every kind in scope has a sibling, WAIT otherwise (R669 steps 1 to 3). -/
def State.bistStart (s : State) (scope : List Nat) (island : Nat) : State :=
  let drain := scope.all (s.hasSibling scope)
  { s with tel := { s.tel with
    scope := scope, bistIsl := island
    bistPhase := if drain then .drain else .wait
    inelig := if drain then scope else [] } }

/-- R669: a self-test of one instance. -/
def execInstanceTest (p : Path) (target : Nat) (s : State) : Host.Outcome State Fault Refusal :=
  .next (s.bistReq p (decide (target ≤ 0x35)) [target] [bayDom target] (fun s => s.bistStart [target] 0))

/-- R669: a self-test of every instance of an island. -/
def execIslandTest (p : Path) (target : Nat) (s : State) : Host.Outcome State Fault Refusal :=
  let scope := (List.range 54).filter (fun n => uIsland (bayIsland n) = target)
  .next (s.bistReq p (target = 0x46 || (0x4F ≤ target && target ≤ 0x58)) (target :: scope) (scope.map bayDom)
    (fun s => s.bistStart scope (target - 0x40)))

/-- R669 steps 2, 3 and 5: the scope has drained, or stands idle while the request waits. -/
def execBistDrained (s : State) : Host.Outcome State Fault Refusal :=
  if s.tel.bistBusy && (s.tel.bistPhase = .drain || s.tel.bistPhase = .wait) && s.tel.scope.all (fun n => (s.tasksOn n).isEmpty) then
    let s := s.tel.units.foldl (fun s u => s.setUnit u { s.funit u with state := .recovering }) s
    .next { s with tel := { s.tel with bistPhase := .test, inelig := s.tel.scope } }
  else .next s

/-- R669 step 4: the wait limit passed. -/
def execBistDeferred (s : State) : Host.Outcome State Fault Refusal :=
  if s.tel.bistBusy && (s.tel.bistPhase = .drain || s.tel.bistPhase = .wait) then .next (s.bistEnd stDEFERRED).retryWaiting else .next s

/-- R669 steps 6 and 7: the test ends. Each failing unit comes with its test step. -/
def execBistTestDone (fails : List (Nat × Nat)) (s : State) : Host.Outcome State Fault Refusal :=
  if s.tel.bistBusy && s.tel.bistPhase = .test then
    let bad := fails.filter (fun f => s.tel.units.contains f.1)
    let s := s.tel.units.foldl (fun s u => s.setUnit u { s.funit u with state := .healthy }) s
    let s := s.tel.scope.foldl (fun s n => (s.dropBanks n).bayLose n) s
    let s := match bad with
      | [] => s.bistEnd stOK true
      | f :: _ => s.bistEnd stOK false f.2
    .next (bad.foldl (fun s f => s.faultUnit 0x01 f.1 f.2) s).retryWaiting
  else .next s

/-- R670: a recalibration of a lane's shadow slice starts, or the one in progress is joined. -/
def execSerdesRecal (p : Path) (target : Nat) (s : State) : Host.Outcome State Fault Refusal :=
  let dom := if target < 8 then 4 else if target < 16 then 5 else 2
  .next (s.bistReq p (decide (target < 24)) [] [dom] (fun s =>
    let x := s.lane target
    let s := { s with tel := { s.tel with bistLane := some target, recalOut := if x.los then 2 else 0 } }
    if x.los then s else s.setLane target { x with recal := true }))

/-- R670: the requested recalibration ends with the shadow eye, unless it has ended already. A swap that waits for the
retry machine keeps the request open. -/
def execSerdesRecalDone (eyeH eyeW : Nat) (s : State) : Host.Outcome State Fault Refusal :=
  match s.tel.bistLane with
  | none => .next s
  | some l =>
    let s := s.sliceSwap l eyeH eyeW
    let x := s.lane l
    if x.swapDue && !s.frozen l then .next s
    else
      let s := s.setLane l { x with recal := false }
      .next (s.bistEnd stOK false 0 s.tel.recalOut)

end Sys2Proof.Machine
end

