-- ==== Sys2Proof/Machine/Vault.lean ====
section
/-! DEFINITION. The services of the Vault and its events (chapter 7). -/

namespace Sys2Proof.Machine

/-! ### Status and sessions -/

/-- R167: status registers. -/
def execGetStatus (dbg : Bool) (s : State) : Host.Outcome State Fault Refusal :=
  .next (s.serve dbg 0x01 .any (fun s =>
    s.mbxRespond dbg stOK (leBytes 8 s.vltStatus ++ leBytes 8 s.vltFuseStat ++ leBytes 8 s.vltTamper)))

/-- R161, R163: a nonce, unless the path is locked out. -/
def execAuthBegin (dbg : Bool) (s : State) : Host.Outcome State Fault Refusal :=
  .next (s.serve dbg 0x02 .any (fun s =>
    if (s.vpath dbg).locked then s.mbxRespond dbg stDENIED []
    else s.draw 32 (fun n s => (s.setVpath dbg { s.vpath dbg with nonce := some n, nonceAt := s.spine }).mbxRespond dbg stOK n)))

/-- The policy's key hash of a role byte and an identity index (R168). -/
def policyHash (p : List Byte) (role i : Nat) : Option (List Byte) :=
  if role = 1 && i < leNat (p.drop 8 |>.take 1) then some (p.drop (0x20 + 48 * i) |>.take 48)
  else if role = 2 && i < leNat (p.drop 9 |>.take 1) then some (p.drop (0x1A0 + 48 * i) |>.take 48)
  else none

/-- auth_fail_limit of the accepted policy; no limit before one is accepted. -/
def State.authLimit (s : State) : Option Nat := s.vlt.policy.map (fun p => leNat (p.drop 0xC |>.take 1))

/-- R161 to R163: the proof is checked; the nonce serves once and for 10 s. -/
def execAuthProve (dbg : Bool) (s : State) : Host.Outcome State Fault Refusal :=
  .next (s.serve dbg 0x03 .any (fun s =>
    let v := s.vpath dbg
    if v.locked then s.mbxRespond dbg stDENIED []
    else
      let role := s.mbxF dbg 0 1
      let pub := s.mbxBytes dbg 12 97
      let msg (n : List Byte) : List Byte :=
        n ++ leBytes 1 role ++ leBytes 1 (if dbg then 1 else 0) ++ leBytes 8 Config.deviceId.toNat
      let good := match v.nonce, s.vlt.policy with
        | some n, some p =>
          s.spine - v.nonceAt ≤ 20000000000 && policyHash p role (s.mbxF dbg 1 1) = some (Config.sha384 pub) &&
            Config.ecdsaVerify pub (msg n) (s.mbxBytes dbg 112 48) (s.mbxBytes dbg 160 48)
        | _, _ => false
      if good then
        (s.setVpath dbg { v with sess := some (if role = 1 then .co else .user), nonce := none, fails := 0 }).mbxRespond dbg stOK []
      else
        let fails := v.fails + 1
        let lock := match s.authLimit with | some l => decide (l ≤ fails) | none => false
        ((s.setVpath dbg { v with nonce := none, fails := fails, locked := lock }).err (bVLT + 0x40)).mbxRespond dbg stAUTH_FAIL []))

/-- R162: the session on the path ends. -/
def execLogout (dbg : Bool) (s : State) : Host.Outcome State Fault Refusal :=
  .next (s.serve dbg 0x04 .session (fun s => (s.setVpath dbg { s.vpath dbg with sess := none }).mbxRespond dbg stOK []))

/-! ### Keys -/

/-- R170, R184: a KEK under the owner transport key. -/
def execKekImport (dbg : Bool) (s : State) : Host.Outcome State Fault Refusal :=
  .next (s.serve dbg 0x10 .co (fun s =>
    let i := s.mbxF dbg 0 1
    if i ≥ 16 then s.mbxRespond dbg stINVALID []
    else if !s.vlt.fuses.ownerSet || s.vlt.fuses.decommissioned then s.mbxRespond dbg stDENIED []
    else match Config.kwUnwrap s.vlt.fuses.ownerKey (s.mbxBytes dbg 12 48) with
      | none => s.mbxRespond dbg stAUTH_FAIL []
      | some b =>
        if leNat (b.drop 32 |>.take 1) ≠ i || leNat (b.drop 33) ≠ 1 then s.mbxRespond dbg stINVALID []
        else { s with vlt := { s.vlt with kek := tset none s.vlt.kek i (some (b.take 32)) } }.mbxRespond dbg stOK []))

/-- R167: a KEK slot is cleared. -/
def execKekDestroy (dbg : Bool) (s : State) : Host.Outcome State Fault Refusal :=
  .next (s.serve dbg 0x11 .co (fun s =>
    let i := s.mbxF dbg 0 1
    if i ≥ 16 then s.mbxRespond dbg stINVALID []
    else { s with vlt := { s.vlt with kek := tset none s.vlt.kek i none } }.mbxRespond dbg stOK []))

/-- R171, R184: a dataset key under a KEK; pinned records keep their old copy (R172). -/
def execKeyLoad (dbg : Bool) (s : State) : Host.Outcome State Fault Refusal :=
  .next (s.serve dbg 0x20 .user (fun s =>
    let i := s.mbxF dbg 0 2
    let k := s.mbxF dbg 2 1
    if i ≥ 4096 || k ≥ 16 then s.mbxRespond dbg stINVALID []
    else if s.vlt.fuses.decommissioned then s.mbxRespond dbg stDENIED []
    else match tget none s.vlt.kek k with
      | none => s.mbxRespond dbg stKEY_EMPTY []
      | some kek => match Config.kwUnwrap kek (s.mbxBytes dbg 12 48) with
        | none => s.mbxRespond dbg stAUTH_FAIL []
        | some b =>
          let key : Key := { key := b.take 32, kek := k, dataset := leNat (b.drop 32 |>.take 4), epoch := leNat (b.drop 36 |>.take 2) }
          let s := { s with vlt := s.vlt.setSlot i (some key) }
          let s := { s with vlt := { s.vlt with cache := tmap [] (fun (l : List CachedKey) => l.filter (fun c => decide (c.slot ≠ i ∨ c.pins ≠ 0))) s.vlt.cache } }
          s.mbxRespond dbg stOK (leBytes 4 (s.vlt.slotGen i))))

/-- R173: the slot empties and every cached copy goes. -/
def execKeyDestroy (dbg : Bool) (s : State) : Host.Outcome State Fault Refusal :=
  .next (s.serve dbg 0x21 .user (fun s =>
    let i := s.mbxF dbg 0 2
    if i ≥ 4096 then s.mbxRespond dbg stINVALID []
    else
      let s := { s with vlt := (s.vlt.setSlot i none).dropCopies i }
      s.mbxRespond dbg stOK (leBytes 4 (s.vlt.slotGen i))))

/-- R167: a slot's state, 0 EMPTY or 1 LOADED, and what was recorded with its key. -/
def execKeyQuery (dbg : Bool) (s : State) : Host.Outcome State Fault Refusal :=
  .next (s.serve dbg 0x22 .user (fun s =>
    let i := s.mbxF dbg 0 2
    if i ≥ 4096 then s.mbxRespond dbg stINVALID []
    else
      let g := leBytes 1 (s.vlt.slotGen i)
      let b := match (s.vlt.slot i).key with
        | none => leBytes 1 0 ++ g ++ leBytes 18 0
        | some k => leBytes 1 1 ++ g ++ leBytes 2 k.kek ++ leBytes 4 k.dataset ++ leBytes 4 k.epoch ++ leBytes 8 k.records
      s.mbxRespond dbg stOK b))

/-- R178: random bytes from the DRBG. -/
def execGetRandom (dbg : Bool) (s : State) : Host.Outcome State Fault Refusal :=
  .next (s.serve dbg 0x30 .user (fun s =>
    let n := s.mbxF dbg 0 4
    if n > 1024 then s.mbxRespond dbg stINVALID [] else s.draw n (fun b s => s.mbxRespond dbg stOK b)))

/-! ### Fuses (R159, R160) -/

def State.setFuses (s : State) (f : Fuses) : State := { s with vlt := { s.vlt with fuses := f } }

/-- No image-key slot is written. -/
def Fuses.noKey (f : Fuses) : Bool := (List.range 4).all (fun i => (tget none f.imgKey i).isNone)

/-- The svn of the running copy; 0 while none runs. -/
def State.runSvn (s : State) : Nat := if s.boot.state = .running then s.boot.svn else 0

/-- R159, R160: an image-key hash; without authentication on a new part. -/
def execFuseImageKey (dbg : Bool) (s : State) : Host.Outcome State Fault Refusal :=
  .next (s.serve dbg 0x40 (if s.vlt.fuses.noKey && !s.vlt.fuses.approved then .any else .co) (fun s =>
    let f := s.vlt.fuses
    let i := s.mbxF dbg 0 1
    if i ≥ 4 then s.mbxRespond dbg stINVALID []
    else if (tget none f.imgKey i).isSome then s.mbxRespond dbg stDENIED []
    else (s.setFuses { f with imgKey := tset none f.imgKey i (some (s.mbxBytes dbg 12 48)) }).mbxRespond dbg stOK []))

/-- R159: a revocation, unless it would leave no key to boot with. -/
def execRevokeImageKey (dbg : Bool) (s : State) : Host.Outcome State Fault Refusal :=
  .next (s.serve dbg 0x41 .co (fun s =>
    let f := s.vlt.fuses
    let i := s.mbxF dbg 0 1
    let usable := (List.range 4).filter (fun k => (tget none f.imgKey k).isSome && !tget false f.imgRevoked k)
    if i ≥ 4 then s.mbxRespond dbg stINVALID []
    else if (s.boot.state = .running && s.boot.keySlot = i) || usable = [i] then s.mbxRespond dbg stDENIED []
    else (s.setFuses { f with imgRevoked := tset false f.imgRevoked i true }).mbxRespond dbg stOK []))

/-- R159: the minimum SVN. -/
def execAdvanceSvn (dbg : Bool) (s : State) : Host.Outcome State Fault Refusal :=
  .next (s.serve dbg 0x42 .co (fun s =>
    let f := s.vlt.fuses
    let v := s.mbxF dbg 0 4
    if v > 64 then s.mbxRespond dbg stINVALID []
    else if v > s.runSvn || v < f.svn then s.mbxRespond dbg stDENIED []
    else (s.setFuses { f with svn := v }).mbxRespond dbg stOK []))

/-- R158: the debug-lock fuse. -/
def execLockDebug (dbg : Bool) (s : State) : Host.Outcome State Fault Refusal :=
  .next (s.serve dbg 0x43 .co (fun s => (s.setFuses { s.vlt.fuses with debugLock := true }).mbxRespond dbg stOK []))

/-- R159: the owner transport key. -/
def execFuseOwnerKey (dbg : Bool) (s : State) : Host.Outcome State Fault Refusal :=
  .next (s.serve dbg 0x44 .co (fun s =>
    let f := s.vlt.fuses
    if f.ownerSet || f.approved then s.mbxRespond dbg stDENIED []
    else (s.setFuses { f with ownerKey := s.mbxBytes dbg 8 32, ownerSet := true }).mbxRespond dbg stOK []))

/-- R159: the approved-mode fuse. -/
def execSetApproved (dbg : Bool) (s : State) : Host.Outcome State Fault Refusal :=
  .next (s.serve dbg 0x45 .co (fun s =>
    let f := s.vlt.fuses
    if f.debugLock && f.ownerSet then (s.setFuses { f with approved := true }).mbxRespond dbg stOK []
    else s.mbxRespond dbg stDENIED []))

/-! ### Zeroisation, tamper and self-test -/

/-- R182. -/
def execZeroise (dbg : Bool) (s : State) : Host.Outcome State Fault Refusal :=
  .next (s.serve dbg 0x50 .any (fun s => { s with vlt := s.vlt.zeroise }.mbxRespond dbg stOK []))

/-- R183: the latch is cleared, unless a source is still active. -/
def execTamperClear (dbg : Bool) (active : Nat) (s : State) : Host.Outcome State Fault Refusal :=
  .next (s.serve dbg 0x51 .co (fun s =>
    if active ≠ 0 then s.mbxRespond dbg stDENIED []
    else
      let v := s.vlt
      { s with vlt := { v with tamper := 0, tamperDue := false, state := if v.state = VltState.tampered then VltState.ready else v.state } }.mbxRespond dbg stOK []))

/-- R184. -/
def execDecommission (dbg : Bool) (s : State) : Host.Outcome State Fault Refusal :=
  .next (s.serve dbg 0x52 .co (fun s =>
    ({ s with vlt := s.vlt.zeroise }.setFuses { s.vlt.fuses with decommissioned := true }).mbxRespond dbg stOK []))

/-- R181: the known-answer tests again; a pass returns the Vault to READY with its slots intact. -/
def execSelfTest (dbg pass : Bool) (s : State) : Host.Outcome State Fault Refusal :=
  .next (s.serve dbg 0x60 .any (fun s =>
    if pass then { s with vlt := { s.vlt with state := .ready, seeded := true } }.mbxRespond dbg stOK []
    else s.vaultError.mbxRespond dbg stFENCED []))

/-- R165: an unknown service code, or a length that is not the service's. -/
def execMailboxUnknownService (dbg : Bool) (s : State) : Host.Outcome State Fault Refusal :=
  let n := s.mbxLen dbg
  if s.mbxFront dbg && (n < 8 || n > 4096 || svcLen (s.mbxCode dbg) ≠ some (n - 8)) then
    .next (s.mbxRespond dbg stINVALID [])
  else .next s

/-- R162: session_idle_s seconds without a request. -/
def execSessionIdleTimeout (dbg : Bool) (s : State) : Host.Outcome State Fault Refusal :=
  .next (s.setVpath dbg { s.vpath dbg with sess := none })

/-- R163: the lockout ends; the count of consecutive failures stands until a success. -/
def execAuthLockoutEnd (dbg : Bool) (s : State) : Host.Outcome State Fault Refusal :=
  .next (s.setVpath dbg { s.vpath dbg with locked := false })

/-- R178. -/
def execDrbgReseed (s : State) : Host.Outcome State Fault Refusal :=
  .next { s with vlt := { s.vlt with drbgReqs := 0, seeded := true } }

/-- R177, R181. -/
def execEntropyHealthFail (s : State) : Host.Outcome State Fault Refusal :=
  if s.pins.sby then .next s.vaultError else .next s

/-- R183, R697: a tamper source fires: 0 TAMPER_N while enabled, 1 supply once its detector is armed, 2 clock, 3 sensor. -/
def execTamperEvent (source : Fin 4) (s : State) : Host.Outcome State Fault Refusal :=
  if !s.pins.sby || (source = 0 && !s.vlt.pinEn) || (source = 1 && !s.aon.sbyArmed) then .next s
  else
    let up := s.mainRunning
    let v := s.vlt.zeroise
    let s := { s with vlt := { v with tamper := v.tamper ||| 2 ^ source.val, state := .tampered, tamperDue := !up } }
    let s := if up then s.faultC3 0x13 uVLT else s
    .next (if s.aon.asleep && wbit s.aon.wakeCfg 3 && !s.pins.thermTrip then
      { (s.setBits (bAON + 0x110) 8) with
        aon := { s.aon with asleep := false }
        pins := { s.pins with mainPwrEn := true } }
    else s)

end Sys2Proof.Machine
end

