-- ==== Sys2Proof/Machine/RegView.lean ====
section
/-!
DEFINITION. What every register reads as: the registers that the manual composes from state, block by block. Every other
register reads as the word it holds.
-/

namespace Sys2Proof.Machine

/-- Index of an offset in a run of registers of a stride. -/
def idx (a base stride : Nat) : Nat := (a - base) / stride

/-- GLB (R47, R216, R443, R688 to R690). -/
def State.viewGlb (s : State) (a : Nat) : Nat :=
  let st := s.pins.straps.getD {}
  if a = 0 then 0x1DF7530110100101 + (if Config.gradeI then 0x1000 else 0)
  else if a = 8 then Config.deviceId.toNat
  else if a = 0x10 then 0x0041204202602082
  else if a = 0x18 then 0x0045084318BAC20C
  else if a = 0x20 then
    putB (st.dbgEn && !s.vlt.fuses.debugLock) 6 + put st.test.val 4 2 + put st.imgSel.val 2 2 + putB st.nvmFb 1 + putB s.pins.straps.isSome 0
  else if a = 0x838 || a = 0x840 then s.azm.outReg (idx a 0x838 8)
  else if 0x40000 ≤ a && a < 0x48000 then (s.queue (idx a 0x40000 8)).tail
  else if 0x50000 ≤ a && a < 0x60000 then
    let x := s.queue (idx a 0x50000 16)
    if a % 16 = 0 then put x.state.ctorIdx 62 2 + put (wfld (s.reg a) 61 60) 60 2 + put x.inFlight 32 16 + put x.head 0 32
    else put x.cplTail 0 32
  else if 0x60000 ≤ a && a < 0x68000 then (s.queue (idx a 0x60000 8)).cplHead
  else (s.reg a).toNat

/-- The code of a path in STG_STATUS.owner (R154). -/
def ownerCode : Option Path → Nat
  | some .host => 1
  | some .debug => 2
  | some .boot => 3
  | _ => 0

/-- STG (R154, R155). -/
def State.viewStg (s : State) (a : Nat) : Nat :=
  let g := s.stg
  if a = bSTG + 0x10 then
    put g.state.ctorIdx 30 2 + put (ownerCode g.owner) 28 2 + put g.result.ctorIdx 24 4 + put (wfld (s.reg a) 19 17) 17 3 +
    putB g.overflow 16 + put g.set.length 0 16
  else if a = bSTG + 0x18 then put ((g.gens.map Prod.fst).foldl min s.gen) 32 32 + put s.gen 0 32
  else if a = bSTG + 0x20 then put g.rejOff 32 26 + put g.rejId 0 16
  else (s.reg a).toNat

/-- CLK (R74, R78). -/
def State.viewClk (s : State) (a : Nat) : Nat :=
  if bCLK + 0x1000 ≤ a && a < bCLK + 0x1640 && (a - bCLK) % 0x40 = 8 then
    let x := s.isl (idx a (bCLK + 0x1000) 0x40 + 1)
    put x.state.ctorIdx 30 2 + put x.f 16 8 + put x.v 8 8 + unsgn 8 x.slack
  else if bCLK + 0x4000 ≤ a && a < bCLK + 0x4600 && (a - bCLK) % 0x40 = 0x10 then
    let l := idx a (bCLK + 0x4000) 0x40
    let x := s.lane l
    put x.main.eyeH 24 8 + put x.main.eyeW 16 8 + put (s.losThreshold l) 8 8 + put x.amp 0 8
  else (s.reg a).toNat

/-- PWR (R103, R105). -/
def State.viewPwr (s : State) (a : Nat) : Nat :=
  if a = bPWR + 0x30 then
    put s.pwr.devPower 48 16 + putB (wbit (s.reg a) 40) 40 + put (unsgn 8 s.pwr.iodTemp) 32 8 + put (unsgn 8 s.pwr.cd1Temp) 24 8 +
    put (unsgn 8 s.pwr.cd0Temp) 16 8 + put s.pwr.cd1Ceil 8 8 + put s.pwr.cd0Ceil 0 8
  else if bPWR + 0x100 ≤ a && a < bPWR + 0x1E0 && a % 16 = 8 then
    let d := s.dom (idx a (bPWR + 0x100) 16 + 1)
    put d.state.ctorIdx 30 2 + put d.lastOff.ctorIdx 28 2 + put d.power 0 16
  else (s.reg a).toNat

/-- Eight bytes of a record, as a word. -/
def word8 (b : List Byte) (w : Nat) : Nat := leNat ((b.drop (8 * w)).take 8)

/-- FLT (R653, R655, R658). -/
def State.viewFlt (s : State) (a : Nat) : Nat :=
  let f := s.flt
  if a = bFLT + 0x18 then put f.state.ctorIdx 62 2 + putB (wbit (s.reg a) 61) 61 + putB f.coldReq 60 + put (min s.fencedCount 255) 0 8
  else if a = bFLT + 0x20 then put f.tail 0 32
  else if bFLT + 0x40 ≤ a && a < bFLT + 0x60 then (if f.firstValid then word8 f.first (idx a (bFLT + 0x40) 8) else 0)
  else if bFLT + 0x10000 ≤ a && a < bFLT + 0x18000 then word8 (tget [] f.log (idx a (bFLT + 0x10000) 32)) (a / 8 % 4)
  else if bFLT + 0x20000 ≤ a && a < bFLT + 0x21000 then
    let u := idx a (bFLT + 0x20000) 8
    let x := s.funit u
    if unitAssigned u then
      put x.state.ctorIdx 62 2 + put x.cls 60 2 + put x.pair 58 2 + put (min (s.fencesIn u) 255) 40 8 + put x.code 0 8
    else 0
  else (s.reg a).toNat

/-- VLT (R164, R186, R187). While a request is in service its buffer reads as zero. -/
def State.viewVlt (s : State) (a : Nat) : Nat :=
  let stat (v : VPath) : Nat := putB v.busy 31 + put v.status 0 16
  if a = bVLT then s.vltStatus
  else if a = bVLT + 0x10 then s.vltFuseStat
  else if a = bVLT + 0x18 then s.vltTamper
  else if a = bVLT + 0x20 then Config.deviceId.toNat
  else if a = bVLT + 0x108 then stat s.vlt.host
  else if a = bVLT + 0x188 then stat s.vlt.dbg
  else if bVLT + 0x1000 ≤ a && a < bVLT + 0x3000 && (s.vpath (decide (bVLT + 0x2000 ≤ a))).busy then 0
  else (s.reg a).toNat

/-- NVC (R133, R134). -/
def State.viewNvc (s : State) (a : Nat) : Nat :=
  let b := s.boot
  if a = bNVC then
    put b.state.ctorIdx 28 4 + put b.copy 26 2 + put b.cal 24 2 + put b.nvmMode 22 2 + put b.bRes 16 4 + put b.aRes 12 4 +
    put (min b.failRec 4095) 0 12
  else if a = bNVC + 8 then put b.bootUs 0 32
  else if a = bNVC + 0x10 then put b.svn 32 32 + put b.imgVer 0 32
  else if a = bNVC + 0x18 then put b.nvClkMhz 8 8 + put b.densLog2 0 8
  else if a = bNVC + 0x110 then putB b.flBusy.isSome 31 + putB (wbit (s.reg a) 30) 30 + put b.flResult 28 2
  else (s.reg a).toNat

/-- AON (R106). -/
def State.viewAon (s : State) (a : Nat) : Nat :=
  if a = bAON + 0x200 then s.aon.rtc
  else if a = bAON + 0x210 then putB (wbit (s.reg a) 1) 1 + putB s.aon.rtcValid 0
  else (s.reg a).toNat

/-- GTH (R470). -/
def State.viewGth (s : State) (a : Nat) : Nat :=
  if a = bGTH + 0x108 then s.gth.remap.length
  else if bGTH + 0x20000 ≤ a && a < bGTH + 0x24000 then
    match tget none s.gth.remap (idx a (bGTH + 0x20000) 16) with
    | none => 0
    | some r => if a % 16 = 0 then 2 ^ 63 + put r.table 32 12 + put r.version 0 32 else put r.row 0 32
  else if bGTH + 0x60000 ≤ a && a < bGTH + 0x68000 then
    let t := idx a (bGTH + 0x60000) 8
    putB (wbit (s.reg a) 63) 63 + ((s.verSlots t).findIdx? (fun x => x.state = .current)).getD 0
  else if bGTH + 0x80000 ≤ a && a < bGTH + 0xC0000 then
    let x := tget ({} : GthVer) s.gth.ver (idx a (bGTH + 0x80000) 16)
    if a % 16 = 0 then put x.state.ctorIdx 62 2 + put x.version 0 32 else put x.base 0 44
  else (s.reg a).toNat

/-- PAK (R508). -/
def State.viewPak (s : State) (a : Nat) : Nat :=
  if bPAK + 0x30000 ≤ a && a < bPAK + 0x30800 then
    let p := idx a (bPAK + 0x30000) 8
    let used := (s.pak.buf.filter (fun e => e.2.isSome && e.1 / 4096 = p)).length
    putB (s.pakPipe p).bad 63 + put used 32 12 + put (s.pakDest (16384 * p)).dsn 0 32
  else (s.reg a).toNat

/-- SEN (R530, R531). -/
def State.viewSen (s : State) (a : Nat) : Nat :=
  if a = bSEN then s.ns
  else if a = bSEN + 0x10 then
    put s.servo.state.ctorIdx 62 2 + putB s.servo.blocked 61 + put (s.servo.holdC / 2000000000) 32 24 + put (unsgn 32 s.servo.offset) 0 32
  else if bSEN + 0x2000 ≤ a && a < bSEN + 0x2800 && a % 0x40 = 0x20 then
    let x := s.layer (idx a (bSEN + 0x2000) 0x40)
    put x.frames 32 32 + put x.ringFrame 0 32
  else if bSEN + 0x2000 ≤ a && a < bSEN + 0x2800 && a % 0x40 = 0x28 then
    let l := idx a (bSEN + 0x2000) 0x40
    putB (s.layer l).ringLate 63 + putB (s.layer l).next.isSome 62 + put (s.oldHeld l) 0 16
  else if bSEN + 0x4000 ≤ a && a < bSEN + 0x4200 && a % 0x40 = 0x20 then
    let x := s.group (idx a (bSEN + 0x4000) 0x40)
    put x.seq 32 32 + put x.ring.length 0 7
  else if bSEN + 0x5000 ≤ a && a < bSEN + 0x5080 && a % 16 = 8 then ((tget [] s.sen.ts (idx a (bSEN + 0x5000) 16)).head?).getD 0
  else if bSEN + 0x5800 ≤ a && a < bSEN + 0x5840 then
    putB (wbit (s.reg a) 31) 31 + put (tget [] s.sen.ts (idx a (bSEN + 0x5800) 8)).length 0 7
  else (s.reg a).toNat

/-- The smallest key among the buffers an instance fills (R260): its output write streams; a hand-off or link it feeds
adds a value that the manual bounds and this model leaves free, as is the value of an instance that fills none. -/
def State.instTte (s : State) (n : Nat) : Nat :=
  let mine (x : Strm) : Bool := x.desc.write && !x.shape && (match s.task x.task with
    | some t => (match t.stages[x.stage]? with | some g => g.inst = n | none => false)
    | none => false)
  let qs := s.str.strm.filterMap (fun e => match e.2 with | some x => if mine x then some (s.tte x / 256) else none | none => none)
  let fed := (s.tasksOn n).any (fun t => match s.task t with
    | some x => x.stages.length > 1 || !(semNeeds x.words).isEmpty
    | none => false)
  let free := Config.freeValue s.free n % 65536
  if qs.isEmpty then free else qs.foldl min (if fed then free else 65535)

/-- STR (R270). -/
def State.viewStr (s : State) (a : Nat) : Nat :=
  if a = bSTR + 0x30 then (s.str.strm.filter (fun e => match e.2 with | some x => !x.shape | none => false)).length
  else if bSTR + 0x2000 ≤ a && a < bSTR + 0x21B0 then s.instTte (idx a (bSTR + 0x2000) 8)
  else if bSTR + 0x10000 ≤ a && a < bSTR + 0x18000 then put (s.qOut (idx a (bSTR + 0x10000) 8)) 0 13
  else (s.reg a).toNat

/-- The slot after a free one in the free list (R298, R300). -/
def Ldg.nextFree (l : Ldg) (n : Nat) : Option Nat :=
  if l.freeLo ≤ n then (if n + 1 < 2 ^ 21 then some (n + 1) else l.freed.head?)
  else (l.freed.dropWhile (· ≠ n)).tail.head?

/-- The 32 bytes of a context (R298). A free context holds its generation and its link; its other fields read as zero. -/
def State.ctxImage (s : State) (n : Nat) : List Byte :=
  let c := s.ctx n
  let link := if c.state = .free then s.ldg.nextFree n else c.link
  let f (v : Nat) : Nat := if c.state = .free then 0 else v
  leBytes 8 (f c.key) ++ leBytes 2 (put c.gen 0 11 + put c.state.ctorIdx 11 4 + putB (c.reserve && c.state ≠ .free) 15) ++
  leBytes 1 (f c.pipe) ++ leBytes 1 (f c.done) ++ leBytes 2 (f c.batchRef) ++ leBytes 2 (f c.slot) ++ leBytes 2 (f c.pin) ++
  leBytes 2 (f c.damage) ++ leBytes 1 (f (put c.cause 4 4 + put c.stage 0 4)) ++ leBytes 3 0 ++ leBytes 4 (f c.admitUs) ++
  leBytes 4 (match link with | some x => 2 ^ 31 + put x 0 21 | none => 0)

/-- LDG (R320). -/
def State.viewLdg (s : State) (a : Nat) : Nat :=
  let l := s.ldg
  if a = bLDG + 0x30 then put l.seq 32 32 + putB (wbit (s.reg a) 31) 31 + putB l.retValid 30 + put l.queue.length 0 7
  else if a = bLDG + 0x40 then put l.freeCount 0 22
  else if bLDG + 0x50 ≤ a && a < bLDG + 0x70 then word8 (s.ctxImage (wfld (s.reg (bLDG + 0x48)) 20 0)) (idx a (bLDG + 0x50) 8)
  else if bLDG + 0x20000 ≤ a && a < bLDG + 0x21000 then
    let p := idx a (bLDG + 0x20000) 16
    let x := tget ({} : Pipe) l.pipe p
    if a % 16 = 0 then put x.state.ctorIdx 62 2 + put x.epoch 40 16 + put x.next 0 40
    else put (s.openOf p).length 40 13 + put (s.lowestUndelivered p) 0 40
  else if bLDG + 0x80000 ≤ a && a < bLDG + 0x88000 then word8 (tget [] l.ret (idx a (bLDG + 0x80000) 32)) (a / 8 % 4)
  else (s.reg a).toNat

/-- NGL (R580, R583, R612). -/
def State.viewNgl (s : State) (a : Nat) : Nat :=
  let d := s.ngl.dom
  if bNGL + 0x1000 ≤ a && a < bNGL + 0x2000 then
    let p := idx a (bNGL + 0x1000) 0x100
    let x := s.port p
    if a % 0x100 = 0x10 then
      put x.state.ctorIdx 60 4 + put x.cause 56 4 +
      (match x.peer with
       | some y => put y.kind 54 2 + put y.id 40 14 + put y.port 36 4
       | none => 0) +
      (if x.state = .active then put (((s.trunkOf p).filter (fun q => (s.port q).state = .active)).foldl min p) 32 4 else 0)
    else if a % 0x100 = 0x18 then put (x.avail 0) 0 12 + put (x.avail 1) 16 12 + put (x.avail 2) 32 12 + put (x.avail 3) 48 12
    else (s.reg a).toNat
  else if a = bNGL + 0x8140 then
    put d.state.ctorIdx 61 3 + put d.heldRoot 48 11 + put d.heldTerm 32 16 +
    put (match d.token with | some (e, _) => e | none => 0) 16 16 + putB d.rootHeld 0
  else if a = bNGL + 0x8148 then (match d.token with | some (_, t) => t | none => 0)
  else if a = bNGL + 0x8158 then put d.lateEp 0 14
  else if bNGL + 0xB100 ≤ a && a < bNGL + 0xB140 then
    let x := tget ({} : Pull) d.pull (idx a (bNGL + 0xB100) 8)
    put x.state.ctorIdx 62 2 + put x.reason 0 8
  else (s.reg a).toNat

/-- A CXL component register: as last written, else what CXL gives it (R622, R684; assumption log 3). -/
def Hif.cxlReg (h : Hif) (o : Nat) : Nat :=
  match h.cxlRegs.find? (fun e => e.1 = o) with
  | some e => e.2
  | none => Config.cxlReset o % 2 ^ 32

/-- HIF (R629, R635). -/
def State.viewHif (s : State) (a : Nat) : Nat :=
  let h := s.hif
  if a = bHIF + 0x10 then
    putB h.linkUp 63 + putB h.flit 62 + putB h.cxlCache 61 + putB h.cxlMem 60 + putB h.hdmCommitted 59 + put h.rate 48 8 + put h.width 0 5
  else if a = bHIF + 0x208 then putB h.flushing 63 + put h.evict.length 32 6 + put h.cc.length 0 22
  else if bHIF + 0x18000 ≤ a && a < bHIF + 0x18100 then
    ((List.range 64).map (fun i => putB (tget false h.pba (64 * idx a (bHIF + 0x18000) 8 + i)) i)).sum
  else if bHIF + 0xF0000 ≤ a then h.cxlReg (a - (bHIF + 0xF0000)) + 2 ^ 32 * h.cxlReg (a + 4 - (bHIF + 0xF0000))
  else (s.reg a).toNat

/-- Every block of a die's stacks is filled (R193). -/
def Mem.filled (m : Mem) (die : Nat) : Bool := (m.init.filter (fun e => e.2 && e.1 / 65536 = die)).length = 65536

/-- MEM (R211, R212). -/
def State.viewMem (s : State) (a : Nat) : Nat :=
  if a = bMEM + 0x28 then put s.mem.scrubPos 0 44
  else if bMEM + 0x100 ≤ a && a < bMEM + 0x180 && a % 16 = 0 then
    let k := idx a (bMEM + 0x100) 16
    let x := tget ({} : Stack) s.mem.stack k
    put x.state.ctorIdx 30 2 + putB (s.mem.filled (k / 4)) 29 + put x.temp 8 8
  else (s.reg a).toNat

/-- TEL (R667, R681). -/
def State.viewTel (s : State) (a : Nat) : Nat :=
  let t := s.tel
  if a = bTEL + 0x110 then putB s.traceRuns 63 + putB t.full 62 + putB t.frozen 61 + put t.seq 0 32
  else if a = bTEL + 0x210 then
    putB t.bistBusy 63 + put t.bistPhase.ctorIdx 61 2 + putB (wbit (s.reg a) 60) 60 + put t.bistStatus 32 16 + putB t.bistPassed 31 +
    put t.bistRecal 29 2 + put t.bistStep 0 12
  else if bTEL + 0x40000 ≤ a && a < bTEL + 0x50000 then
    word8 (tget [] t.buf (2048 * wfld (s.reg (bTEL + 0x120)) 7 0 + idx a (bTEL + 0x40000) 32)) (a / 8 % 4)
  else (s.reg a).toNat

/-- DBG (R682). -/
def State.viewDbg (s : State) (a : Nat) : Nat :=
  if a = bDBG then
    let strap := (s.pins.straps.getD {}).dbgEn && !s.vlt.fuses.debugLock
    putB s.dbgOpen 63 + put (if !s.dbgOpen then 0 else if strap then 1 else 2) 61 2 + putB s.vlt.fuses.debugLock 60 +
    put (tkeys (fun h => h = HaltState.halted) s.dbg.halt).length 0 6
  else if bDBG + 0x2000 ≤ a && a < bDBG + 0x21B0 then
    let n := idx a (bDBG + 0x2000) 8
    put (s.haltOf n).ctorIdx 62 2 + put (s.tasksOn n).length 0 7
  else (s.reg a).toNat

/-- What a register that is not staged reads as while its domain is on. -/
def State.view (s : State) (a : Nat) : Nat :=
  if a < bSTG then s.viewGlb a
  else if a < bCLK then s.viewStg a
  else if a < bPWR then s.viewClk a
  else if a < bFLT then s.viewPwr a
  else if a < bVLT then s.viewFlt a
  else if a < bNVC then s.viewVlt a
  else if a < bAON then s.viewNvc a
  else if a < bING then s.viewAon a
  else if bGTH ≤ a && a < bSMP then s.viewGth a
  else if bPAK ≤ a && a < bSEN then s.viewPak a
  else if bSEN ≤ a && a < bXCH then s.viewSen a
  else if bSTR ≤ a && a < bLDG then s.viewStr a
  else if bLDG ≤ a && a < bNGL then s.viewLdg a
  else if bNGL ≤ a && a < bHIF then s.viewNgl a
  else if bHIF ≤ a && a < bETH then s.viewHif a
  else if bMEM ≤ a && a < bTEL then s.viewMem a
  else if bTEL ≤ a && a < bDBG then s.viewTel a
  else if bDBG ≤ a then s.viewDbg a
  else (s.reg a).toNat

/-- CLK_ISL_CFG_1 and CLK_ISL_CFG_2 read as fixed words (R79). -/
def fixedIsl (a : Nat) : Word :=
  let f := if a = bCLK + 0x1000 then islandNominal 1 else islandNominal 2
  BitVec.ofNat 64 (put f 24 8 + put f 16 8 + put 1 6 2)

/-- The word a path reads from a register (R10, R13, R18). -/
def State.word (s : State) (p : Path) (a : Nat) : Word :=
  match regFam a with
  | none => 0
  | some f =>
    if !s.powered (regDom a) then BitVec.allOnes 64
    else match f.typ with
      | .wo => 0
      | .sec => if p = .vault then s.reg a else 0
      | .st => if stFixed a then fixedIsl a else staged s.stg.set (s.cfgTbl s.gen) a
      | _ => BitVec.ofNat 64 (s.view a)

end Sys2Proof.Machine
end

