-- ==== Sys2Proof/Machine/Bar.lean ====
section
/-!
DEFINITION. Reads and writes of BAR0 on the access paths: sizes, type codes, split reads and the rows that a write of a
register amounts to (R9 to R19, R714).
-/

namespace Sys2Proof.Machine

/-- The state an outcome leads to; the same state where it leads to none. -/
def stateOf (s : State) : Host.Outcome State Fault Refusal → State
  | .next t => t
  | _ => s

/-- BAR0 spans 64 MiB (R616). -/
def barSize : Nat := 2 ^ 26

/-- A naturally aligned 32-bit or 64-bit access (R9). -/
def aligned (off size : Nat) : Bool := (size = 4 || size = 8) && off % size = 0

/-! ### Reads (R13, R17 to R19, R714) -/

/-- Offsets at which two 32-bit registers share a 64-bit word, so that the shadow of R17 has no part: the semaphores
(R235) and the CXL component registers (R684). -/
def pairWord (a : Nat) : Bool := (0x80000 ≤ a && a < 0x100000) || (bHIF + 0xF0000 ≤ a && a < bHIF + 0x100000)

/-- A path's shadow. -/
def State.shadow (s : State) (p : Path) : Option (Nat × Half) :=
  match p with
  | .host => s.shHost
  | .debug => s.shDbg
  | .vault => s.shVlt
  | .boot => none

/-- Head captures: the register of SEN_TS_POP_n. -/
def tsPopReg (a : Nat) : Option Nat :=
  if bSEN + 0x5000 ≤ a && a < bSEN + 0x5080 && a % 16 = 8 then some (idx a (bSEN + 0x5000) 16) else none

/-- The head capture of an input leaves its FIFO (R519). -/
def State.tsPop (s : State) (n : Nat) : State :=
  { s with sen := { s.sen with ts := tset [] s.sen.ts n (tget [] s.sen.ts n).tail } }

/-- What a read does to the register it reads: an RC register is cleared, a FIFO popped. A peek of the debug port does
neither (R13, R19, R519). A value the manual leaves open is a new one at each read. -/
def State.readEffect (s : State) (p : Path) (a : Nat) : State :=
  let s := if bSTR + 0x2000 ≤ a && a < bSTR + 0x21B0 then { s with free := s.free + 1 } else s
  if p = .debug || !s.powered (regDom a) then s
  else match tsPopReg a with
    | some n => s.tsPop n
    | none => match regFam a with
      | some f => if f.typ = .error || f.typ = .stall then s.setReg a 0 else s
      | none => s

/-- A read of GLB_AZM_OUT has to wait for a block (R444). -/
def State.azmWaits (s : State) (a : Nat) : Bool := (a = 0x838 || a = 0x840) && !s.azm.jobs.isEmpty

/-- The read waits for the blocks now being computed. -/
def State.holdRead (s : State) (p : Path) (off size : Nat) : State :=
  { s with azm := { s.azm with held := s.azm.held ++ [{ left := s.azm.jobs.length, path := p, off := off, size := size }] } }

/-- A 32-bit read of the high half of a register (R17, R18). -/
def State.highHalf (s : State) (p : Path) (a : Nat) : Nat :=
  let live := wfld (s.word p a) 63 32
  if pairWord a || !s.powered (regDom a) then live
  else match s.shadow p with
    | some (b, h) => if b = a then h.toNat else live
    | none => live

/-- A high-half read is served from the shadow (R17). -/
def State.fromShadow (s : State) (p : Path) (a : Nat) : Bool :=
  !pairWord a && s.powered (regDom a) && (match s.shadow p with | some (b, _) => b = a | none => false)

/-- An aligned read of BAR0: the state it leaves and the data, or none where the read is held. -/
def State.barRead (s : State) (p : Path) (off size : Nat) : State × Option Nat :=
  let a := off - off % 8
  let w := s.word p a
  if off % 8 = 4 && (pairWord a || s.fromShadow p a) then (s, some (s.highHalf p a))
  else if s.azmWaits a then (s.holdRead p off size, none)
  else if size = 8 then (s.readEffect p a, some w.toNat)
  else if off % 8 = 4 then (s, some (s.highHalf p a))
  else
    let t := if pairWord a || (regFam a).isNone then s else s.latch p a (BitVec.ofNat 32 (wfld w 63 32))
    (t.readEffect p a, some (wfld w 31 0))

/-- The path can make an access now; the host's are answered with Unsupported Request in D3hot and with Memory Space
Enable clear (R620). -/
def State.pathUp (s : State) (p : Path) : Bool :=
  s.bootRuns && (match p with
    | .host => s.hostBar
    | .debug => s.dbgOpen
    | .boot => s.boot.state = .execute
    | .vault => true)

/-- A request on the host path that the function does not claim (R620). -/
def State.unclaimed (s : State) (p : Path) : Bool := p = .host && s.domOn 1 && s.pins.perst && s.hif.linkUp && !s.hostBar

/-- A read on a path, with its answer (R9, R10, R13). -/
def State.pathRead (s : State) (p : Path) (off size : Nat) : State :=
  if barSize ≤ off then s
  else if s.unclaimed p then s.emit .unsupported
  else if !s.pathUp p then s
  else if !aligned off size then (if p = .host then s.emit .abort else s)
  else match s.barRead p off size with
    | (t, some v) => t.emit (.read p size v)
    | (t, none) => t

/-- R13, R714: a read of a register on a path. -/
def execRcRead (p : Path) (off size : Nat) (s : State) : Host.Outcome State Fault Refusal := .next (s.pathRead p off size)

/-- R17: a 32-bit read of a low half. -/
def execSplitReadLow (p : Path) (off : Nat) (s : State) : Host.Outcome State Fault Refusal :=
  if off % 8 = 0 then .next (s.pathRead p off 4) else .next s

/-- R519: a read of SEN_TS_POP_n, of 64 bits or of its low half. -/
def execSenTsPop (p : Path) (n size : Nat) (s : State) : Host.Outcome State Fault Refusal :=
  if n < 8 then .next (s.pathRead p (bSEN + 0x5008 + 16 * n) size) else .next s

/-! ### Writes (R11, R13, R16) -/

/-- A word with the bytes of a write in place: bits outside `mask` are reserved (R11). -/
def mergeWord (old : Word) (mask off size v : Nat) : Word :=
  let new := if size = 8 then v % 2 ^ 64
    else if off % 8 = 0 then wfld old 63 32 * 2 ^ 32 + v % 2 ^ 32
    else v % 2 ^ 32 * 2 ^ 32 + wfld old 31 0
  (old &&& ~~~ BitVec.ofNat 64 mask) ||| (BitVec.ofNat 64 new &&& BitVec.ofNat 64 mask)

/-- The bits a write presents, at their places in the register. -/
def placed (off size v : Nat) : Nat := if size = 8 then v % 2 ^ 64 else if off % 8 = 0 then v % 2 ^ 32 else v % 2 ^ 32 * 2 ^ 32

/-- One 32-bit write of a CXL component register. A write that sets the commit bit of the HDM decoder commits it, where
its size is not zero; the field places are CXL's (R622, R623; assumption log 3). -/
def Hif.cxlWrite (h : Hif) (o v : Nat) : Hif :=
  let c := Config.hdmCap
  let inHdm := c + 0x10 ≤ o && o < c + 0x24
  let m := if inHdm then 2 ^ 32 - 1 else Config.cxlMask o % 2 ^ 32
  let w := (h.cxlReg o &&& (2 ^ 32 - 1 - m)) ||| (v % 2 ^ 32 &&& m)
  let h := { h with cxlRegs := tins h.cxlRegs o w }
  if o ≠ c + 0x20 then h
  else
    let base := put (fld (h.cxlReg (c + 0x10)) 31 28) 28 4 + 2 ^ 32 * h.cxlReg (c + 0x14)
    let size := put (fld (h.cxlReg (c + 0x18)) 31 28) 28 4 + 2 ^ 32 * h.cxlReg (c + 0x1C)
    let ok := bit v 9 && size ≠ 0
    { h with
      cxlRegs := tins h.cxlRegs o (w - put (fld w 10 10) 10 1 + putB ok 10)
      hdmCommitted := ok, hdmBase := base, hdmSize := size }

/-- A write of an RW register. -/
def State.writeRw (s : State) (p : Path) (f : RegFam) (a off size v : Nat) : State :=
  let w := mergeWord (s.reg a) f.mask off size v
  if bDBG ≤ a then
    if p ≠ .debug then s else if a = bDBG + 0x10 then s.writeHaltInst w.toNat else s.setReg a w
  else if bVLT + 0x1000 ≤ a && a < bVLT + 0x3000 then
    if (s.vpath (decide (bVLT + 0x2000 ≤ a))).busy then s else s.setReg a w
  else if bHIF + 0x10000 ≤ a && a < bHIF + 0x18000 then (s.setReg a w).msixFlush
  else s.setReg a w

/-- A write of a W1C register: a 1 clears the bit (R13). -/
def State.writeW1c (s : State) (f : RegFam) (a off size v : Nat) : State :=
  let m := placed off size v &&& f.w1c
  if bGTH + 0x20000 ≤ a && a < bGTH + 0x24000 then
    if bit m 63 then { s with gth := { s.gth with remap := tset none s.gth.remap (idx a (bGTH + 0x20000) 16) none } } else s
  else s.clrBits a m

/-- A write of an LV register (R13); its field lies in the low half. -/
def State.writeLv (s : State) (p : Path) (f : RegFam) (a v : Nat) : State :=
  if 0x40000 ≤ a && a < 0x48000 then stateOf s (execGlbQDb p (idx a 0x40000 8) v s)
  else if 0x60000 ≤ a && a < 0x68000 then stateOf s (execGlbQCplhead p (idx a 0x60000 8) v s)
  else if bCLK ≤ a && a < bPWR then stateOf s (execClkSdFreeze p (idx a (bCLK + 0x4000) 0x40) (bit v 0) s)
  else if bPWR ≤ a && a < bFLT then stateOf s (execPwrDomReq p (idx a (bPWR + 0x100) 16 + 1) (bit v 0) s)
  else if a = bFLT + 0x28 then
    (if (s.flt.tail + 2 ^ 32 - v) % 2 ^ 32 ≤ 1024 then s.setReg a (BitVec.ofNat 64 v) else s)
  else if a = bSMP + 0x20 then stateOf s (execSmpSeqKill p (v % 65536) s)
  else if bPAK ≤ a && a < bSEN then stateOf s (execPakHostHead p (idx a (bPAK + 0x20000) 8) v s)
  else if a = bTEL + 0x108 then stateOf s (execTelTraceCtl p (bit v 0) s)
  else s.setReg a (BitVec.ofNat 64 (v &&& f.mask))

/-- A write of NVC_FL_CMD (R129). An operation code outside 1 to 4 names no command. -/
def State.writeFlCmd (s : State) (p : Path) (op : Nat) : State :=
  match op with
  | 1 => stateOf s (execFlashRead p s)
  | 2 => stateOf s (execFlashProgram p s)
  | 3 => stateOf s (execFlashErase p s)
  | 4 => stateOf s (execFlashStatus p s)
  | _ => if s.boot.flBusy.isSome then s.setBits (bNVC + 0x110) (2 ^ 30) else s

/-- A write of TEL_BIST_REQ (R668). -/
def State.writeBist (s : State) (p : Path) (kind target : Nat) : State :=
  match kind with
  | 0 => stateOf s (execInstanceTest p target s)
  | 1 => stateOf s (execIslandTest p target s)
  | 2 => stateOf s (execSerdesRecal p target s)
  | _ => s.bistReq p false [] [] id

/-- A write of a WO register: its action (R13). Fields of at most 32 bits lie in the low half. -/
def State.writeWo (s : State) (p : Path) (a off size v : Nat) : State :=
  let v32 := v % 2 ^ 32
  let go := bit v 0
  if a = bAON + 0x208 then stateOf s (execAonRtcSet p size v s)
  else if 0xC0000 ≤ a && a < bSTG then
    let n := (off - 0xC0000) / 4
    let s := stateOf s (execGlbSemAdd p n v32 s)
    if size = 8 then stateOf s (execGlbSemAdd p (n + 1) (v / 2 ^ 32) s) else s
  else if off % 8 = 4 then s
  else if 0x70000 ≤ a && a < 0x78000 then
    let q := idx a 0x70000 8
    let s := if bit v 1 then stateOf s (execQueueAbort p q s) else s
    if go then stateOf s (execQueueResume p q s) else s
  else if a = bFLT + 0x68 then stateOf s (execFltUnfence p (v % 4096) s)
  else if a = bFLT + 0x70 then stateOf s (execFltInject p (v % 4096) (bit v 31) s)
  else if a = bNVC + 0x108 then s.writeFlCmd p (v % 16)
  else if a = bTEL + 0x118 then stateOf s (execTelTraceMark p v32 s)
  else if a = bTEL + 0x208 then s.writeBist p (fld v 31 28) (fld v 11 0)
  else if !go then s
  else if a = 0x830 then stateOf s (execGlbAzmGo p s)
  else if a = bSTG then stateOf s (execStgCommit p s)
  else if a = bSTG + 8 then stateOf s (execStgDiscard p s)
  else if a = bFLT + 0x60 then stateOf s (execFltFirstClr p s)
  else if a = bVLT + 0x100 then s.mbxGo false
  else if a = bVLT + 0x180 then s.mbxGo true
  else if a = bNVC + 0x20 then stateOf s (execBootRetry p s)
  else if a = bAON + 0x120 then stateOf s (execAonSleep p s)
  else if a = bHIF + 0x200 then stateOf s (execHifCcFlush p s)
  else if bNGL ≤ a && a < bHIF then stateOf s (execNglFabPullGo p (idx a (bNGL + 0xB000) 0x20) s)
  else s

/-- An aligned write of BAR0 on a path (R10, R11, R13, R16, R18). The boot sequencer's writes to the VLT block are
discarded. -/
def State.barWrite (s : State) (p : Path) (off size v : Nat) : State :=
  let a := off - off % 8
  if !s.wgate p a || (p = .boot && bVLT ≤ a && a < bNVC) then s
  else match regFam a with
    | none => s
    | some f =>
      match f.typ with
      | .rw => s.writeRw p f a off size v
      | .w1c => s.writeW1c f a off size v
      | .wo => s.writeWo p a off size v
      | .lv => if off % 8 = 0 then s.writeLv p f a (v % 2 ^ 32) else s
      | .st => if size = 8 then (s.stageHalf p a (v % 2 ^ 32)).stageHalf p (a + 4) (v / 2 ^ 32 % 2 ^ 32) else s.stageHalf p off (v % 2 ^ 32)
      | .sec => if p = .vault then s.setReg a (mergeWord (s.reg a) (2 ^ 64 - 1) off size v) else s
      | .ro =>
        if bHIF + 0xF0000 ≤ a && a < bETH then
          let o := off - (bHIF + 0xF0000)
          let h := s.hif.cxlWrite o (v % 2 ^ 32)
          { s with hif := if size = 8 then h.cxlWrite (o + 4) (v / 2 ^ 32) else h }
        else s
      | .event | .error | .stall => s

/-- R9, R13: a write of a register on a path. -/
def execRegisterWrite (p : Path) (off size v : Nat) (s : State) : Host.Outcome State Fault Refusal :=
  if barSize ≤ off then .next s
  else if s.unclaimed p then .next (s.emit .unsupported)
  else if !aligned off size then (if p = .host && s.pathUp p then .next (s.emit .abort) else .next s)
  else .next (s.barWrite p off size v)

end Sys2Proof.Machine
end

