-- ==== Sys2Proof/Machine/BootRec.lean ====
section
/-! DEFINITION. The records of the start-up program (R116, R117, R123, R124). -/

namespace Sys2Proof.Machine

/-- The record at the program's counter, while the program runs. -/
def State.curRec (s : State) : Option Rec := if s.boot.state = .execute && s.mainRunning then s.boot.prog[s.boot.pc]? else none

/-- The record is done: the next one is due (R117). A write may have ended the program, as a C3 fault or a reset does. -/
def State.nextRec (s : State) : State :=
  if s.boot.state = .execute then { s with boot := { s.boot with pc := s.boot.pc + 1 } }.settle else s

/-- The record at the counter has an operation; `f` is what it does. -/
def State.recordOp (s : State) (op : Nat) (f : Rec → State → State) : State :=
  match s.curRec with
  | some r => if r.op = op then f r s else s
  | none => s

/-- BAR0 offset of a record, whose bits 31:26 are zero (R116). -/
def Rec.bar (r : Rec) : Nat := r.off % barSize

/-- R116: a 32-bit write. -/
def execWr32 (s : State) : Host.Outcome State Fault Refusal :=
  .next (s.recordOp 1 (fun r s => (s.barWrite .boot r.bar 4 (r.data % 2 ^ 32)).nextRec))

/-- R116: a 64-bit write. -/
def execWr64 (s : State) : Host.Outcome State Fault Refusal :=
  .next (s.recordOp 2 (fun r s => (s.barWrite .boot r.bar 8 r.data).nextRec))

/-- R116: one read of a POLL32; the record is done when the masked value matches. -/
def execPoll32 (s : State) : Host.Outcome State Fault Refusal :=
  .next (s.recordOp 3 (fun r s =>
    match s.barRead .boot r.bar 4 with
    | (t, some v) => if v &&& (r.data / 2 ^ 32) = r.data % 2 ^ 32 then t.nextRec else t
    | (_, none) => s))

/-- R116: a POLL32 that has not matched in its time fails the copy with result 11. -/
def execPoll32Timeout (s : State) : Host.Outcome State Fault Refusal := .next (s.recordOp 3 (fun _ s => s.recFail 11))

/-- R116: the time of a WAIT has passed. -/
def execWaitRec (s : State) : Host.Outcome State Fault Refusal := .next (s.recordOp 4 (fun _ s => s.nextRec))

/-- A LOAD target lies wholly in powered, initialised device memory (R117, R193). -/
def State.loadable (s : State) (a n : Nat) : Bool := n = 0 || (mappedRange a n && s.reachable a && s.reachable (a + n - 1))

/-- R116, R117, R124: a DATA section is streamed to its target and its digest checked; a replay skips the record. -/
def execLoadRec (s : State) : Host.Outcome State Fault Refusal :=
  .next (s.recordOp 5 (fun r s =>
    if s.boot.replay then s.nextRec
    else match s.boot.sections[r.arg]? with
      | none => s.recFail 10
      | some x =>
        if !s.loadable x.target x.len then s.recFail 10
        else
          let t := s.store x.target (s.flashRd x.addr x.len)
          if s.digestOk x then t.nextRec else t.recFail 8))

/-- R123: the program ends; the copy has booted, and its program is retained for a warm reset (R124). -/
def execEndRec (s : State) : Host.Outcome State Fault Refusal :=
  .next (s.recordOp 6 (fun _ s =>
    let s := s.setResult s.boot.copy 1
    let b := s.boot
    { s with boot := { b with state := .running, retained := true, replay := false, bootUs := if b.replay then b.bootUs else s.bootElapsed } }.endRetry))

end Sys2Proof.Machine
end

