-- ==== Sys2Proof/Machine/Eth.lean ====
section
/-! DEFINITION. Ethernet ports, RoCE v2 transport and address resolution (R31, R332 to R334). -/

namespace Sys2Proof.Machine

/-- R334, R31: a RoCE v2 packet with its sequence number and its congestion mark. A packet of no connection is discarded. -/
def execRocePacketRx (tgt port : Nat) (op : RoceOp) (psn : Nat) (ecn : Bool) (s : State) : Host.Outcome State Fault Refusal :=
  let c := 2 * tgt + port
  let k := s.conn c
  if port ≥ 2 || !(s.ethPort port).up then .next s
  else if k.state ≠ .connecting && k.state ≠ .ready then .next (s.ethDiscard port)
  else
    let cnp := ecn && op ≠ .cnp && s.cb (bING + 0x10) 0 && (match k.lastCnp with | some t => decide (t + 50000 ≤ s.ns) | none => true)
    let s := s.whenB cnp (fun s => ((s.setConn c { s.conn c with lastCnp := some s.ns }).bump (ingCtr 5) 1).emit (.eth port "cnp" (leBytes 1 tgt)))
    let k := s.conn c
    match op with
    | .send | .rdmaWrite =>
      if psn = k.rxPsn then .next ((s.setConn c { k with rxPsn := (psn + 1) % 2 ^ 24 }).ethTx port "ack" (leBytes 3 psn))
      else .next s
    | .other => .next (s.ethTx port "nak_invalid_request" (leBytes 3 psn))
    | .ack => .next (s.setConn c { k with unacked := 0, retries := 0, rnrs := 0 })
    | .rnrNak =>
      if k.rnrs ≥ s.cf (bING + 0x10) 7 5 then .next ((s.setConn c { k with state := .none, unacked := 0, retries := 0, rnrs := 0 }))
      else .next ((s.setConn c { k with rnrs := k.rnrs + 1 }).bump (ingCtr 4) 1)
    | .cnp => .next s

/-- R334: requests unacknowledged for 4,096 ns × 2^ack_timeout are sent again; the queue pair fails once retry_cnt retries
are spent. Its Reads then end by fabric_cmd_ms. -/
def execRoceAckTimeout (tgt port : Nat) (s : State) : Host.Outcome State Fault Refusal :=
  let c := 2 * tgt + port
  let k := s.conn c
  if k.state ≠ .ready || k.unacked = 0 then .next s
  else if k.retries ≥ s.cf (bING + 0x10) 10 8 then
    .next (s.setConn c { k with state := .none, unacked := 0, retries := 0, rnrs := 0 })
  else .next (((s.setConn c { k with retries := k.retries + 1 }).bump (ingCtr 4) k.unacked).ethTx port "retransmit" (leBytes 4 k.unacked))

/-- R332: a priority flow control frame for the port's priority pauses it, or resumes it and lets the held frames go. -/
def execPfcFrameRx (x prio : Nat) (pause : Bool) (s : State) : Host.Outcome State Fault Refusal :=
  let p := s.ethPort x
  if !p.up || prio ≠ s.cf (rEth x) 55 52 then .next s
  else if pause then .next (s.setEthPort x { p with paused := true })
  else .next (p.held.foldl (fun s f => s.emit (.eth x f.1 f.2)) (s.setEthPort x { p with paused := false, held := [] }))

/-- R31: a frame that is not permitted is discarded and counted. -/
def execEthFrameDiscard (x : Nat) (s : State) : Host.Outcome State Fault Refusal :=
  if x < 2 && (s.ethPort x).up then .next (s.ethDiscard x) else .next s

/-- R333: the next request for a next hop that is not resolved; after the fourth the attempts that need it fail. -/
def execAddrResRequest (x hop : Nat) (s : State) : Host.Outcome State Fault Refusal :=
  match tget none (s.ethPort x).arp hop with
  | none => .next s
  | some e =>
    if e.mac.isSome then .next s
    else if e.tries < 4 then .next ((s.arpPut x hop { e with tries := e.tries + 1 }).arpAsk x hop)
    else
      let cs := (s.connsOn x hop).filter (fun c => (s.conn c).state = .resolving)
      let p := s.ethPort x
      let s := s.setEthPort x { p with arp := tset none p.arp hop none }
      let s := cs.foldl (fun s c => s.setConn c { s.conn c with state := .none }) s
      .next (cs.foldl (fun s c => s.tgtLost (c / 2)) s)

/-- R333: an answer resolves or confirms an entry; attempts that waited for it go on. -/
def execAddrResReply (x hop mac : Nat) (s : State) : Host.Outcome State Fault Refusal :=
  match tget none (s.ethPort x).arp hop with
  | none => .next s
  | some _ =>
    let s := s.arpPut x hop { mac := some mac }
    .next (((s.connsOn x hop).filter (fun c => (s.conn c).state = .resolving)).foldl (fun s c =>
      (s.setConn c { s.conn c with state := .connecting }).ethTx x "connect" (leBytes 1 (c / 2))) s)

/-- R333: an ARP request or Neighbor Solicitation for the port's own address is answered. -/
def execAddrResAnswer (x ip : Nat) (s : State) : Host.Outcome State Fault Refusal :=
  if x < 2 && (s.ethPort x).up && ip = s.ownIp x then
    .next (s.emit (.eth x (if isV4 ip then "arp_reply" else "neighbor_advertisement") (s.cfgBytes (rEth x) 6)))
  else .next s

/-- R333: 50 s after its last confirmation an entry in use is asked for once more. -/
def execAddrEntryRefresh (x hop : Nat) (s : State) : Host.Outcome State Fault Refusal :=
  match tget none (s.ethPort x).arp hop with
  | some e => if e.mac.isSome && !(s.connsOn x hop).isEmpty then .next (s.arpAsk x hop) else .next s
  | none => .next s

/-- R333: 60 s after its last confirmation an entry is no longer valid. -/
def execAddrEntryExpiry (x hop : Nat) (s : State) : Host.Outcome State Fault Refusal :=
  let p := s.ethPort x
  match tget none p.arp hop with
  | some e => if e.mac.isSome then .next (s.setEthPort x { p with arp := tset none p.arp hop none }) else .next s
  | none => .next s

/-- R332, R333: a port comes up and announces its address. -/
def execEthPortUp (x : Nat) (s : State) : Host.Outcome State Fault Refusal :=
  if s.ethCan x && !(s.ethPort x).up then
    .next ((s.setEthPort x { up := true }).emit
      (.eth x (if isV4 (s.ownIp x) then "gratuitous_arp" else "unsolicited_advertisement") (s.cfgBytes (rEth x) 6)))
  else .next s

/-- R333: a port goes down. Records whose target has no other path fail. -/
def execEthPortDown (x : Nat) (s : State) : Host.Outcome State Fault Refusal :=
  if (s.ethPort x).up then
    let ts := ((s.eth.conn.map Prod.fst).filter (fun c => c % 2 = x)).map (· / 2)
    .next (ts.foldl State.tgtLost (s.ethDown x))
  else .next s

end Sys2Proof.Machine
end

