-- ==== Sys2Proof/Machine/Mem.lean ====
section
/-! DEFINITION. Stacks, zero-fill, the scrubber and repairs (chapter 8). -/

namespace Sys2Proof.Machine

/-- R192, R193: training ends. When all four stacks of a die are READY the initialisation bits clear; a failure is C3. -/
def execStackTrainingDone (n : Nat) (ok : Bool) (s : State) : Host.Outcome State Fault Refusal :=
  let x := tget {} s.mem.stack n
  if x.state ≠ .training then .next s
  else
    let s := { s with mem := { s.mem with stack := tset {} s.mem.stack n { x with state := if ok then .ready else .failed } } }
    if !ok then .next (s.faultC3 0x0B (uStack n))
    else if s.dieReady (n / 4) then
      let die := n / 4
      .next { s with mem := { s.mem with
        bytes := tclear s.mem.bytes (0x2000000000 * die) (0x2000000000 * (die + 1))
        poison := tclear s.mem.poison (0x80000000 * die) (0x80000000 * (die + 1))
        init := tclear s.mem.init (65536 * die) (65536 * (die + 1)) } }
    else .next s

/-- Blocks of a die already initialised. -/
def Mem.initCount (m : Mem) (die : Nat) : Nat :=
  (m.init.filter (fun e => decide (65536 * die ≤ e.1) && decide (e.1 < 65536 * (die + 1)))).length

/-- R193: the next block in ascending order is filled with zeros, as its bytes already read. -/
def execHbmZeroFillBlock (die block : Nat) (s : State) : Host.Outcome State Fault Refusal :=
  let b := 65536 * die + block
  let below := (s.mem.init.filter (fun e => decide (65536 * die ≤ e.1) && decide (e.1 < b))).length
  if die < 2 && block < 65536 && s.dieReady die && !tget false s.mem.init b && below = block then
    .next { s with mem := { s.mem with init := tset false s.mem.init b true } }
  else .next s

/-- R201: a transfer failed some times; with a success on retry it is a C0 fault, the fifth failure ends the stack. -/
def execHbmTransferRetry (n failures : Nat) (s : State) : Host.Outcome State Fault Refusal :=
  let x := tget {} s.mem.stack n
  if failures = 0 || x.state = .off || x.state = .failed then .next s
  else
    let s := s.bump (bMEM + 0x210 + 0x20 * n) (min failures 4)
    if failures < 5 then .next (s.faultC0 0x09 (uStack n))
    else .next ({ s with mem := { s.mem with stack := tset {} s.mem.stack n { x with state := .failed } } }.faultC3 0x0A (uStack n))

/-- The next line to scrub at or above an address: on a die that is READY, in an initialised block (R202, R193). -/
def State.scrubLine (s : State) (a : Nat) : Option Nat :=
  (s.mem.init.find? (fun e => e.2 && s.dieReady (e.1 / 65536) && a < 0x200000 * (e.1 + 1))).map (fun e => max a (0x200000 * e.1))

/-- R202 to R204: one HBM scrub read. -/
def execScrubRead (err : MemErr) (overwritten : Bool) (s : State) : Host.Outcome State Fault Refusal :=
  if !s.cb (bMEM + 0x20) 0 || !s.mainRunning then .next s
  else match s.scrubLine s.mem.scrubPos with
    | none => .next { s with mem := { s.mem with scrubPos := 0 } }
    | some a =>
      let s := match err with
        | .none => s
        | .ce => s.memCe a
        | .ue => s.memUe a 1 overwritten
      let s := { s with mem := { s.mem with scrubPos := a + 64 } }
      if (s.scrubLine (a + 64)).isSome then .next s
      else .next ({ s with mem := { s.mem with scrubPos := 0 } }.bump (bMEM + 0x30) 1)

/-- R202: a scrub read of a word of the Depot, a powered Bay, or the Ledger store (`store`, at an offset in it). -/
def execSramScrubRead (addr : Nat) (store : Bool) (err : MemErr) (s : State) : Host.Outcome State Fault Refusal :=
  let a := if store then storeAddr (addr % 2 ^ 26) else addr
  let ok := store || (match region addr with
    | some (.depot _) => true
    | some (.bay n) => s.domOn (bayDom n)
    | _ => false)
  let src := if store then 4 else match region addr with | some (.bay _) => 3 | _ => 2
  if !s.cb (bMEM + 0x20) 1 || !s.mainRunning || !ok then .next s
  else match err with
    | .none => .next s
    | .ce => .next (s.memCe a)
    | .ue => .next (s.memUe a src)

/-- Lines that a range of bytes touches. -/
def linesOf (a n : Nat) : List Nat := if n = 0 then [] else span (a / 64) ((a + n - 1) / 64 - a / 64 + 1)

/-- R204: the data of the oldest repair arrive, or its re-fetch fails. A rewritten line loses its poison once none of its
rows still waits and none was mapped to the default row. -/
def execRepairRefetchDone (data : Option (List Byte)) (s : State) : Host.Outcome State Fault Refusal :=
  match s.mem.repairs with
  | [] => .next s
  | r :: rs =>
    let s := { s with mem := { s.mem with repairs := rs } }
    match data with
    | some b =>
      if b.length ≠ r.bytes then .next (s.mapToDefault { table := r.table, version := r.version, row := r.row })
      else
        let s := s.store r.addr b
        let busy (l : Nat) : Bool := rs.any (fun q => (linesOf q.addr q.bytes).contains l)
        let lost (l : Nat) : Bool := match s.verFind r.table r.version with
          | some v => (rowsAt (s.tblDesc s.gen r.table) v l).any (fun n =>
              s.gth.remap.any (fun e => e.2 = some { table := r.table, version := r.version, row := s.rowName (s.tblDesc s.gen r.table) n }))
          | none => false
        .next ((linesOf r.addr r.bytes).foldl (fun s l =>
          if busy l || lost l then s else { s with mem := s.mem.setPoison l false }) s)
    | none => .next (s.mapToDefault { table := r.table, version := r.version, row := r.row })

end Sys2Proof.Machine
end

