-- ==== Sys2Proof/Machine/Pins.lean ====
section
/-! DEFINITION. Resets at the pins and the start of PCIe training (chapter 2). -/

namespace Sys2Proof.Machine

/-- R48, R91: a cold reset; the straps are no longer held, and a device asleep wakes. -/
def execPorstNAssert (s : State) : Host.Outcome State Fault Refusal :=
  if !s.pins.sby then .next s
  else
    let s := s.coldReset
    let s := { s with pins := { s.pins with porst := false, perst := false, straps := none } }
    .next (if s.aon.asleep && !s.pins.thermTrip then
      { s with aon := { s.aon with asleep := false }, pins := { s.pins with mainPwrEn := true } } else s)

/-- R44, R119: PORST_N rises: the straps are sampled and the cold start begins. -/
def execPorstNRelease (straps : Straps) (s : State) : Host.Outcome State Fault Refusal :=
  if s.pins.porst || !s.pins.sby then .next s
  else
    let s := { s with pins := { s.pins with porst := true, straps := some straps } }
    .next (if s.mainRunning then s.coldStart else s)

/-- R49: WRST_N low past its filter: the drain of the write-combining buffers begins; ignored while PORST_N is low. -/
def execWrstNAssert (s : State) : Host.Outcome State Fault Refusal :=
  if s.bootRuns then .next { s with pins := { s.pins with warmDrain := true } } else .next s

/-- R628: Modified lines of the coherent cache are written back; the `lost` last ones are not. -/
def State.ccWriteBack (s : State) (lost : Nat) : State :=
  let dirty := s.hif.cc.filterMap (fun e => match e.2 with
    | some l => if l.st = .modified then some (e.1, l.data) else none
    | none => none)
  let keep := if s.hostUp then dirty.length - lost else 0
  let s := (dirty.take keep).foldl (fun s e => s.hostPost (64 * e.1) e.2) s
  s.errN (bHIF + 0x1048) (dirty.length - keep)

/-- Lines of device memory whose buffered stores were lost hold free values (R652). -/
def State.wcLose (s : State) (lost : List Nat) : State :=
  lost.foldl (fun s l => (s.fresh (fun k s =>
    if (region (64 * l)).isSome then
      { s with mem := s.mem.wrs (64 * l) ((List.range 64).map (fun i => BitVec.ofNat 8 (Config.freeValue k i))) }
    else s)).err (bFLT + 0x1040)) s

/-- R49, R652: the drain ends with the lines it could not write, and the warm reset takes effect. -/
def execWarmResetDrainEnd (lost : List Nat) (ccLost : Nat) (s : State) : Host.Outcome State Fault Refusal :=
  if s.pins.warmDrain then .next ((s.ccWriteBack ccLost).wcLose lost).warmReset else .next s

/-- R50, R157, R621: PERST_N low resets HIF and the link, and ends the host session of the Vault. -/
def execPerstNAssert (s : State) : Host.Outcome State Fault Refusal :=
  let s := { s with
    pins := { s.pins with perst := false }
    vlt := { s.vlt with host := s.vlt.host.ended } }
  if s.powered 1 then
    let s := s.hifReset true
    .next { s with hif := { s.hif with training := false } }
  else .next s

/-- R50: both PORST_N and PERST_N are high and the link trains. A part in factory test keeps the link untrained (R45). -/
def execPcieTrainingStart (s : State) : Host.Outcome State Fault Refusal :=
  if s.bootRuns && (s.pins.straps.getD {}).test.val = 0 && s.domOn 1 && !s.hif.linkUp && !tget false s.clk.lost 1 then
    .next { s with pins := { s.pins with perst := true }, hif := { s.hif with training := true } }
  else .next s

end Sys2Proof.Machine
end

