-- ==== Sys2Proof/Machine/Port.lean ====
section
/-! DEFINITION. The debug transport (R672 to R675). -/

namespace Sys2Proof.Machine

/-- The transport runs: the BOOT logic runs, in every boot state but FACTORY_TEST (R45, R672), and no earlier request
awaits its answer (R673). -/
def State.portRuns (s : State) : Bool := s.bootRuns && s.boot.state ≠ .factoryTest && s.dbg.waiting.isNone

/-- The response to a request (R673). -/
def State.respond (s : State) (tag status : Nat) (data : List Byte := []) : State := s.emit (.debug tag status data)

/-- An operation other than IDCODE: DENIED while the port is closed (R672), INVALID for a bad address (R674). -/
def State.debugOp (s : State) (tag : Nat) (ok : Bool) (f : State → State) : State :=
  if !s.portRuns then s
  else if !s.dbgOpen then s.respond tag stDENIED
  else if !ok then s.respond tag stINVALID
  else f s

/-- R672, R674: IDCODE returns GLB_ID whether the port is open or closed. -/
def execIdcode (tag : Nat) (s : State) : Host.Outcome State Fault Refusal :=
  if s.portRuns then .next (s.respond tag stOK (leBytes 8 (s.viewGlb 0))) else .next s

/-- A peek: its answer, or the wait for one (R19, R444, R675). -/
def State.peek (s : State) (tag off size : Nat) : State :=
  match s.barRead .debug off size with
  | (t, some v) => t.respond tag stOK (leBytes size v)
  | (t, none) => { t with dbg := { t.dbg with waiting := some tag } }

/-- An offset that a debug access of a size can name. -/
def barOk (off size : Nat) : Bool := off < barSize && off % size = 0

/-- R675: a 32-bit peek. -/
def execPeek32 (tag off : Nat) (s : State) : Host.Outcome State Fault Refusal :=
  .next (s.debugOp tag (barOk off 4) (fun s => s.peek tag off 4))

/-- R675: a 64-bit peek. -/
def execPeek64 (tag off : Nat) (s : State) : Host.Outcome State Fault Refusal :=
  .next (s.debugOp tag (barOk off 8) (fun s => s.peek tag off 8))

/-- R674: a 32-bit write. -/
def execWrite32 (tag off v : Nat) (s : State) : Host.Outcome State Fault Refusal :=
  .next (s.debugOp tag (barOk off 4) (fun s => (s.barWrite .debug off 4 v).respond tag stOK))

/-- R674: a 64-bit write. -/
def execWrite64 (tag off v : Nat) (s : State) : Host.Outcome State Fault Refusal :=
  .next (s.debugOp tag (barOk off 8) (fun s => (s.barWrite .debug off 8 v).respond tag stOK))

/-- A device address that a debug operation can name. -/
def lineOk (a : Nat) : Bool := a % 64 = 0 && (region a).isSome

/-- R675: a peek of a line of device memory. A poisoned line comes with its raw data and status POISON. -/
def execMempeek (tag a : Nat) (s : State) : Host.Outcome State Fault Refusal :=
  .next (s.debugOp tag (lineOk a) (fun s =>
    if !s.reachable a then s.respond tag stFENCED
    else s.respond tag (if s.mem.poisoned a then stPOISON else stOK) (s.mem.rds a 64)))

/-- R198, R674: a write of a whole line. -/
def execMemwrite (tag a : Nat) (data : List Byte) (s : State) : Host.Outcome State Fault Refusal :=
  .next (s.debugOp tag (lineOk a) (fun s =>
    if !s.reachable a then s.respond tag stFENCED
    else (s.store a ((data ++ leBytes 64 0).take 64)).respond tag stOK))

/-- R673: an answer is not ready within 1 ms. The access completes later without a response. -/
def execDebugAnswerTimeout (s : State) : Host.Outcome State Fault Refusal :=
  match s.dbg.waiting with
  | some tag =>
    let give (h : HeldRead) : HeldRead := if h.path = .debug then { h with wanted := false } else h
    .next ({ s with
      dbg := { s.dbg with waiting := none }
      azm := { s.azm with held := s.azm.held.map give } }.respond tag stTIMEOUT)
  | none => .next s

/-- R673, R674: a request with a wrong CRC gets no response; one with another op or a bad address gets INVALID. -/
def execDebugRequestInvalid (tag : Nat) (crcBad : Bool) (s : State) : Host.Outcome State Fault Refusal :=
  if crcBad then .next s else .next (s.debugOp tag false id)

end Sys2Proof.Machine
end

