-- ==== Sys2Proof/Machine/Dispatch.lean ====
section
/-! DEFINITION. One arm per constructor of Instr: a direct call of its meaning. -/

namespace Sys2Proof.Machine

def exec (i : Instr) (s : State) : Host.Outcome State Fault Refusal :=
  match i with
  | .registerWrite p off size v => Sys2Proof.Machine.execRegisterWrite p off size v s
  | .stagedWrite p off v => Sys2Proof.Machine.execStagedWrite p off v s
  | .rcRead p off size => Sys2Proof.Machine.execRcRead p off size s
  | .splitReadLow p off => Sys2Proof.Machine.execSplitReadLow p off s
  | .porstNAssert => Sys2Proof.Machine.execPorstNAssert s
  | .porstNRelease straps => Sys2Proof.Machine.execPorstNRelease straps s
  | .wrstNAssert => Sys2Proof.Machine.execWrstNAssert s
  | .warmResetDrainEnd lost ccLost => Sys2Proof.Machine.execWarmResetDrainEnd lost ccLost s
  | .perstNAssert => Sys2Proof.Machine.execPerstNAssert s
  | .pcieTrainingStart => Sys2Proof.Machine.execPcieTrainingStart s
  | .configRequest write reg v => Sys2Proof.Machine.execConfigRequest write reg v s
  | .configRetryEnd => Sys2Proof.Machine.execConfigRetryEnd s
  | .refclkLoss c => Sys2Proof.Machine.execRefclkLoss c s
  | .demandDecision n demandUs aboveAll idleHalf => Sys2Proof.Machine.execDemandDecision n demandUs aboveAll idleHalf s
  | .freqStep n => Sys2Proof.Machine.execFreqStep n s
  | .voltageStep n => Sys2Proof.Machine.execVoltageStep n s
  | .voltageTrim n slack => Sys2Proof.Machine.execVoltageTrim n slack s
  | .droop n => Sys2Proof.Machine.execDroop n s
  | .stretchEnd n => Sys2Proof.Machine.execStretchEnd n s
  | .limitEntry n => Sys2Proof.Machine.execLimitEntry n s
  | .limitCeilingRise n => Sys2Proof.Machine.execLimitCeilingRise n s
  | .timingLimitFault n => Sys2Proof.Machine.execTimingLimitFault n s
  | .eqAdaptUpdate l param up => Sys2Proof.Machine.execEqAdaptUpdate l param up s
  | .shadowRecalStart l => Sys2Proof.Machine.execShadowRecalStart l s
  | .sliceSwap l shadowEyeH shadowEyeW => Sys2Proof.Machine.execSliceSwap l shadowEyeH shadowEyeW s
  | .losAssert l => Sys2Proof.Machine.execLosAssert l s
  | .losDeassert l amp => Sys2Proof.Machine.execLosDeassert l amp s
  | .clkSdFreeze p l freeze => Sys2Proof.Machine.execClkSdFreeze p l freeze s
  | .pwrDomReq p d on => Sys2Proof.Machine.execPwrDomReq p d on s
  | .domainPoweringStart d => Sys2Proof.Machine.execDomainPoweringStart d s
  | .domainPowerOnDone d => Sys2Proof.Machine.execDomainPowerOnDone d s
  | .domainDrainDone d => Sys2Proof.Machine.execDomainDrainDone d s
  | .drainLimitExpiry d => Sys2Proof.Machine.execDrainLimitExpiry d s
  | .domainPowerOffDone d => Sys2Proof.Machine.execDomainPowerOffDone d s
  | .domainOffScanDone d => Sys2Proof.Machine.execDomainOffScanDone d s
  | .standbyRailUp vaultOk => Sys2Proof.Machine.execStandbyRailUp vaultOk s
  | .sbyDetectorArm => Sys2Proof.Machine.execSbyDetectorArm s
  | .standbyRailLoss => Sys2Proof.Machine.execStandbyRailLoss s
  | .mainPgTimeout => Sys2Proof.Machine.execMainPgTimeout s
  | .mainPgFall => Sys2Proof.Machine.execMainPgFall s
  | .mainPgRise => Sys2Proof.Machine.execMainPgRise s
  | .aonSleep p => Sys2Proof.Machine.execAonSleep p s
  | .sleepEntryComplete => Sys2Proof.Machine.execSleepEntryComplete s
  | .flashAbortAtSleep => Sys2Proof.Machine.execFlashAbortAtSleep s
  | .wakeComparatorFire b => Sys2Proof.Machine.execWakeComparatorFire b s
  | .aonRtcSet p size v => Sys2Proof.Machine.execAonRtcSet p size v s
  | .rtcOscFail => Sys2Proof.Machine.execRtcOscFail s
  | .pfTrip => Sys2Proof.Machine.execPfTrip s
  | .pfRearm => Sys2Proof.Machine.execPfRearm s
  | .journalFlushDone => Sys2Proof.Machine.execJournalFlushDone s
  | .thermalTick cd0 cd1 iod => Sys2Proof.Machine.execThermalTick cd0 cd1 iod s
  | .thermalAlert die => Sys2Proof.Machine.execThermalAlert die s
  | .thermalAlertRelease => Sys2Proof.Machine.execThermalAlertRelease s
  | .thermalTrip die => Sys2Proof.Machine.execThermalTrip die s
  | .thermtripRelease => Sys2Proof.Machine.execThermtripRelease s
  | .powerCapTick power dom => Sys2Proof.Machine.execPowerCapTick power dom s
  | .flashInitDone ok octal vaultOk densLog2 => Sys2Proof.Machine.execFlashInitDone ok octal vaultOk densLog2 s
  | .calDone => Sys2Proof.Machine.execCalDone s
  | .verifyDone => Sys2Proof.Machine.execVerifyDone s
  | .wr32 => Sys2Proof.Machine.execWr32 s
  | .wr64 => Sys2Proof.Machine.execWr64 s
  | .poll32 => Sys2Proof.Machine.execPoll32 s
  | .poll32Timeout => Sys2Proof.Machine.execPoll32Timeout s
  | .waitRec => Sys2Proof.Machine.execWaitRec s
  | .loadRec => Sys2Proof.Machine.execLoadRec s
  | .endRec => Sys2Proof.Machine.execEndRec s
  | .flashRead p => Sys2Proof.Machine.execFlashRead p s
  | .flashProgram p => Sys2Proof.Machine.execFlashProgram p s
  | .flashErase p => Sys2Proof.Machine.execFlashErase p s
  | .flashStatus p => Sys2Proof.Machine.execFlashStatus p s
  | .flashCmdDone status => Sys2Proof.Machine.execFlashCmdDone status s
  | .flashCmdTimeout => Sys2Proof.Machine.execFlashCmdTimeout s
  | .bootRetry p => Sys2Proof.Machine.execBootRetry p s
  | .stgCommit p => Sys2Proof.Machine.execStgCommit p s
  | .stgDiscard p => Sys2Proof.Machine.execStgDiscard p s
  | .commitCheckEnd => Sys2Proof.Machine.execCommitCheckEnd s
  | .commitWaitEnd => Sys2Proof.Machine.execCommitWaitEnd s
  | .commitWaitTimeout => Sys2Proof.Machine.execCommitWaitTimeout s
  | .commitApply => Sys2Proof.Machine.execCommitApply s
  | .getStatus dbg => Sys2Proof.Machine.execGetStatus dbg s
  | .authBegin dbg => Sys2Proof.Machine.execAuthBegin dbg s
  | .authProve dbg => Sys2Proof.Machine.execAuthProve dbg s
  | .logout dbg => Sys2Proof.Machine.execLogout dbg s
  | .kekImport dbg => Sys2Proof.Machine.execKekImport dbg s
  | .kekDestroy dbg => Sys2Proof.Machine.execKekDestroy dbg s
  | .keyLoad dbg => Sys2Proof.Machine.execKeyLoad dbg s
  | .keyDestroy dbg => Sys2Proof.Machine.execKeyDestroy dbg s
  | .keyQuery dbg => Sys2Proof.Machine.execKeyQuery dbg s
  | .getRandom dbg => Sys2Proof.Machine.execGetRandom dbg s
  | .fuseImageKey dbg => Sys2Proof.Machine.execFuseImageKey dbg s
  | .revokeImageKey dbg => Sys2Proof.Machine.execRevokeImageKey dbg s
  | .advanceSvn dbg => Sys2Proof.Machine.execAdvanceSvn dbg s
  | .lockDebug dbg => Sys2Proof.Machine.execLockDebug dbg s
  | .fuseOwnerKey dbg => Sys2Proof.Machine.execFuseOwnerKey dbg s
  | .setApproved dbg => Sys2Proof.Machine.execSetApproved dbg s
  | .zeroise dbg => Sys2Proof.Machine.execZeroise dbg s
  | .tamperClear dbg active => Sys2Proof.Machine.execTamperClear dbg active s
  | .decommission dbg => Sys2Proof.Machine.execDecommission dbg s
  | .selfTest dbg pass => Sys2Proof.Machine.execSelfTest dbg pass s
  | .mailboxUnknownService dbg => Sys2Proof.Machine.execMailboxUnknownService dbg s
  | .sessionIdleTimeout dbg => Sys2Proof.Machine.execSessionIdleTimeout dbg s
  | .authLockoutEnd dbg => Sys2Proof.Machine.execAuthLockoutEnd dbg s
  | .drbgReseed => Sys2Proof.Machine.execDrbgReseed s
  | .entropyHealthFail => Sys2Proof.Machine.execEntropyHealthFail s
  | .tamperEvent source => Sys2Proof.Machine.execTamperEvent source s
  | .spdmRequest doe => Sys2Proof.Machine.execSpdmRequest doe s
  | .stackTrainingDone n ok => Sys2Proof.Machine.execStackTrainingDone n ok s
  | .hbmZeroFillBlock die block => Sys2Proof.Machine.execHbmZeroFillBlock die block s
  | .hbmTransferRetry n failures => Sys2Proof.Machine.execHbmTransferRetry n failures s
  | .scrubRead err overwritten => Sys2Proof.Machine.execScrubRead err overwritten s
  | .sramScrubRead addr store err => Sys2Proof.Machine.execSramScrubRead addr store err s
  | .repairRefetchDone data => Sys2Proof.Machine.execRepairRefetchDone data s
  | .glbQDb p q tail => Sys2Proof.Machine.execGlbQDb p q tail s
  | .glbQCplhead p q v => Sys2Proof.Machine.execGlbQCplhead p q v s
  | .queueAbort p q => Sys2Proof.Machine.execQueueAbort p q s
  | .queueResume p q => Sys2Proof.Machine.execQueueResume p q s
  | .commandFetch q => Sys2Proof.Machine.execCommandFetch q s
  | .commandIssue q => Sys2Proof.Machine.execCommandIssue q s
  | .nop t => Sys2Proof.Machine.execNop t s
  | .commandComplete t => Sys2Proof.Machine.execCommandComplete t s
  | .completionStallRelease t => Sys2Proof.Machine.execCompletionStallRelease t s
  | .irqHoldoffExpiry q => Sys2Proof.Machine.execIrqHoldoffExpiry q s
  | .glbSem p n v => Sys2Proof.Machine.execGlbSem p n v s
  | .glbSemAdd p n v => Sys2Proof.Machine.execGlbSemAdd p n v s
  | .transferGrant port => Sys2Proof.Machine.execTransferGrant port s
  | .transferDone x err => Sys2Proof.Machine.execTransferDone x err s
  | .rateWindowUpdate => Sys2Proof.Machine.execRateWindowUpdate s
  | .bucketRefill => Sys2Proof.Machine.execBucketRefill s
  | .qRecompute => Sys2Proof.Machine.execQRecompute s
  | .yieldSwitch n t => Sys2Proof.Machine.execYieldSwitch n t s
  | .telSat n c => Sys2Proof.Machine.execTelSat n c s
  | .tileComplete t k => Sys2Proof.Machine.execTileComplete t k s
  | .paramLoadStart n t => Sys2Proof.Machine.execParamLoadStart n t s
  | .paramLoadDone n t => Sys2Proof.Machine.execParamLoadDone n t s
  | .ledgerInitDone => Sys2Proof.Machine.execLedgerInitDone s
  | .batchAdmit => Sys2Proof.Machine.execBatchAdmit s
  | .sampleDeadline slot => Sys2Proof.Machine.execSampleDeadline slot s
  | .pinSetCreate p table version => Sys2Proof.Machine.execPinSetCreate p table version s
  | .checkpointTimer => Sys2Proof.Machine.execCheckpointTimer s
  | .journalEntryWrite => Sys2Proof.Machine.execJournalEntryWrite s
  | .fetch t k => Sys2Proof.Machine.execFetch t k s
  | .fetchWaitExpiry t => Sys2Proof.Machine.execFetchWaitExpiry t s
  | .recordDone t n data => Sys2Proof.Machine.execRecordDone t n data s
  | .hostFetchTimeout t n => Sys2Proof.Machine.execHostFetchTimeout t n s
  | .nvmeConnect tgt port ok ns => Sys2Proof.Machine.execNvmeConnect tgt port ok ns s
  | .nvmeResponse tgt port cid status => Sys2Proof.Machine.execNvmeResponse tgt port cid status s
  | .fabricCmdTimeout tgt port cid => Sys2Proof.Machine.execFabricCmdTimeout tgt port cid s
  | .quarantineReconnect tgt port cid => Sys2Proof.Machine.execQuarantineReconnect tgt port cid s
  | .keepAlive tgt => Sys2Proof.Machine.execKeepAlive tgt s
  | .rocePacketRx tgt port op psn ecn => Sys2Proof.Machine.execRocePacketRx tgt port op psn ecn s
  | .ethFrameDiscard x => Sys2Proof.Machine.execEthFrameDiscard x s
  | .addrResRequest x hop => Sys2Proof.Machine.execAddrResRequest x hop s
  | .addrResReply x hop mac => Sys2Proof.Machine.execAddrResReply x hop mac s
  | .addrResAnswer x ip => Sys2Proof.Machine.execAddrResAnswer x ip s
  | .addrEntryRefresh x hop => Sys2Proof.Machine.execAddrEntryRefresh x hop s
  | .addrEntryExpiry x hop => Sys2Proof.Machine.execAddrEntryExpiry x hop s
  | .ethPortUp x => Sys2Proof.Machine.execEthPortUp x s
  | .decodeImage t k => Sys2Proof.Machine.execDecodeImage t k s
  | .decodeVideo t k => Sys2Proof.Machine.execDecodeVideo t k s
  | .tokenize t k => Sys2Proof.Machine.execTokenize t k s
  | .transform t k => Sys2Proof.Machine.execTransform t k s
  | .matmul t k => Sys2Proof.Machine.execMatmul t k s
  | .vqSearch t k => Sys2Proof.Machine.execVqSearch t k s
  | .rowop t k => Sys2Proof.Machine.execRowop t k s
  | .glbAzmGo p => Sys2Proof.Machine.execGlbAzmGo p s
  | .azmBlockReady => Sys2Proof.Machine.execAzmBlockReady s
  | .gather t k => Sys2Proof.Machine.execGather t k s
  | .pool t k => Sys2Proof.Machine.execPool t k s
  | .prefetch t k => Sys2Proof.Machine.execPrefetch t k s
  | .gatherReq => Sys2Proof.Machine.execGatherReq s
  | .gatherRsp => Sys2Proof.Machine.execGatherRsp s
  | .pooledSum => Sys2Proof.Machine.execPooledSum s
  | .remoteTimeout n => Sys2Proof.Machine.execRemoteTimeout n s
  | .readSlotRelease n => Sys2Proof.Machine.execReadSlotRelease n s
  | .heatWindowEnd => Sys2Proof.Machine.execHeatWindowEnd s
  | .versionSlotFree t v => Sys2Proof.Machine.execVersionSlotFree t v s
  | .sample t k => Sys2Proof.Machine.execSample t k s
  | .sampleWaitExpiry t => Sys2Proof.Machine.execSampleWaitExpiry t s
  | .logitPage => Sys2Proof.Machine.execLogitPage s
  | .smpSeqKill p id => Sys2Proof.Machine.execSmpSeqKill p id s
  | .deposit t k => Sys2Proof.Machine.execDeposit t k s
  | .depositSeq t k => Sys2Proof.Machine.execDepositSeq t k s
  | .stepPageDrop ep ctr => Sys2Proof.Machine.execStepPageDrop ep ctr s
  | .layoutRead p => Sys2Proof.Machine.execLayoutRead p s
  | .batchBuildDone e => Sys2Proof.Machine.execBatchBuildDone e s
  | .offerStart k => Sys2Proof.Machine.execOfferStart k s
  | .batchAck => Sys2Proof.Machine.execBatchAck s
  | .hostOfferDone p => Sys2Proof.Machine.execHostOfferDone p s
  | .holdTimeout k => Sys2Proof.Machine.execHoldTimeout k s
  | .pakHostHead p n v => Sys2Proof.Machine.execPakHostHead p n v s
  | .frameStart port vc num => Sys2Proof.Machine.execFrameStart port vc num s
  | .longPacket port vc dt hdrOk crcOk data => Sys2Proof.Machine.execLongPacket port vc dt hdrOk crcOk data s
  | .frameEnd port vc num => Sys2Proof.Machine.execFrameEnd port vc num s
  | .frameLatch l => Sys2Proof.Machine.execFrameLatch l s
  | .ptpSync src off => Sys2Proof.Machine.execPtpSync src off s
  | .servoHoldover => Sys2Proof.Machine.execServoHoldover s
  | .tsInCapture n rising => Sys2Proof.Machine.execTsInCapture n rising s
  | .senTsPop p n size => Sys2Proof.Machine.execSenTsPop p n size s
  | .trigEdge t => Sys2Proof.Machine.execTrigEdge t s
  | .fusionClose g => Sys2Proof.Machine.execFusionClose g s
  | .capture t k => Sys2Proof.Machine.execCapture t k s
  | .captureWaitExpiry t => Sys2Proof.Machine.execCaptureWaitExpiry t s
  | .copy t k => Sys2Proof.Machine.execCopy t k s
  | .gatherRows t k => Sys2Proof.Machine.execGatherRows t k s
  | .scatterRows t k => Sys2Proof.Machine.execScatterRows t k s
  | .pmdTrainDone p => Sys2Proof.Machine.execPmdTrainDone p s
  | .fecLockDone p => Sys2Proof.Machine.execFecLockDone p s
  | .flitSyncDone p => Sys2Proof.Machine.execFlitSyncDone p s
  | .initFlit p version kind port id count adv seen ack cum => Sys2Proof.Machine.execInitFlit p version kind port id count adv seen ack cum s
  | .trainingTimeout p => Sys2Proof.Machine.execTrainingTimeout p s
  | .retrainAttemptTimeout p => Sys2Proof.Machine.execRetrainAttemptTimeout p s
  | .flitSlotTx p => Sys2Proof.Machine.execFlitSlotTx p s
  | .dataFlitRx p vc seq payload ack cum => Sys2Proof.Machine.execDataFlitRx p vc seq payload ack cum s
  | .badFlit p => Sys2Proof.Machine.execBadFlit p s
  | .nakRepeat p => Sys2Proof.Machine.execNakRepeat p s
  | .nakRx p nak ack cum => Sys2Proof.Machine.execNakRx p nak ack cum s
  | .replayTimer p => Sys2Proof.Machine.execReplayTimer p s
  | .retryExhausted p => Sys2Proof.Machine.execRetryExhausted p s
  | .messageRx p v => Sys2Proof.Machine.execMessageRx p v s
  | .fecWarn p uncorrectable => Sys2Proof.Machine.execFecWarn p uncorrectable s
  | .echoReq => Sys2Proof.Machine.execEchoReq s
  | .echoRsp => Sys2Proof.Machine.execEchoRsp s
  | .echoSend => Sys2Proof.Machine.execEchoSend s
  | .unreachTimeout toEp d => Sys2Proof.Machine.execUnreachTimeout toEp d s
  | .stepTokenIssue => Sys2Proof.Machine.execStepTokenIssue s
  | .stepToken => Sys2Proof.Machine.execStepToken s
  | .stepDone => Sys2Proof.Machine.execStepDone s
  | .stepDeadline => Sys2Proof.Machine.execStepDeadline s
  | .rootBeatSend => Sys2Proof.Machine.execRootBeatSend s
  | .rootBeat => Sys2Proof.Machine.execRootBeat s
  | .leaseExpiry => Sys2Proof.Machine.execLeaseExpiry s
  | .claimSend => Sys2Proof.Machine.execClaimSend s
  | .rootClaim => Sys2Proof.Machine.execRootClaim s
  | .rootAck => Sys2Proof.Machine.execRootAck s
  | .rootNack => Sys2Proof.Machine.execRootNack s
  | .joinSend => Sys2Proof.Machine.execJoinSend s
  | .join => Sys2Proof.Machine.execJoin s
  | .leave => Sys2Proof.Machine.execLeave s
  | .memberStatSend => Sys2Proof.Machine.execMemberStatSend s
  | .memberStat => Sys2Proof.Machine.execMemberStat s
  | .nglFabPullGo p n => Sys2Proof.Machine.execNglFabPullGo p n s
  | .tablePull => Sys2Proof.Machine.execTablePull s
  | .tableChunk => Sys2Proof.Machine.execTableChunk s
  | .tablePullNak => Sys2Proof.Machine.execTablePullNak s
  | .pullTimeout n => Sys2Proof.Machine.execPullTimeout n s
  | .hotReset => Sys2Proof.Machine.execHotReset s
  | .linkDown => Sys2Proof.Machine.execLinkDown s
  | .functionLevelReset => Sys2Proof.Machine.execFunctionLevelReset s
  | .d3hotEntry => Sys2Proof.Machine.execD3hotEntry s
  | .bar2Access write off data n poison => Sys2Proof.Machine.execBar2Access write off data n poison s
  | .cxlMemRequest write h data n poison => Sys2Proof.Machine.execCxlMemRequest write h data n poison s
  | .hostReadCompletion tag st data => Sys2Proof.Machine.execHostReadCompletion tag st data s
  | .completionTimeout tag => Sys2Proof.Machine.execCompletionTimeout tag s
  | .snpdata l => Sys2Proof.Machine.execSnpdata l s
  | .snpinv l => Sys2Proof.Machine.execSnpinv l s
  | .snpcur l => Sys2Proof.Machine.execSnpcur l s
  | .cxlGo l excl data => Sys2Proof.Machine.execCxlGo l excl data s
  | .goWritepull l => Sys2Proof.Machine.execGoWritepull l s
  | .goWritepullDrop l => Sys2Proof.Machine.execGoWritepullDrop l s
  | .hifCcFlush p => Sys2Proof.Machine.execHifCcFlush p s
  | .ccFlushDone => Sys2Proof.Machine.execCcFlushDone s
  | .msixVectorUnmask v => Sys2Proof.Machine.execMsixVectorUnmask v s
  | .doeObject proto data => Sys2Proof.Machine.execDoeObject proto data s
  | .doeAbort => Sys2Proof.Machine.execDoeAbort s
  | .healthFaultConfirm u pair prevGood released => Sys2Proof.Machine.execHealthFaultConfirm u pair prevGood released s
  | .c2RecoveryDone => Sys2Proof.Machine.execC2RecoveryDone s
  | .watchdogExpiry n => Sys2Proof.Machine.execWatchdogExpiry n s
  | .releaseGatePass => Sys2Proof.Machine.execReleaseGatePass s
  | .recoverySelfTestDone u pass => Sys2Proof.Machine.execRecoverySelfTestDone u pass s
  | .fltUnfence p u => Sys2Proof.Machine.execFltUnfence p u s
  | .fltInject p u wire => Sys2Proof.Machine.execFltInject p u wire s
  | .fltFirstClr p => Sys2Proof.Machine.execFltFirstClr p s
  | .instanceTest p target => Sys2Proof.Machine.execInstanceTest p target s
  | .islandTest p target => Sys2Proof.Machine.execIslandTest p target s
  | .serdesRecal p target => Sys2Proof.Machine.execSerdesRecal p target s
  | .bistDrained => Sys2Proof.Machine.execBistDrained s
  | .bistDeferred => Sys2Proof.Machine.execBistDeferred s
  | .bistTestDone fails => Sys2Proof.Machine.execBistTestDone fails s
  | .serdesRecalDone eyeH eyeW => Sys2Proof.Machine.execSerdesRecalDone eyeH eyeW s
  | .traceRecordWrite => Sys2Proof.Machine.execTraceRecordWrite s
  | .telTraceMark p v => Sys2Proof.Machine.execTelTraceMark p v s
  | .telTraceCtl p run => Sys2Proof.Machine.execTelTraceCtl p run s
  | .idcode tag => Sys2Proof.Machine.execIdcode tag s
  | .peek32 tag off => Sys2Proof.Machine.execPeek32 tag off s
  | .peek64 tag off => Sys2Proof.Machine.execPeek64 tag off s
  | .write32 tag off v => Sys2Proof.Machine.execWrite32 tag off v s
  | .write64 tag off v => Sys2Proof.Machine.execWrite64 tag off v s
  | .mempeek tag a => Sys2Proof.Machine.execMempeek tag a s
  | .memwrite tag a data => Sys2Proof.Machine.execMemwrite tag a data s
  | .debugAnswerTimeout => Sys2Proof.Machine.execDebugAnswerTimeout s
  | .dbgHaltInst p v => Sys2Proof.Machine.execDbgHaltInst p v s
  | .dbgHaltQ p j v => Sys2Proof.Machine.execDbgHaltQ p j v s
  | .instanceHalted n => Sys2Proof.Machine.execInstanceHalted n s
  | .tapIdcode => Sys2Proof.Machine.execTapIdcode s
  | .samplePreload sample preload => Sys2Proof.Machine.execSamplePreload sample preload s
  | .extest boundary => Sys2Proof.Machine.execExtest boundary s
  | .clamp => Sys2Proof.Machine.execClamp s
  | .highz => Sys2Proof.Machine.execHighz s
  | .bypass => Sys2Proof.Machine.execBypass s
  | .tapReset => Sys2Proof.Machine.execTapReset s
  | .pcieLinkUp rate width flit cache mem => Sys2Proof.Machine.execPcieLinkUp rate width flit cache mem s
  | .tagQuarantineEnd tag => Sys2Proof.Machine.execTagQuarantineEnd tag s
  | .ethPortDown x => Sys2Proof.Machine.execEthPortDown x s
  | .roceAckTimeout tgt port => Sys2Proof.Machine.execRoceAckTimeout tgt port s
  | .pfcFrameRx x prio pause => Sys2Proof.Machine.execPfcFrameRx x prio pause s
  | .ptpMessage src off => Sys2Proof.Machine.execPtpMessage src off s
  | .idleFlitRx p ack cum => Sys2Proof.Machine.execIdleFlitRx p ack cum s
  | .repairWaitTimeout t k => Sys2Proof.Machine.execRepairWaitTimeout t k s
  | .debugRequestInvalid tag crcBad => Sys2Proof.Machine.execDebugRequestInvalid tag crcBad s

end Sys2Proof.Machine
end

