-- ==== Sys2Proof/Machine/Tick.lean ====
section
/-!
DEFINITION. What one spine cycle of 0.5 ns does whatever is commanded: the clocks count, and every instance's cycle is
accounted (R94, R517, R518, R663, R678). A step on an empty queue is such a cycle (assumption log 1).
-/

namespace Sys2Proof.Machine

/-- The crystal of the real-time clock advances by half a nanosecond (R94). -/
def Aon.tick (x : Aon) : Aon :=
  if x.oscStopped then x
  else if x.rtcAcc + 32768 < 2000000000 then { x with rtcAcc := x.rtcAcc + 32768 }
  else { x with rtcAcc := x.rtcAcc + 32768 - 2000000000, rtc := (x.rtc + 1) % 2 ^ 64 }

/-- Fabric time and its servo advance by a spine cycle: a slew moves half a nanosecond in 5,000 cycles, 200 ppm (R518). -/
def State.timeTick (s : State) : State :=
  let v := s.servo
  let due := v.slew ≠ 0 && v.slewC + 1 ≥ 5000
  let d : Int := if !due then 0 else if v.slew < 0 then -1 else 1
  { s with
    spine := s.spine + 1
    time := ((s.time : Int) + 1 + d).toNat
    servo := { v with
      holdC := if v.state = .holdover then v.holdC + 1 else v.holdC
      slew := v.slew - d, slewC := if v.slew = 0 || due then 0 else v.slewC + 1 } }

/-- One cycle under a stall cause; the count stops with SAT (R266). -/
def State.stall (s : State) (n c : Nat) : State :=
  let a := bTEL + 0x10000 + 0x80 * n + 8 * c
  let k := wfld (s.reg a) 47 0
  if wbit (s.reg a) 63 then s
  else if k + 1 ≥ 2 ^ 48 - 1 then s.telSat n c
  else s.setReg a (BitVec.ofNat 64 (k + 1))

/-- An instance's current task waits for its parameter set (R292). -/
def State.paramWait (s : State) (n : Nat) : Bool :=
  match s.curTask n with
  | some t => (tget ({} : Inst) s.str.inst n).waitBank.contains t ||
      (tget ({} : Inst) s.str.inst n).banks.any (fun b => match b with | some b => b.users.contains t && !b.loaded | none => false)
  | none => false

/-- Account one cycle of an instance (R663, R265). Whether a task did work in the cycle, and why not, is timing, which
this model leaves free but for a debug halt and a parameter load. -/
def State.instCycle (s : State) (n : Nat) : State :=
  let x := tget ({} : Inst) s.str.inst n
  let cyc (k : Nat) (s : State) : State := s.bump (bTEL + 0x30000 + 0x20 * n + 8 * k) 1
  let pick := Config.freeValue s.free n
  if (s.tasksOn n).isEmpty then cyc 2 s
  else if x.switching ≠ 0 then
    cyc 1 { s with str := { s.str with inst := tset {} s.str.inst n { x with switching := x.switching - 1 } } }
  else if s.haltOf n = .halted then s.stall n 0
  else if s.paramWait n then s.stall n (1 + pick % 3)
  else if pick % 17 = 16 then cyc 0 s
  else s.stall n (pick % 17)

/-- The instance's cycles are counted: it is powered, not fenced and not under self-test (R663). -/
def State.counted (s : State) (n : Nat) : Bool :=
  s.powered (bayDom n) && !s.fencedU n && !(s.tel.bistPhase = .test && s.tel.scope.contains n)

/-- A spine cycle of an instance: its island completes a cycle when 2,000 MHz worth of its frequency has passed. -/
def State.instTick (s : State) (n : Nat) : State :=
  if !s.counted n then s
  else
    let x := tget ({} : Inst) s.str.inst n
    let ph := x.phase + (s.isl (bayIsland n)).f
    let s := { s with str := { s.str with inst := tset {} s.str.inst n { x with phase := ph % 80 } } }
    if ph < 80 then s else s.instCycle n

/-- A semaphore that the links of a command name (R236). -/
def linkNames (w : List Nat) (sem : Nat) : Bool :=
  (wb w 2 15 && sem / 2 = wd w 2 14 0) || (wb w 3 15 && sem / 2 = wd w 3 14 0)

/-- The queue's issue is halted (R677). -/
def State.queueHalted (s : State) (q : Nat) : Bool := wbit (s.reg (bDBG + 0x1000 + 8 * (q / 64))) (q % 64)

/-- A semaphore is debug-held (R678). -/
def State.semHeld (s : State) (sem : Nat) : Bool :=
  (List.range 54).any (fun n => s.haltOf n ≠ .running && (s.tasksOn n).any (fun t => match s.task t with
    | some x => (semNeeds x.words).any (fun y => y.1 = sem)
    | none => false)) ||
  s.que.q.any (fun e => s.queueHalted e.1 && (match e.2.fetched.head? with | some (_, w) => linkNames w sem | none => false))

/-- The head command of a queue waits on a debug-held semaphore. -/
def State.heldWait (s : State) (e : Nat × Queue) : Bool :=
  e.2.state = .active && !s.queueHalted e.1 &&
    (match e.2.fetched.head? with
     | some (_, w) => (semNeeds w).any (fun y => s.sem y.1 < y.2 && s.semHeld y.1)
     | none => false)

/-- FLT runs the self-test of a fenced unit that no request of TEL is testing: the unit is RECOVERING until it ends (R645,
R658). A Nguorn port stays FENCED until it is ACTIVE. -/
def State.recoverTick (s : State) : State :=
  let us := (s.flt.unit.filter (fun e => e.2.state = .fenced && !(0x80 ≤ e.1 && e.1 ≤ 0x8F) && !s.tel.units.contains e.1)).map Prod.fst
  us.foldl (fun s u => (s.setUnit u { s.funit u with state := .recovering }).refreshFlt) s

/-- One spine cycle. -/
def State.tick (s : State) : State :=
  let s := s.whenB s.pins.sby (fun s => { s with aon := s.aon.tick })
  if !s.mainRunning then s
  else
    let s := (List.range 54).foldl State.instTick s.timeTick.recoverTick
    let s := s.bump (bDBG + 0x20) (s.que.q.filter s.heldWait).length
    { s with free := s.free + 1 }

end Sys2Proof.Machine
end

