-- ==== Sys2Proof/WellFormed.lean ====
section
/-!
DEFINITION. Which commands are well formed: each operand lies in the range the manual gives it (register offsets and
widths, unit and object numbers, field widths). `exec` is total, so a command outside these ranges still has an outcome;
the statements assume what they need of them in their own words.
-/

namespace Sys2Proof

/-- A register access: an offset of BAR0 (R616) and a width of 32 or 64 bits (R9). -/
def wfAccess (off size : Nat) : Bool := off < 2 ^ 26 && (size = 4 || size = 8)

/-- A value that fits the bytes of an access. -/
def wfValue (size v : Nat) : Bool := v < 2 ^ (8 * size)

/-- Clock islands 1 to 25 (R55). -/
def wfIsland (n : Nat) : Bool := 1 ≤ n && n ≤ 25

/-- SerDes lanes 0 to 23 (R77). -/
def wfLane (l : Nat) : Bool := l < 24

/-- Switched domains P1 to P14 (R80). -/
def wfDomain (d : Nat) : Bool := 1 ≤ d && d ≤ 14

/-- Engine instances, by Bay number (R189). -/
def wfInst (n : Nat) : Bool := n < 54

/-- Command queues (R22). -/
def wfQueue (q : Nat) : Bool := q < 4096

/-- Pipelines (R319). -/
def wfPipe (p : Nat) : Bool := p < 256

/-- Nguorn ports (R582). -/
def wfPort (p : Nat) : Bool := p < 16

/-- Fields of a flit: an acknowledged number and four credit counts (R558). -/
def wfAck (ack : Option Nat) (cum : List Nat) : Bool := (match ack with | some a => a < 4096 | none => true) && cum.length = 4

/-- Fault units (R638). -/
def wfUnit (u : Nat) : Bool := u < 4096

/-- Targets of NVMe-oF and the ports they are reached by (R335). -/
def wfTarget (tgt port : Nat) : Bool := tgt < 64 && port < 2

/-- The shared memory ports (R261). -/
def wfMemPort : MemPort → Bool
  | .hbm stack channel => stack < 8 && channel < 64
  | .depot bank _ => bank < 2
  | .bridge _ => true
  | .bay n => wfInst n
  | .hif => true
  | .ngl port vc => wfPort port && vc < 4

/-- Every operand is in its range. -/
def Instr.wf : Instr → Bool
  | .registerWrite _ off size v => wfAccess off size && wfValue size v
  | .stagedWrite _ off v => wfAccess off 4 && off % 4 = 0 && wfValue 4 v
  | .rcRead _ off size => wfAccess off size
  | .splitReadLow _ off => wfAccess off 4 && off % 8 = 0
  | .porstNAssert => true
  | .porstNRelease _ => true
  | .wrstNAssert => true
  | .warmResetDrainEnd lost _ => lost.all (fun l => decide (l < 2 ^ 38))
  | .perstNAssert => true
  | .pcieTrainingStart => true
  | .configRequest _ _ v => wfValue 4 v
  | .configRetryEnd => true
  | .refclkLoss _ => true
  | .demandDecision n _ _ _ => wfIsland n
  | .freqStep n => wfIsland n
  | .voltageStep n => wfIsland n
  | .voltageTrim n _ => wfIsland n
  | .droop n => wfIsland n
  | .stretchEnd n => wfIsland n
  | .limitEntry n => wfIsland n
  | .limitCeilingRise n => wfIsland n
  | .timingLimitFault n => wfIsland n
  | .eqAdaptUpdate l param _ => wfLane l && param ≤ 13
  | .shadowRecalStart l => wfLane l
  | .sliceSwap l _ _ => wfLane l
  | .losAssert l => wfLane l
  | .losDeassert l amp => wfLane l && amp < 256
  | .clkSdFreeze _ l _ => wfLane l
  | .pwrDomReq _ d _ => wfDomain d
  | .domainPoweringStart d => wfDomain d
  | .domainPowerOnDone d => wfDomain d
  | .domainDrainDone d => wfDomain d
  | .drainLimitExpiry d => wfDomain d
  | .domainPowerOffDone d => wfDomain d
  | .domainOffScanDone d => wfDomain d
  | .standbyRailUp _ => true
  | .sbyDetectorArm => true
  | .standbyRailLoss => true
  | .mainPgTimeout => true
  | .mainPgFall => true
  | .mainPgRise => true
  | .aonSleep _ => true
  | .sleepEntryComplete => true
  | .flashAbortAtSleep => true
  | .wakeComparatorFire _ => true
  | .aonRtcSet _ size v => (size = 4 || size = 8) && wfValue size v
  | .rtcOscFail => true
  | .pfTrip => true
  | .pfRearm => true
  | .journalFlushDone => true
  | .thermalTick _ _ _ => true
  | .thermalAlert _ => true
  | .thermalAlertRelease => true
  | .thermalTrip _ => true
  | .thermtripRelease => true
  | .powerCapTick _ dom => dom.length = 14
  | .flashInitDone _ _ _ _ => true
  | .calDone => true
  | .verifyDone => true
  | .wr32 => true
  | .wr64 => true
  | .poll32 => true
  | .poll32Timeout => true
  | .waitRec => true
  | .loadRec => true
  | .endRec => true
  | .flashRead _ => true
  | .flashProgram _ => true
  | .flashErase _ => true
  | .flashStatus _ => true
  | .flashCmdDone _ => true
  | .flashCmdTimeout => true
  | .bootRetry _ => true
  | .stgCommit _ => true
  | .stgDiscard _ => true
  | .commitCheckEnd => true
  | .commitWaitEnd => true
  | .commitWaitTimeout => true
  | .commitApply => true
  | .getStatus _ => true
  | .authBegin _ => true
  | .authProve _ => true
  | .logout _ => true
  | .kekImport _ => true
  | .kekDestroy _ => true
  | .keyLoad _ => true
  | .keyDestroy _ => true
  | .keyQuery _ => true
  | .getRandom _ => true
  | .fuseImageKey _ => true
  | .revokeImageKey _ => true
  | .advanceSvn _ => true
  | .lockDebug _ => true
  | .fuseOwnerKey _ => true
  | .setApproved _ => true
  | .zeroise _ => true
  | .tamperClear _ active => active < 16
  | .decommission _ => true
  | .selfTest _ _ => true
  | .mailboxUnknownService _ => true
  | .sessionIdleTimeout _ => true
  | .authLockoutEnd _ => true
  | .drbgReseed => true
  | .entropyHealthFail => true
  | .tamperEvent _ => true
  | .spdmRequest _ => true
  | .stackTrainingDone n _ => n < 8
  | .hbmZeroFillBlock die block => die < 2 && block < 65536
  | .hbmTransferRetry n failures => n < 8 && 1 ≤ failures && failures ≤ 5
  | .scrubRead _ _ => true
  | .sramScrubRead addr _ _ => addr < 2 ^ 44
  | .repairRefetchDone _ => true
  | .glbQDb _ q tail => wfQueue q && wfValue 4 tail
  | .glbQCplhead _ q v => wfQueue q && wfValue 4 v
  | .queueAbort _ q => wfQueue q
  | .queueResume _ q => wfQueue q
  | .commandFetch q => wfQueue q
  | .commandIssue q => wfQueue q
  | .nop _ => true
  | .commandComplete _ => true
  | .completionStallRelease _ => true
  | .irqHoldoffExpiry q => wfQueue q
  | .glbSem _ n v => n < 65536 && wfValue 4 v
  | .glbSemAdd _ n v => n < 65536 && wfValue 4 v
  | .transferGrant port => wfMemPort port
  | .transferDone _ _ => true
  | .rateWindowUpdate => true
  | .bucketRefill => true
  | .qRecompute => true
  | .yieldSwitch n _ => wfInst n
  | .telSat n c => wfInst n && c < 16
  | .tileComplete _ _ => true
  | .paramLoadStart n _ => wfInst n
  | .paramLoadDone n _ => wfInst n
  | .ledgerInitDone => true
  | .batchAdmit => true
  | .sampleDeadline slot => slot < 2 ^ 21
  | .pinSetCreate p table version => wfPipe p && table < 4096 && version < 2 ^ 32
  | .checkpointTimer => true
  | .journalEntryWrite => true
  | .fetch _ _ => true
  | .fetchWaitExpiry _ => true
  | .recordDone _ _ _ => true
  | .hostFetchTimeout _ _ => true
  | .nvmeConnect tgt port _ _ => wfTarget tgt port
  | .nvmeResponse tgt port cid status => wfTarget tgt port && cid < 2 ^ 16 && status < 2 ^ 16
  | .fabricCmdTimeout tgt port cid => wfTarget tgt port && cid < 2 ^ 16
  | .quarantineReconnect tgt port cid => wfTarget tgt port && cid < 2 ^ 16
  | .keepAlive tgt => tgt < 64
  | .rocePacketRx tgt port _ psn _ => wfTarget tgt port && psn < 2 ^ 24
  | .ethFrameDiscard x => x < 2
  | .addrResRequest x hop => x < 2 && hop < 2 ^ 128
  | .addrResReply x hop mac => x < 2 && hop < 2 ^ 128 && mac < 2 ^ 48
  | .addrResAnswer x ip => x < 2 && ip < 2 ^ 128
  | .addrEntryRefresh x hop => x < 2 && hop < 2 ^ 128
  | .addrEntryExpiry x hop => x < 2 && hop < 2 ^ 128
  | .ethPortUp x => x < 2
  | .decodeImage _ _ => true
  | .decodeVideo _ _ => true
  | .tokenize _ _ => true
  | .transform _ _ => true
  | .matmul _ _ => true
  | .vqSearch _ _ => true
  | .rowop _ _ => true
  | .glbAzmGo _ => true
  | .azmBlockReady => true
  | .gather _ _ => true
  | .pool _ _ => true
  | .prefetch _ _ => true
  | .gatherReq => true
  | .gatherRsp => true
  | .pooledSum => true
  | .remoteTimeout n => n < 54 * 4096
  | .readSlotRelease n => n < 54 * 4096
  | .heatWindowEnd => true
  | .versionSlotFree t v => t < 4096 && v < 4
  | .sample _ _ => true
  | .sampleWaitExpiry _ => true
  | .logitPage => true
  | .smpSeqKill _ id => id < 2 ^ 16
  | .deposit _ _ => true
  | .depositSeq _ _ => true
  | .stepPageDrop ep ctr => ep < 2 ^ 14 && ctr < 2 ^ 32
  | .layoutRead p => wfPipe p
  | .batchBuildDone e => e < 65536
  | .offerStart k => k < 256 * 16384
  | .batchAck => true
  | .hostOfferDone p => wfPipe p
  | .holdTimeout k => k < 256 * 16384
  | .pakHostHead _ n v => wfPipe n && wfValue 4 v
  | .frameStart _ vc num => vc < 16 && num < 2 ^ 16
  | .longPacket _ vc dt _ _ _ => vc < 16 && dt < 64
  | .frameEnd _ vc num => vc < 16 && num < 2 ^ 16
  | .frameLatch l => l < 32
  | .ptpSync src _ => src < 2
  | .servoHoldover => true
  | .tsInCapture n _ => n < 8
  | .senTsPop _ n size => n < 8 && (size = 4 || size = 8)
  | .trigEdge t => t < 4
  | .fusionClose g => g < 8
  | .capture _ _ => true
  | .captureWaitExpiry _ => true
  | .copy _ _ => true
  | .gatherRows _ _ => true
  | .scatterRows _ _ => true
  | .pmdTrainDone p => wfPort p
  | .fecLockDone p => wfPort p
  | .flitSyncDone p => wfPort p
  | .initFlit p _ _ _ _ _ adv _ ack cum => wfPort p && adv.length = 4 && wfAck ack cum
  | .trainingTimeout p => wfPort p
  | .retrainAttemptTimeout p => wfPort p
  | .flitSlotTx p => wfPort p
  | .dataFlitRx p vc seq payload ack cum => wfPort p && vc < 4 && seq < 4096 && payload.length ≤ 232 && wfAck ack cum
  | .badFlit p => wfPort p
  | .nakRepeat p => wfPort p
  | .nakRx p nak ack cum => wfPort p && nak < 4096 && wfAck ack cum
  | .replayTimer p => wfPort p
  | .retryExhausted p => wfPort p
  | .messageRx p v => wfPort p && v < 4
  | .fecWarn p _ => wfPort p
  | .echoReq => true
  | .echoRsp => true
  | .echoSend => true
  | .unreachTimeout _ d => d < 2 ^ 14
  | .stepTokenIssue => true
  | .stepToken => true
  | .stepDone => true
  | .stepDeadline => true
  | .rootBeatSend => true
  | .rootBeat => true
  | .leaseExpiry => true
  | .claimSend => true
  | .rootClaim => true
  | .rootAck => true
  | .rootNack => true
  | .joinSend => true
  | .join => true
  | .leave => true
  | .memberStatSend => true
  | .memberStat => true
  | .nglFabPullGo _ n => n < 8
  | .tablePull => true
  | .tableChunk => true
  | .tablePullNak => true
  | .pullTimeout n => n < 8
  | .hotReset => true
  | .linkDown => true
  | .functionLevelReset => true
  | .d3hotEntry => true
  | .bar2Access write _ data n _ => 1 ≤ n && n ≤ 64 && (!write || data.length = n)
  | .cxlMemRequest write _ data n _ => 1 ≤ n && n ≤ 64 && (!write || data.length = n)
  | .hostReadCompletion _ _ _ => true
  | .completionTimeout _ => true
  | .snpdata _ => true
  | .snpinv _ => true
  | .snpcur _ => true
  | .cxlGo _ _ data => data.length = 64
  | .goWritepull _ => true
  | .goWritepullDrop _ => true
  | .hifCcFlush _ => true
  | .ccFlushDone => true
  | .msixVectorUnmask _ => true
  | .doeObject _ _ => true
  | .doeAbort => true
  | .healthFaultConfirm u _ _ _ => wfUnit u
  | .c2RecoveryDone => true
  | .watchdogExpiry n => wfInst n
  | .releaseGatePass => true
  | .recoverySelfTestDone u _ => wfUnit u
  | .fltUnfence _ u => wfUnit u
  | .fltInject _ u _ => wfUnit u
  | .fltFirstClr _ => true
  | .instanceTest _ target => wfUnit target
  | .islandTest _ target => wfUnit target
  | .serdesRecal _ target => wfUnit target
  | .bistDrained => true
  | .bistDeferred => true
  | .bistTestDone fails => fails.all (fun f => wfUnit f.1)
  | .serdesRecalDone _ _ => true
  | .traceRecordWrite => true
  | .telTraceMark _ v => wfValue 4 v
  | .telTraceCtl _ _ => true
  | .idcode tag => tag < 256
  | .peek32 tag off => tag < 256 && off < 2 ^ 64
  | .peek64 tag off => tag < 256 && off < 2 ^ 64
  | .write32 tag off v => tag < 256 && off < 2 ^ 64 && wfValue 4 v
  | .write64 tag off v => tag < 256 && off < 2 ^ 64 && wfValue 8 v
  | .mempeek tag a => tag < 256 && a < 2 ^ 64
  | .memwrite tag a data => tag < 256 && a < 2 ^ 64 && data.length = 64
  | .debugAnswerTimeout => true
  | .dbgHaltInst _ v => wfValue 8 v
  | .dbgHaltQ _ j v => j < 64 && wfValue 8 v
  | .instanceHalted n => wfInst n
  | .tapIdcode => true
  | .samplePreload _ _ => true
  | .extest _ => true
  | .clamp => true
  | .highz => true
  | .bypass => true
  | .tapReset => true
  | .pcieLinkUp rate width _ _ _ => [16, 32, 64].contains rate && [4, 8, 16].contains width
  | .tagQuarantineEnd _ => true
  | .ethPortDown x => x < 2
  | .roceAckTimeout tgt port => wfTarget tgt port
  | .pfcFrameRx x prio _ => x < 2 && prio < 8
  | .ptpMessage src _ => src < 2
  | .idleFlitRx p ack cum => wfPort p && wfAck ack cum
  | .repairWaitTimeout _ _ => true
  | .debugRequestInvalid tag _ => tag < 256

end Sys2Proof
end

