-- ==== Sys2Proof/Safety.lean ====
section
/-!
DEFINITION. The words the statements use: that a command completes in a state, what two states share, and the form that
every step keeps. The block answers every command with a next state: no meaning of this model ends in a fault or a
refusal, so a safe run is any run.
-/

namespace Sys2Proof.Machine

/-- The command completes in state `s` and leaves state `t`. -/
def Runs (c : Instr) (s t : State) : Prop := exec c s = .next t

/-- Every byte of device memory reads as before. -/
def SameMem (s t : State) : Prop := ∀ a, t.mem.rd a = s.mem.rd a

/-- Every byte of device memory outside `n` bytes from `a` on reads as before. -/
def SameMemBut (a n : Nat) (s t : State) : Prop := ∀ b, b < a ∨ a + n ≤ b → t.mem.rd b = s.mem.rd b

/-- Every stored register reads as before. -/
def SameRegs (s t : State) : Prop := ∀ a, t.reg a = s.reg a

/-- The canonical forms: memory, registers, flash and known host memory are tables with rising keys, none of which lists
a value that an unlisted key has. -/
def State.canonical (s : State) : Prop :=
  s.mem.wf ∧ (tsorted none s.regs = true ∧ ∀ e ∈ s.regs, e.2 ≠ regReset e.1) ∧ twf 0xFF s.flash = true ∧
    tsorted none s.host = true

/-- Every fuse blown in `s` is blown in `t`, and no written key or identity has changed. -/
def FusesStay (s t : State) : Prop :=
  (∀ i k, tget none s.vlt.fuses.imgKey i = some k → tget none t.vlt.fuses.imgKey i = some k) ∧
  (∀ i, tget false s.vlt.fuses.imgRevoked i = true → tget false t.vlt.fuses.imgRevoked i = true) ∧
  s.vlt.fuses.svn ≤ t.vlt.fuses.svn ∧
  (s.vlt.fuses.ownerSet = true → t.vlt.fuses.ownerSet = true ∧ t.vlt.fuses.ownerKey = s.vlt.fuses.ownerKey) ∧
  (s.vlt.fuses.debugLock = true → t.vlt.fuses.debugLock = true) ∧
  (s.vlt.fuses.approved = true → t.vlt.fuses.approved = true) ∧
  (s.vlt.fuses.decommissioned = true → t.vlt.fuses.decommissioned = true)

/-- The front request of the mailboxes is this path's, names service `c` with its length, and the Vault's state and the
path's role allow it (R160, R164, R165, R181). -/
def State.asks (s : State) (dbg : Bool) (c : Nat) (need : Need) : Prop :=
  s.mbxIs dbg c = true ∧ s.svcOpen c = true ∧ (s.vpath dbg).may need = true

/-- The start-up program stands at a record with operation `op` (R116). -/
def State.atRecord (s : State) (op : Nat) (r : Rec) : Prop := s.curRec = some r ∧ r.op = op

/-- A received message of a type, and of a subtype where it is a control message, is the oldest of its kind (R570). -/
def State.has (s : State) (type sub : Nat) (m : RxMsg) : Prop := s.inMsg type sub = some m

/-- The state with the state of one stack set (R192). -/
def State.setStack (s : State) (n : Nat) (x : StackState) : State :=
  let y : Stack := tget {} s.mem.stack n
  { s with mem := { s.mem with stack := tset {} s.mem.stack n { y with state := x } } }

/-- What a read that met an error at an address, or none, leaves behind (R197); `src` is the detecting source of R212. -/
def State.metErr (s : State) (a src : Nat) (ow : Bool) : MemErr → State
  | .none => s
  | .ce => s.memCe a
  | .ue => s.memUe a src ow

/-- An engine row for stage `k` of task `t` does its work: the stage is there, of the row's kind and opcode, has not ended,
runs, has its parameters, and every earlier stage has handed over (R224, R264, R287, R291). -/
def State.engReady (s : State) (t k kind op : Nat) (x : Task) (g : Stage) : Prop :=
  s.task t = some x ∧ x.stages[k]? = some g ∧ g.kind = kind ∧ g.op = op ∧ g.res = none ∧ s.instRuns g.inst = true ∧
    s.mayWork g.inst t = true ∧ s.parReady t g = true ∧
    ∀ h ∈ x.stages.take k, ∃ r, h.res = some r ∧ (r.status = stOK ∨ r.status = stDAMAGED)

/-- What a command on streams may change: device and host memory, registers, the host interface with its coherent cache,
what leaves the block, tasks and streams, and the supply of free values. Everything else stands. -/
structure StreamFrame (s t : State) : Prop where
  pins : t.pins = s.pins
  clk : t.clk = s.clk
  pwr : t.pwr = s.pwr
  aon : t.aon = s.aon
  boot : t.boot = s.boot
  stg : t.stg = s.stg
  flt : t.flt = s.flt
  tel : t.tel = s.tel
  dbg : t.dbg = s.dbg
  vlt : t.vlt = s.vlt
  ldg : t.ldg = s.ldg
  eth : t.eth = s.eth
  ngl : t.ngl = s.ngl
  gth : t.gth = s.gth
  azm : t.azm = s.azm
  ing : t.ing = s.ing
  pak : t.pak = s.pak
  sen : t.sen = s.sen
  servo : t.servo = s.servo
  shHost : t.shHost = s.shHost
  shDbg : t.shDbg = s.shDbg
  shVlt : t.shVlt = s.shVlt
  flash : t.flash = s.flash
  time : t.time = s.time
  spine : t.spine = s.spine
  pending : t.pending = s.pending

/-- From state `s` a command ends stage `k` of task `t`: where the result is not zero its low half is the count `n`, and
only DAMAGED has a detail (R362, R384). Nothing beyond the reach of streams changes. -/
def EndsCounted (c : Instr) (t k n : Nat) (s : State) : Prop :=
  ∃ (w : State) (r : Res) (hb : List (List Byte)), Runs c s (w.endStage t k r hb) ∧ StreamFrame s (w.endStage t k r hb) ∧
    (r.result ≠ 0 → r.result % 2 ^ 32 = n % 2 ^ 32) ∧ (r.status ≠ stDAMAGED → r.detail = 0)

end Sys2Proof.Machine
end

