-- ==== Sys2Proof/Certificates/Slice0/Obligations.lean ====
section
/-!
DEFINITION. The statements about the block, for the provers. Rule numbers in a docstring say where a statement comes
from; a statement that formalises a rule whole begins with that rule alone and quotes it in OBLIGATIONS.json.
`Runs c s t` says that command `c` completes in state `s` and leaves `t`.
-/

section
open Sys2Proof Sys2Proof.Machine

/-- Stepping a state with a command at the front of its queue is executing that command on the state with the queue's
rest. -/
def Obligations.StepTakesFront : Prop :=
  ∀ (c : Instr) (rest : List Instr) (s : State),
    step { s with pending := c :: rest } = exec c { s with pending := rest }

/-- With no command waiting a spine cycle passes (model's choice, assumption log 1): nothing passes while the main
rail's logic does not run, but for the standby clocks. -/
def Obligations.StepIdle : Prop :=
  ∀ s : State, s.pending = [] →
    step s = .next s.tick ∧
    (s.mainRunning = false → s.tick = if s.pins.sby then { s with aon := s.aon.tick } else s)

/-- The queue is first in, first out: no command adds to it, takes from it or reorders it. -/
def Obligations.QueueFifo : Prop :=
  ∀ (c : Instr) (rest : List Instr) (s t : State), step { s with pending := c :: rest } = .next t → t.pending = rest

/-- Every step keeps the canonical forms of memory, registers, flash and host memory, from every state that has them. -/
def Obligations.StepKeepsCanonical : Prop :=
  ∀ s t : State, s.canonical → step s = .next t → t.canonical

/-- The state after reset has the canonical forms of StepKeepsCanonical, waits for no command, and holds the values of
the Reset columns: registers at theirs, no generation but 0 in force, nothing staged, queues DISABLED, domains OFF,
ports DISABLED, units HEALTHY, FLT NORMAL, ceilings 80. That HBM reads zero is R193. -/
def Obligations.ResetState : Prop :=
  State.reset.canonical ∧ State.reset.pending = [] ∧ (∀ a, State.reset.reg a = regReset a) ∧
    State.reset.gen = 0 ∧ State.reset.stg.set = [] ∧ State.reset.stg.state = .idle ∧ State.reset.stg.owner = none ∧
    (∀ q, (State.reset.queue q).state = .disabled ∧ (State.reset.queue q).head = 0 ∧ (State.reset.queue q).tail = 0) ∧
    (∀ n, n < 65536 → State.reset.sem n = 0) ∧
    (∀ d, 1 ≤ d → (State.reset.dom d).state = .off) ∧ (∀ p, (State.reset.port p).state = .disabled) ∧
    (∀ u, (State.reset.funit u).state = .healthy) ∧ State.reset.flt.state = .normal ∧
    State.reset.pwr.cd0Ceil = 80 ∧ State.reset.pwr.cd1Ceil = 80 ∧
    (∀ a d, region a = some (.hbm d) → State.reset.mem.rd a = 0 ∧ State.reset.mem.poisoned a = false)

/-- What has left the block is never taken back: every step leaves the list of outputs as the tail of the new one. -/
def Obligations.OutputsStand : Prop :=
  ∀ s t : State, step s = .next t → s.outs <:+ t.outs

/-- No command and no cycle clears a blown fuse or changes a written key or identity. (From R158.) -/
def Obligations.FusesNeverClear : Prop :=
  ∀ s t : State, step s = .next t → FusesStay s t

/-- R9: on the host path, an access of another size than 32 or 64 bits, or out of natural alignment, completes with
Completer Abort, and a write or read so rejected changes nothing; an aligned access of either size is accepted. On the
other paths too, a rejected access changes nothing. -/
def Obligations.AccessRule : Prop :=
  ∀ (off size v : Nat) (s : State), off < barSize → s.pathUp .host = true →
    (¬ ((size = 4 ∨ size = 8) ∧ off % size = 0) →
      Runs (.registerWrite .host off size v) s (s.emit .abort) ∧ Runs (.rcRead .host off size) s (s.emit .abort)) ∧
    ((size = 4 ∨ size = 8) → off % size = 0 →
      Runs (.registerWrite .host off size v) s (s.barWrite .host off size v) ∧
      (∀ t r, s.barRead .host off size = (t, some r) → Runs (.rcRead .host off size) s (t.emit (.read .host size r))) ∧
      (∀ t, s.barRead .host off size = (t, none) → Runs (.rcRead .host off size) s t)) ∧
    (∀ p : Path, p ≠ .host → ¬ ((size = 4 ∨ size = 8) ∧ off % size = 0) →
      Runs (.registerWrite p off size v) s s ∧ Runs (.rcRead p off size) s s)

/-- After R10 and R13, in part: on a path that may write, a write to an RW register below the Vault's block merges its
writable bytes into the register; a write to an undefined offset, to an event counter or to an RC counter changes
nothing; nor does a write on a path that may not write now. -/
def Obligations.RegisterWrites : Prop :=
  ∀ (p : Path) (off size v : Nat) (s : State), off < barSize → s.unclaimed p = false →
    (aligned off size = true → s.wgate p (off - off % 8) = true →
      (∀ f, regFam (off - off % 8) = some f → f.typ = .rw → off - off % 8 < bVLT →
        Runs (.registerWrite p off size v) s
          (s.setReg (off - off % 8) (mergeWord (s.reg (off - off % 8)) f.mask off size v))) ∧
      (regFam (off - off % 8) = none → Runs (.registerWrite p off size v) s s) ∧
      (∀ f, regFam (off - off % 8) = some f → f.typ = .event ∨ f.typ = .error ∨ f.typ = .stall →
        Runs (.registerWrite p off size v) s s)) ∧
    (aligned off size = true → s.wgate p (off - off % 8) = false → Runs (.registerWrite p off size v) s s)

/-- After R137 to R139, in part: while no commit runs, a 32-bit half is staged by the owner of the set or into an empty
set, which it claims; a half beyond the capacity of the set is discarded, naming its register; a foreign write sets its
flag and stages nothing. -/
def Obligations.StagedWrites : Prop :=
  ∀ (p : Path) (off v : Nat) (s : State), off % 4 = 0 → s.wgate p (off - off % 8) = true → p ≠ .vault →
    stMask off ≠ 0 → stFixed off = false →
    (s.stg.state = .idle → (s.stg.owner = none ∨ s.stg.owner = some p) →
      ((tget none s.stg.set off).isSome = true ∨ s.stg.set.length < 16384) →
      Runs (.stagedWrite p off v) s
        { s with stg := { s.stg with owner := some p, set := tset none s.stg.set off (some (BitVec.ofNat 32 (v &&& stMask off))) } }) ∧
    (s.stg.state = .idle → (s.stg.owner = none ∨ s.stg.owner = some p) →
      (tget none s.stg.set off).isNone = true → 16384 ≤ s.stg.set.length →
      Runs (.stagedWrite p off v) s
        { s with stg := { s.stg with overflow := true, ovReg := if s.stg.overflow then s.stg.ovReg else off - off % 8 } }) ∧
    (s.stg.state = .idle → (∃ q, s.stg.owner = some q ∧ q ≠ p) →
      Runs (.stagedWrite p off v) s (s.setBits rStgStatus fForeign))

/-- A read answers with what the register holds on the path, and leaves what barRead says it leaves; an undefined offset
reads zero; a 32-bit read of a low half latches the high half for the path, which a read of the high half answers while
it is the one latched. (From R10, R13, R17, R519, R714.) -/
def Obligations.RegisterReads : Prop :=
  (∀ (p : Path) (off size : Nat) (s t : State) (v : Nat), off < barSize → s.unclaimed p = false → s.pathUp p = true →
    aligned off size = true → s.barRead p off size = (t, some v) →
    Runs (.rcRead p off size) s (t.emit (.read p size v)) ∧
    (size = 4 → off % 8 = 0 → Runs (.splitReadLow p off) s (t.emit (.read p 4 v))) ∧
    (∀ n, n < 8 → off = bSEN + 0x5008 + 16 * n → Runs (.senTsPop p n size) s (t.emit (.read p size v)))) ∧
  (∀ (p : Path) (off size : Nat) (s : State), regFam (off - off % 8) = none → pairWord (off - off % 8) = false →
    s.azmWaits (off - off % 8) = false → s.fromShadow p (off - off % 8) = false → s.powered (regDom (off - off % 8)) = true →
    (size = 8 → (s.barRead p off size).2 = some 0) ∧
    (size = 4 → (s.barRead p off size).2 = some 0)) ∧
  (∀ (p : Path) (a : Nat) (f : RegFam) (s : State), p ≠ .boot → a % 8 = 0 → regFam a = some f → pairWord a = false →
    s.azmWaits a = false → s.powered (regDom a) = true →
    (s.barRead p a 4).1.shadow p = some (a, BitVec.ofNat 32 (wfld (s.word p a) 63 32)) ∧
    (s.barRead p a 4).2 = some (wfld (s.word p a) 31 0)) ∧
  (∀ (p : Path) (a : Nat) (s : State) (h : Half), a % 8 = 0 → pairWord a = false → s.powered (regDom a) = true →
    s.shadow p = some (a, h) → s.barRead p (a + 4) 4 = (s, some h.toNat))

/-- The reset pins. (From R44, R48, R49, R50, R119, R621, R652.) -/
def Obligations.ResetPins : Prop :=
  (∀ s : State, s.pins.sby = true → ∃ t, Runs .porstNAssert s t ∧ t.pins.porst = false ∧ t.pins.straps = none ∧
    t.pins.perst = false ∧ t.boot = {} ∧ t.que = {} ∧ t.hif = {} ∧ t.vlt.fuses = s.vlt.fuses ∧ t.flt = {} ∧
    (s.boot.flBusy = none → t.flash = s.flash) ∧
    t.regs = s.regs.filter (fun e => aonReg e.1)) ∧
  (∀ (x : Straps) (s : State), s.pins.porst = false → s.pins.sby = true → s.railUp = true →
    Runs (.porstNRelease x) s ({ s with pins := { s.pins with porst := true, straps := some x } }).coldStart) ∧
  (∀ s : State, s.bootRuns = true → Runs .wrstNAssert s { s with pins := { s.pins with warmDrain := true } }) ∧
  (∀ s : State, s.pins.porst = false → Runs .wrstNAssert s s) ∧
  (∀ (lost : List Nat) (n : Nat) (s : State), s.pins.warmDrain = true →
    Runs (.warmResetDrainEnd lost n) s ((s.ccWriteBack n).wcLose lost).warmReset) ∧
  (∀ s u : State, s.powered 1 = true →
    u = { s with pins := { s.pins with perst := false }, vlt := { s.vlt with host := s.vlt.host.ended } } →
    Runs .perstNAssert s { u.hifReset true with hif := { (u.hifReset true).hif with training := false } }) ∧
  (∀ s : State, s.bootRuns = true → (s.pins.straps.getD {}).test.val = 0 → s.domOn 1 = true → s.hif.linkUp = false →
    tget false s.clk.lost 1 = false →
    Runs .pcieTrainingStart s { s with pins := { s.pins with perst := true }, hif := { s.hif with training := true } }) ∧
  (∀ (r w : Nat) (f c m : Bool) (s : State), s.hif.training = true → s.domOn 1 = true → s.pins.perst = true →
    r ∈ [16, 32, 64] → w ∈ [4, 8, 16] →
    Runs (.pcieLinkUp r w f c m) s { s with hif := { s.hif with
      training := false, linkUp := true, flit := f, cxlCache := c, cxlMem := m, rate := r, width := w } })

/-- The loops of a clock island: what a demand decision, a step of frequency or of voltage, a trim, a droop and the end
of a stretch do to the island, and that they do nothing else. (From R63 to R66.) -/
def Obligations.IslandLoops : Prop :=
  ∀ (n : Nat) (s : State), (s.isl n).state ≠ .off →
    (∀ (us : Nat) (above idle : Bool), islandKind n = .dvfs → s.islCfgd n = true → s.cf (rIslCfg n) 7 6 = 0 →
      (s.isl n).droopThis = false → (s.isl n).droopPrev = false →
      (us < s.cf (bCLK + 0x100) 15 0 → Runs (.demandDecision n us above idle) s
        ((s.setIsl n { s.isl n with droopPrev := false, droopThis := false }).retarget n (s.effCeil n))) ∧
      (s.cf (bCLK + 0x100) 15 0 ≤ us → ((s.cf (bCLK + 0x100) 31 16 < us ∧ above = true) ∨ idle = true) →
        Runs (.demandDecision n us above idle) s
          ((s.setIsl n { s.isl n with droopPrev := false, droopThis := false }).retarget n
            (max (s.fMin n) ((s.isl n).target - 4))))) ∧
    (∀ (us : Nat) (above idle : Bool), islandKind n = .dvfs → s.islCfgd n = true → s.cf (rIslCfg n) 7 6 = 1 →
      ((s.isl n).droopThis = true ∨ (s.isl n).droopPrev = true) → (s.isl n).target < s.effCeil n →
      Runs (.demandDecision n us above idle) s
        ((s.setIsl n { s.isl n with droopPrev := (s.isl n).droopThis, droopThis := false }).retarget n (s.isl n).target)) ∧
    ((s.isl n).f < (s.isl n).target → s.vPoint n (s.isl n).target ≤ (s.isl n).v → Runs (.freqStep n) s
      (s.setIsl n { s.isl n with f := (s.isl n).f + 1, state := if (s.isl n).f + 1 = (s.isl n).target then .run else (s.isl n).state })) ∧
    ((s.isl n).f < (s.isl n).target → (s.isl n).v < s.vPoint n (s.isl n).target → Runs (.freqStep n) s s) ∧
    ((s.isl n).target < (s.isl n).f → Runs (.freqStep n) s
      (s.setIsl n { s.isl n with
        f := (s.isl n).f - 1
        state := if (s.isl n).f - 1 = (s.isl n).target && (s.isl n).v ≤ s.vPoint n (s.isl n).target then .run else (s.isl n).state })) ∧
    ((s.isl n).state = .ramp → (s.isl n).v < s.vPoint n (s.isl n).target → (s.isl n).f ≤ (s.isl n).target →
      Runs (.voltageStep n) s (s.setIsl n { s.isl n with v := (s.isl n).v + 1 })) ∧
    ((s.isl n).state = .ramp → (s.isl n).f = (s.isl n).target → s.vPoint n (s.isl n).target < (s.isl n).v →
      Runs (.voltageStep n) s (s.setIsl n { s.isl n with
        v := (s.isl n).v - 1
        state := if (s.isl n).v - 1 = s.vPoint n (s.isl n).target then .run else (s.isl n).state })) ∧
    (∀ slack : Int, islandKind n ≠ .fixed → (s.isl n).state ≠ .ramp → s.islCfgd n = true →
      (s.slackTarget n + 2 < slack → Runs (.voltageTrim n slack) s (s.setIsl n { s.isl n with v := max 20 ((s.isl n).v - 1), slack := slack })) ∧
      (slack < s.slackTarget n → Runs (.voltageTrim n slack) s
        (s.setIsl n { s.isl n with v := min ((s.isl n).v + 1) (max (s.isl n).v (s.cf (rIslCfg n) 15 8)), slack := slack })) ∧
      (s.slackTarget n ≤ slack → slack ≤ s.slackTarget n + 2 →
        Runs (.voltageTrim n slack) s (s.setIsl n { s.isl n with slack := slack }))) ∧
    (islandKind n ≠ .fixed →
      Runs (.droop n) s ((s.setIsl n { s.isl n with stretch := true, droopThis := true }).bump (rIslDroop n) 1)) ∧
    Runs (.stretchEnd n) s (s.setIsl n { s.isl n with stretch := false })

/-- The limit state of an island and its ceiling, the timing-limit fault, and the loss of a board clock. (From R60,
R68.) -/
def Obligations.IslandLimits : Prop :=
  (∀ (n : Nat) (s : State), islandKind n = .dvfs → (s.isl n).state ≠ .off → (s.isl n).state ≠ .limit →
    s.islCfgd n = true → s.cf (rIslCfg n) 15 8 ≤ (s.isl n).v → s.fMin n < islandNominal n - (s.isl n).limitDrop →
    ∃ t, Runs (.limitEntry n) s t ∧ (t.isl n).state = .limit ∧ (t.isl n).limitDrop = (s.isl n).limitDrop + 1 ∧
      (t.isl n).target ≤ (s.isl n).target ∧ t.regs = (s.err (rIslVlimit n)).regs ∧ (∀ m, m ≠ n → t.isl m = s.isl m) ∧
      t.mem = s.mem) ∧
  (∀ (n : Nat) (s : State), Runs (.limitCeilingRise n) s (s.setIsl n { s.isl n with
    limitDrop := (s.isl n).limitDrop - 1
    state := if (s.isl n).state = .limit && (s.isl n).limitDrop ≤ 1 then .run else (s.isl n).state })) ∧
  (∀ (n : Nat) (s : State), islandKind n ≠ .fixed → (s.isl n).state ≠ .off →
    (islandKind n = .dvfs → (s.isl n).f ≤ s.fMin n) →
    (islandClass n = 3 → Runs (.timingLimitFault n) s (s.faultC3 0x03 (uIsland n) 0)) ∧
    (islandClass n ≠ 3 → Runs (.timingLimitFault n) s (s.faultUnit 0x03 (uIsland n)))) ∧
  (∀ s : State, Runs (.refclkLoss .sys) s
    ({ s with clk := { s.clk with lost := tset false s.clk.lost 0 true } }.faultC3 0x0C uClocks 0)) ∧
  (∀ s : State, Runs (.refclkLoss .pe) s
    ((({ s with clk := { s.clk with lost := tset false s.clk.lost 1 true } }.hifReset true).fence uHIF).faultClock 1))

/-- The adaptive lanes: an equaliser step, the start of a recalibration, a swap, loss of signal and its end, and the
freeze bit. (From R69 to R72.) -/
def Obligations.Lanes : Prop :=
  ∀ (l : Nat) (s : State), l < 24 →
    (∀ (param : Nat) (up : Bool), s.cb (rSdCtl l) 1 = true → s.frozen l = false →
      Runs (.eqAdaptUpdate l param up) s (s.setLane l { s.lane l with main := (s.lane l).main.adapt param up })) ∧
    (∀ (param : Nat) (up : Bool), s.frozen l = true → Runs (.eqAdaptUpdate l param up) s s) ∧
    (s.cb (rSdCtl l) 3 = true → s.cf (rSdCtl l) 7 4 ≠ 0 → (s.lane l).los = false →
      Runs (.shadowRecalStart l) s (s.setLane l { s.lane l with recal := true })) ∧
    (∀ h w : Nat, (s.lane l).recal = true → (s.lane l).los = false → (s.lane l).main.eyeH + 4 ≤ h → s.frozen l = false →
      s.retryIdle l = true → s.tel.bistLane ≠ some l →
      Runs (.sliceSwap l h w) s ((s.setLane l { s.lane l with
        main := { (s.lane l).shadow with eyeH := h, eyeW := w }, shadow := (s.lane l).main, recal := false, swapDue := false }).bump
          (bCLK + 0x4020 + 0x40 * l) 1)) ∧
    (∀ h w : Nat, (s.lane l).recal = true → (s.lane l).los = false → h < (s.lane l).main.eyeH + 4 → s.tel.bistLane ≠ some l →
      Runs (.sliceSwap l h w) s (s.setLane l { s.lane l with
        shadow := { (s.lane l).shadow with eyeH := h, eyeW := w }, recal := false, swapDue := false })) ∧
    ((s.lane l).los = false → s.tel.bistLane ≠ some l →
      Runs (.losAssert l) s ((s.setLane l { s.lane l with los := true, recal := false, swapDue := false }).err (bCLK + 0x4018 + 0x40 * l))) ∧
    (∀ amp : Nat, 16 ≤ l → Runs (.losDeassert l amp) s (s.setLane l { s.lane l with los := false, amp := amp % 256 })) ∧
    (∀ (p : Path) (on : Bool), s.wgate p (rSdFreeze l) = true →
      Runs (.clkSdFreeze p l on) s (s.setReg (rSdFreeze l) (if on then 1 else 0)))

/-- A switched domain: the request bit, the start and the end of powering, the drain and its limit, the end of power-
off, and the region-map scan. (From R82 to R86, R208.) -/
def Obligations.PowerDomains : Prop :=
  (∀ (p : Path) (d : Nat) (s : State), 1 ≤ d → d ≤ 14 → s.wgate p (rDomReq d) = true →
    ((s.dom d).state = .off → Runs (.pwrDomReq p d true) s
      ((s.setDomReq d true).domTo d { s.dom d with waiting := true }).pakSync.bistSync) ∧
    ((s.dom d).state = .draining → Runs (.pwrDomReq p d false) s (s.setDomReq d false).pakSync.bistSync) ∧
    ((s.dom d).state = .on → p = .host → d = 1 → Runs (.pwrDomReq p d false) s
      (((s.setDomReq d false).refuseOff d).pakSync.bistSync))) ∧
  (∀ (d : Nat) (s : State), s.bootRuns = true → (s.dom d).waiting = true → (s.dom d).fallingOff = false →
    (∀ e ∈ span 1 14, (s.dom e).state ≠ .powering) →
    (∀ e ∈ span 1 (d - 1), (s.dom e).waiting = false ∨ (s.dom e).fallingOff = true) →
    Runs (.domainPoweringStart d) s (s.domTo d { s.dom d with state := .powering, waiting := false })) ∧
  (∀ (d : Nat) (s u : State), (s.dom d).state = .powering → d ≠ 3 →
    u = (s.domTo d { s.dom d with state := .on, waiting := false }).domGain d → u.domReq d = true →
    Runs (.domainPowerOnDone d) s u.pakSync.bistSync.retryWaiting) ∧
  (∀ (d : Nat) (s : State), (s.dom d).state = .draining →
    (∀ n ∈ domBays d, ∀ t ∈ s.tasksOn n, ∀ x, s.task t = some x → x.started = false ∨ x.finished = true) →
    Runs (.domainDrainDone d) s (s.domToOff d).pakSync.bistSync) ∧
  (∀ (d : Nat) (s : State), (s.dom d).state = .draining →
    Runs (.drainLimitExpiry d) s ((s.domTo d { s.dom d with state := .on, lastOff := .deferred }).setDomReq d true)) ∧
  (∀ (d : Nat) (s : State), Runs (.domainPowerOffDone d) s (s.domTo d { s.dom d with fallingOff := false })) ∧
  (∀ (d : Nat) (s : State), (s.dom d).scan = true → (s.dom d).state = .on →
    (s.dieOwned (d - 6) = true → Runs (.domainOffScanDone d) s (s.refuseOff d)) ∧
    (s.dieOwned (d - 6) = false → s.holdsHalted d = false → Runs (.domainOffScanDone d) s (s.beginDrain d)))

/-- The supply rails: what each of their events does to the pins, the standby logic and the Vault, and what a loss
leaves. (From R88, R89, R92, R157, R181, R318, R697.) -/
def Obligations.SupplyRails : Prop :=
  (∀ (ok : Bool) (s : State), s.pins.sby = false → Runs (.standbyRailUp ok) s { s with
    pins := { s.pins with sby := true, mainPwrEn := true }
    vlt := { s.vlt with state := if ok then .ready else .error, seeded := ok } }) ∧
  (∀ s : State, s.pins.sby = true → Runs .sbyDetectorArm s { s with aon := { s.aon with sbyArmed := true } }) ∧
  (∀ s : State, ∃ t, Runs .standbyRailLoss s t ∧ t.pins.sby = false ∧ t.pins.mainPwrEn = false ∧ t.aon = {} ∧ t.regs = [] ∧
    t.vlt = { fuses := s.vlt.fuses } ∧ t.ldg.retValid = false ∧ (s.boot.flBusy = none → t.flash = s.flash) ∧
    t.host = s.host) ∧
  (∀ s : State, s.pins.sby = true → s.pins.mainPwrEn = true → s.pins.mainPg = false →
    Runs .mainPgTimeout s ({ s with
      pins := { s.pins with mainPwrEn := false }, aon := { s.aon with asleep := true } }.setBits rWakeStat (2 ^ 9))) ∧
  (∀ s : State, s.pins.mainPg = true → s.pins.mainPwrEn = true →
    Runs .mainPgFall s { s.coldReset with pins := { s.coldReset.pins with mainPg := false }, dbg := {} }) ∧
  (∀ s : State, s.pins.mainPg = true → s.pins.mainPwrEn = false →
    Runs .mainPgFall s { s with pins := { s.pins with mainPg := false }, dbg := {} }) ∧
  (∀ s : State, s.pins.sby = true → s.pins.mainPwrEn = true → s.pins.mainPg = false → s.pins.porst = true →
    s.pins.straps.isSome = true → Runs .mainPgRise s { s with pins := { s.pins with mainPg := true } }.coldStart)

/-- Sleep, wake and the real-time clock. (From R90, R91, R93, R94, R131.) -/
def Obligations.SleepAndWake : Prop :=
  (∀ (p : Path) (s : State), s.wgate p (bAON + 0x120) = true → s.pwr.sleepEntry = false →
    Runs (.aonSleep p) s s.sleepBegin) ∧
  (∀ s : State, s.pwr.sleepEntry = true → s.ldg.flush = none → s.boot.flBusy = none →
    (s.aon.firedSince &&& wfld s.aon.wakeCfg 7 0 = 0 → Runs .sleepEntryComplete s { s.coldReset with
      pins := { s.coldReset.pins with mainPwrEn := false }, aon := { s.coldReset.aon with asleep := true }, dbg := {} }) ∧
    (s.aon.firedSince &&& wfld s.aon.wakeCfg 7 0 ≠ 0 → Runs .sleepEntryComplete s s.coldReset.coldStart)) ∧
  (∀ s : State, s.pwr.sleepEntry = true → s.boot.flBusy.isSome = true →
    Runs .flashAbortAtSleep s (s.flashAbort.setBits rWakeStat (2 ^ 11))) ∧
  (∀ (b : WakeBit) (s : State), s.pins.sby = true → (5 ≤ b.val → s.powered 3 = false) → s.pwr.sleepEntry = false → s.aon.asleep = true →
    s.pins.thermTrip = false → wbit s.aon.wakeCfg b.val = true →
    Runs (.wakeComparatorFire b) s (s.setBits rWakeStat (2 ^ b.val)).wake) ∧
  (∀ (b : WakeBit) (s : State), s.pins.sby = true → (5 ≤ b.val → s.powered 3 = false) → s.pwr.sleepEntry = true → s.aon.asleep = false →
    Runs (.wakeComparatorFire b) s { (s.setBits rWakeStat (2 ^ b.val)) with
      aon := { s.aon with firedSince := s.aon.firedSince ||| 2 ^ b.val } }) ∧
  (∀ (b : WakeBit) (s : State), 5 ≤ b.val → s.powered 3 = true → Runs (.wakeComparatorFire b) s s) ∧
  (∀ (p : Path) (v : Nat) (s : State), s.wgate p (bAON + 0x208) = true →
    Runs (.aonRtcSet p 8 v) s { s with aon := { s.aon with rtc := v % 2 ^ 64, rtcValid := true, rtcAcc := 0 } } ∧
    Runs (.aonRtcSet p 4 v) s s) ∧
  (∀ s : State, s.pins.sby = true →
    Runs .rtcOscFail s ({ s with aon := { s.aon with oscStopped := true } }.setBits (bAON + 0x210) 2))

/-- Power failure, the journal flush it starts, the thermal decisions and trips, and the power cap. (From R96 to R101,
R317.) -/
def Obligations.PowerFailAndHeat : Prop :=
  (∀ s : State, s.mainRunning = true → s.pwr.pfTripped = false → s.ldg.initDone = false →
    Runs .pfTrip s ({ s with pwr := { s.pwr with pfTripped := true } }.bump (bPWR + 0x40) 1)) ∧
  (∀ s u : State, s.mainRunning = true → s.pwr.pfTripped = false → s.ldg.initDone = true →
    u = { s with pwr := { s.pwr with pfTripped := true } }.bump (bPWR + 0x40) 1 →
    Runs .pfTrip s { (u.startFlush .powerFail) with pwr := { u.pwr with pfFlush := true } }) ∧
  (∀ s : State, Runs .pfRearm s { s with pwr := { s.pwr with pfTripped := false } }) ∧
  (∀ s : State, s.ldg.flush.isSome = true → s.pwr.pfFlush = true →
    Runs .journalFlushDone s { (s.setBits rWakeStat (2 ^ 8)) with
      ldg := { s.ldg with flush := none }, pwr := { s.pwr with pfFlush := false } }) ∧
  (∀ (a b c : Int) (s : State), s.cfg (bPWR + 0x10) = 0 →
    Runs (.thermalTick a b c) s { s with pwr := { s.pwr with cd0Temp := a, cd1Temp := b, iodTemp := c } }) ∧
  (∀ (a b c : Int) (s u v w : State) (x y : Bool), s.cfg (bPWR + 0x10) ≠ 0 → s.boot.cal = 1 →
    u = { s with pwr := { s.pwr with cd0Temp := a, cd1Temp := b, iodTemp := c } } →
    u.thermStep 0 a s.pwr.cd0Ceil = (v, x) → v.thermStep 1 b v.pwr.cd1Ceil = (w, y) →
    Runs (.thermalTick a b c) s (if x || y then w.bump (bPWR + 0x48) 1 else w)) ∧
  (∀ (d : Fin 3) (s : State), s.mainRunning = true → 2 ≤ d.val →
    Runs (.thermalAlert d) s ({ s with pins := { s.pins with alertTherm := true } }.faultC0 0x10 (uThermal d.val))) ∧
  (∀ (d : Fin 3) (s u : State), s.mainRunning = true → d.val < 2 → u = s.setThermCeil d.val (s.dieFloor d.val) →
    Runs (.thermalAlert d) s ({ u with pins := { u.pins with alertTherm := true } }.faultC0 0x10 (uThermal d.val))) ∧
  (∀ s : State, Runs .thermalAlertRelease s { s with pins := { s.pins with alertTherm := false } }) ∧
  (∀ (d : Fin 3) (s u : State), s.mainRunning = true → u = (s.faultC3 0x11 (uThermal d.val)).coldReset →
    Runs (.thermalTrip d) s ({ u with
      dbg := {}, pins := { u.pins with thermTrip := true, mainPwrEn := false }, aon := { u.aon with asleep := true } }.setBits rWakeStat (2 ^ 10))) ∧
  (∀ s : State, s.pins.thermTrip = true → wbit s.aon.wakeDir 3 = false →
    Runs .thermtripRelease s { s with pins := { s.pins with thermTrip := false } }) ∧
  (∀ s : State, s.pins.thermTrip = true → wbit s.aon.wakeDir 3 = true → s.aon.asleep = true →
    Runs .thermtripRelease s { s with pins := { s.pins with thermTrip := false } }.wake) ∧
  (∀ (power : Nat) (dom : List Nat) (s u : State),
    u = (span 1 14).foldl (fun s d => s.setDom d { s.dom d with power := dom.getD (d - 1) 0 % 65536 })
      { s with pwr := { s.pwr with devPower := power % 65536 } } →
    (s.cf (bPWR + 0x10) 47 32 = 0 → Runs (.powerCapTick power dom) s u) ∧
    (s.cf (bPWR + 0x10) 47 32 ≠ 0 → 10 * power < 95 * s.cf (bPWR + 0x10) 47 32 →
      Runs (.powerCapTick power dom) s ((span 15 10).foldl (fun s i => s.capStep false i) u)))

/-- The flash comes up, the calibration is read, a copy is checked, and the retry of a part without an image. (From
R109, R115, R120, R122, R126, R127, R132.) -/
def Obligations.BootFlow : Prop :=
  (∀ (octal : Bool) (n : Nat) (s u : State), s.boot.state = .flashInit → 25 ≤ n → u = s.vaultTests true →
    (s.pins.straps.getD {}).nvmFb = false → (u.pins.straps.getD {}).nvmFb = false →
    Runs (.flashInitDone true octal true n) s { u with boot := { u.boot with
      state := .cal, densLog2 := min n 27, nvClkMhz := if octal then 200 else 25, nvmMode := if octal then 1 else 3 } }) ∧
  (∀ s : State, s.boot.state = .cal → ∃ t, Runs .calDone s t ∧ t.boot.state = .verify ∧ t.boot.cal = s.calVerdict ∧
    t.boot.copy = s.firstCopy ∧ t.mem = s.mem) ∧
  (∀ s : State, s.boot.state = .verify → ∃ t, Runs .verifyDone s t ∧
    (s.checkCopy s.boot.copy ≠ 0 → t = (s.setResult s.boot.copy (s.checkCopy s.boot.copy)).nextCopy s.boot.copy) ∧
    (s.checkCopy s.boot.copy = 0 → ∃ u : State, t = u.settle ∧
      u.boot.state = .execute ∧ u.boot.pc = 0 ∧ u.boot.retained = false ∧ u.boot.copy = s.boot.copy ∧
      u.boot.svn = s.flashLe (s.slotAddr s.boot.copy + 0xC) 4 ∧ u.mem = s.mem ∧ u.regs = s.regs)) ∧
  (∀ (p : Path) (s : State), s.wgate p (bNVC + 0x20) = true →
    (s.boot.state = .noImage → Runs (.bootRetry p) s s.restartBoot) ∧
    (s.boot.state ≠ .noImage → Runs (.bootRetry p) s s)) ∧
  (∀ s : State, s.bootRuns = true → Runs .configRetryEnd s { s with boot := { s.boot with crsEnd := true } }.endRetry)

/-- Each record of the start-up program. (From R116, R117, R123, R124.) -/
def Obligations.StartUpProgram : Prop :=
  ∀ (r : Rec) (s : State),
    (s.atRecord 1 r → Runs .wr32 s (s.barWrite .boot r.bar 4 (r.data % 2 ^ 32)).nextRec) ∧
    (s.atRecord 2 r → Runs .wr64 s (s.barWrite .boot r.bar 8 r.data).nextRec) ∧
    (∀ (t : State) (v : Nat), s.atRecord 3 r → s.barRead .boot r.bar 4 = (t, some v) →
      (v &&& (r.data / 2 ^ 32) = r.data % 2 ^ 32 → Runs .poll32 s t.nextRec) ∧
      (v &&& (r.data / 2 ^ 32) ≠ r.data % 2 ^ 32 → Runs .poll32 s t)) ∧
    (s.atRecord 3 r → Runs .poll32Timeout s (s.recFail 11)) ∧
    (s.atRecord 4 r → Runs .waitRec s s.nextRec) ∧
    (∀ x : Section, s.atRecord 5 r → s.boot.replay = false → s.boot.sections[r.arg]? = some x →
      (s.loadable x.target x.len = true → ∀ u, u = s.store x.target (s.flashRd x.addr x.len) →
        Runs .loadRec s (if s.digestOk x then u.nextRec else u.recFail 8)) ∧
      (s.loadable x.target x.len = false → Runs .loadRec s (s.recFail 10))) ∧
    (s.atRecord 5 r → s.boot.replay = true → Runs .loadRec s s.nextRec) ∧
    (∀ u : State, s.atRecord 6 r → u = s.setResult s.boot.copy 1 →
      Runs .endRec s { u with boot := { u.boot with
        state := .running, retained := true, replay := false
        bootUs := if u.boot.replay then u.boot.bootUs else u.bootElapsed } }.endRetry)

/-- A flash command that may run is begun with its address, one that may not ends with its result code, one given while
another is busy is dropped; a command's end does its work on the flash and on the buffer alone. (From R129 to R131.) -/
def Obligations.FlashCommands : Prop :=
  (∀ (p : Path) (s : State), s.wgate p (bNVC + 0x108) = true →
    (s.boot.flBusy.isSome = true →
      Runs (.flashRead p) s (s.setBits (bNVC + 0x110) (2 ^ 30)) ∧ Runs (.flashProgram p) s (s.setBits (bNVC + 0x110) (2 ^ 30)) ∧
      Runs (.flashErase p) s (s.setBits (bNVC + 0x110) (2 ^ 30)) ∧ Runs (.flashStatus p) s (s.setBits (bNVC + 0x110) (2 ^ 30))) ∧
    (s.boot.flBusy = none → (s.boot.state = .running ∨ s.boot.state = .noImage) →
      (s.flLocked .status (s.reg (bNVC + 0x100)).toNat = false ∧
        Runs (.flashStatus p) s { s with boot := { s.boot with flBusy := some .status, flAddr := (s.reg (bNVC + 0x100)).toNat } }) ∧
      (∀ a, (s.reg (bNVC + 0x100)).toNat = a → a < s.flashSize →
        (a % 256 = 0 → Runs (.flashRead p) s { s with boot := { s.boot with flBusy := some .read, flAddr := a } }) ∧
        (a % 256 = 0 → s.flLocked .program a = false →
          Runs (.flashProgram p) s { s with boot := { s.boot with flBusy := some .program, flAddr := a } }) ∧
        (a % 65536 = 0 → s.flLocked .erase a = false →
          Runs (.flashErase p) s { s with boot := { s.boot with flBusy := some .erase, flAddr := a } }) ∧
        (a % 256 = 0 → s.flLocked .program a = true → Runs (.flashProgram p) s (s.flEnd .program 1)) ∧
        (a % 65536 = 0 → s.flLocked .erase a = true → Runs (.flashErase p) s (s.flEnd .erase 1))))) ∧
  (∀ (st : Byte) (s : State), s.boot.flBusy = some .read →
    Runs (.flashCmdDone st) s ((s.setFlBuf (s.flashRd s.boot.flAddr 256)).flEnd .read 0)) ∧
  (∀ (st : Byte) (s : State), s.boot.flBusy = some .program →
    Runs (.flashCmdDone st) s ({ s with flash := tsplice 0xFF s.flash s.boot.flAddr s.flBuf }.flEnd .program 0)) ∧
  (∀ (st : Byte) (s : State), s.boot.flBusy = some .erase →
    Runs (.flashCmdDone st) s ({ s with flash := tclear s.flash s.boot.flAddr (s.boot.flAddr + 65536) }.flEnd .erase 0)) ∧
  (∀ (st : Byte) (s : State), s.boot.flBusy = some .status →
    Runs (.flashCmdDone st) s ((s.setFlBuf (s.flBuf.set 0 st)).flEnd .status 0)) ∧
  (∀ s : State, s.boot.flBusy = some .program → Runs .flashCmdTimeout s (s.flashAbort.flEnd .program 2)) ∧
  (∀ s : State, s.boot.flBusy = some .erase → Runs .flashCmdTimeout s (s.flashAbort.flEnd .erase 2))

/-- The course of a commit. (From R139 to R142, R148, R153, R155.) -/
def Obligations.Commits : Prop :=
  (∀ (p : Path) (s : State), s.wgate p bSTG = true →
    (s.stg.state = .idle → (s.stg.owner = none ∨ s.stg.owner = some p) →
      Runs (.stgCommit p) s { s with stg := { s.stg with state := .check, result := .none } }) ∧
    (s.stg.state = .idle → (∃ q, s.stg.owner = some q ∧ q ≠ p) → Runs (.stgCommit p) s (s.setBits rStgStatus fForeign))) ∧
  (∀ (p : Path) (s : State), s.wgate p (bSTG + 8) = true →
    (s.stg.state = .idle → (s.stg.owner = none ∨ s.stg.owner = some p) → Runs (.stgDiscard p) s
      { s with stg := { s.stg with set := [], owner := none, overflow := false, ovReg := 0 } }) ∧
    (s.stg.state = .idle → (∃ q, s.stg.owner = some q ∧ q ≠ p) → Runs (.stgDiscard p) s (s.setBits rStgStatus fForeign))) ∧
  (∀ s : State, s.stg.state = .check → ((s.stg.set = [] ∧ s.stg.overflow = false) ∨ s.firstFail = none) →
    (s.stg.gens.length < 4 → Runs .commitCheckEnd s { s with stg := { s.stg with state := .apply } }) ∧
    (4 ≤ s.stg.gens.length → wfld (s.reg (bSTG + 0x30)) 15 0 ≠ 0 → Runs .commitCheckEnd s
      { s with stg := { s.stg with state := .wait, waitLimit := wfld (s.reg (bSTG + 0x30)) 15 0 } }) ∧
    (4 ≤ s.stg.gens.length → wfld (s.reg (bSTG + 0x30)) 15 0 = 0 → Runs .commitCheckEnd s (s.commitEnd .busy 0))) ∧
  (∀ (id a : Nat) (s : State), s.stg.state = .check → s.stg.set ≠ [] → s.firstFail = some (id, a) → id ≠ 0x0100 →
    Runs .commitCheckEnd s ({ s with stg := { s.stg with rejId := id, rejOff := a } }.commitEnd .rejected id)) ∧
  (∀ s : State, s.stg.state = .wait → s.stg.gens.length < 4 →
    Runs .commitWaitEnd s { s with stg := { s.stg with state := .apply } }) ∧
  (∀ s : State, s.stg.state = .wait → Runs .commitWaitTimeout s (s.commitEnd .busy 0)) ∧
  (∀ s : State, s.stg.state = .apply → s.bootRuns = true → Runs .commitApply s s.applyCommit)

/-- R140: while a commit is in CHECK, WAIT or APPLY, a staged write, from any path that may write, is discarded with
late_write set, and a commit or a discard with dropped_commit set, whoever owns the set; the commit in progress is not
affected. -/
def Obligations.BusySetDiscards : Prop :=
  ∀ (p : Path) (s : State), s.stg.state = .check ∨ s.stg.state = .wait ∨ s.stg.state = .apply →
    (∀ off v : Nat, off % 4 = 0 → s.wgate p (off - off % 8) = true → p ≠ .vault → stMask off ≠ 0 → stFixed off = false →
      Runs (.stagedWrite p off v) s (s.setBits rStgStatus fLate)) ∧
    (s.wgate p bSTG = true → Runs (.stgCommit p) s (s.setBits rStgStatus fDropped)) ∧
    (s.wgate p (bSTG + 8) = true → Runs (.stgDiscard p) s (s.setBits rStgStatus fDropped)) ∧
    (s.setBits rStgStatus fLate).stg = s.stg ∧ (s.setBits rStgStatus fDropped).stg = s.stg ∧
    (∀ k, wbit ((s.setBits rStgStatus fLate).reg rStgStatus) k = (decide (k = 19) || wbit (s.reg rStgStatus) k)) ∧
    (∀ k, wbit ((s.setBits rStgStatus fDropped).reg rStgStatus) k = (decide (k = 17) || wbit (s.reg rStgStatus) k))

/-- Authentication and sessions of the Vault. (From R159 to R163.) -/
def Obligations.VaultSessions : Prop :=
  ∀ (dbg : Bool) (s : State),
    (s.asks dbg 0x01 .any → Runs (.getStatus dbg) s
      (s.mbxRespond dbg stOK (leBytes 8 s.vltStatus ++ leBytes 8 s.vltFuseStat ++ leBytes 8 s.vltTamper))) ∧
    (s.asks dbg 0x02 .any → (s.vpath dbg).locked = false → ∃ n : List Byte, n.length = 32 ∧ ∃ u : State,
      Runs (.authBegin dbg) s ((u.setVpath dbg { u.vpath dbg with nonce := some n, nonceAt := u.spine }).mbxRespond dbg stOK n) ∧
      u.vlt.drbgReqs = s.vlt.drbgReqs + 1 ∧ u.regs = s.regs ∧ u.mem = s.mem ∧ u.vpath dbg = s.vpath dbg) ∧
    (s.asks dbg 0x02 .any → (s.vpath dbg).locked = true → Runs (.authBegin dbg) s (s.mbxRespond dbg stDENIED [])) ∧
    (s.asks dbg 0x03 .any → (s.vpath dbg).locked = false → (s.vpath dbg).nonce = none →
      Runs (.authProve dbg) s (((s.setVpath dbg { s.vpath dbg with
        fails := (s.vpath dbg).fails + 1
        locked := match s.authLimit with | some l => decide (l ≤ (s.vpath dbg).fails + 1) | none => false }).err
          (bVLT + 0x40)).mbxRespond dbg stAUTH_FAIL [])) ∧
    (∀ n p : List Byte, s.asks dbg 0x03 .any → (s.vpath dbg).locked = false → (s.vpath dbg).nonce = some n → s.vlt.policy = some p →
      Runs (.authProve dbg) s
        (if s.spine - (s.vpath dbg).nonceAt ≤ 20000000000 ∧
            policyHash p (s.mbxF dbg 0 1) (s.mbxF dbg 1 1) = some (Config.sha384 (s.mbxBytes dbg 12 97)) ∧
            Config.ecdsaVerify (s.mbxBytes dbg 12 97)
              (n ++ leBytes 1 (s.mbxF dbg 0 1) ++ leBytes 1 (if dbg then 1 else 0) ++ leBytes 8 Config.deviceId.toNat)
              (s.mbxBytes dbg 112 48) (s.mbxBytes dbg 160 48) = true then
          (s.setVpath dbg { s.vpath dbg with
            sess := some (if s.mbxF dbg 0 1 = 1 then .co else .user), nonce := none, fails := 0 }).mbxRespond dbg stOK []
        else ((s.setVpath dbg { s.vpath dbg with
          nonce := none, fails := (s.vpath dbg).fails + 1
          locked := match s.authLimit with | some l => decide (l ≤ (s.vpath dbg).fails + 1) | none => false }).err
            (bVLT + 0x40)).mbxRespond dbg stAUTH_FAIL [])) ∧
    (s.asks dbg 0x04 .session → Runs (.logout dbg) s ((s.setVpath dbg { s.vpath dbg with sess := none }).mbxRespond dbg stOK [])) ∧
    Runs (.sessionIdleTimeout dbg) s (s.setVpath dbg { s.vpath dbg with sess := none }) ∧
    Runs (.authLockoutEnd dbg) s (s.setVpath dbg { s.vpath dbg with locked := false }) ∧
    (s.mbxFront dbg = true → (s.mbxLen dbg < 8 ∨ 4096 < s.mbxLen dbg ∨ svcLen (s.mbxCode dbg) ≠ some (s.mbxLen dbg - 8)) →
      Runs (.mailboxUnknownService dbg) s (s.mbxRespond dbg stINVALID []))

/-- Keys and random bytes. (From R167, R170 to R173, R178, R184.) -/
def Obligations.VaultKeys : Prop :=
  ∀ (dbg : Bool) (s : State),
    (s.asks dbg 0x10 .co → s.mbxF dbg 0 1 < 16 → s.vlt.fuses.ownerSet = true → s.vlt.fuses.decommissioned = false →
      Runs (.kekImport dbg) s (match Config.kwUnwrap s.vlt.fuses.ownerKey (s.mbxBytes dbg 12 48) with
        | none => s.mbxRespond dbg stAUTH_FAIL []
        | some b =>
          if leNat (b.drop 32 |>.take 1) = s.mbxF dbg 0 1 ∧ leNat (b.drop 33) = 1 then
            { s with vlt := { s.vlt with kek := tset none s.vlt.kek (s.mbxF dbg 0 1) (some (b.take 32)) } }.mbxRespond dbg stOK []
          else s.mbxRespond dbg stINVALID [])) ∧
    (s.asks dbg 0x11 .co → s.mbxF dbg 0 1 < 16 → Runs (.kekDestroy dbg) s
      ({ s with vlt := { s.vlt with kek := tset none s.vlt.kek (s.mbxF dbg 0 1) none } }.mbxRespond dbg stOK [])) ∧
    (∀ kek : List Byte, s.asks dbg 0x20 .user → s.mbxF dbg 0 2 < 4096 → s.mbxF dbg 2 1 < 16 →
      s.vlt.fuses.decommissioned = false → tget none s.vlt.kek (s.mbxF dbg 2 1) = some kek → ∃ t, Runs (.keyLoad dbg) s t ∧
      (Config.kwUnwrap kek (s.mbxBytes dbg 12 48) = none → t = s.mbxRespond dbg stAUTH_FAIL []) ∧
      (∀ b, Config.kwUnwrap kek (s.mbxBytes dbg 12 48) = some b → ∃ u : State,
        t = u.mbxRespond dbg stOK (leBytes 4 (u.vlt.slotGen (s.mbxF dbg 0 2))) ∧
        u.vlt.keys = (s.vlt.setSlot (s.mbxF dbg 0 2) (some
          { key := b.take 32, kek := s.mbxF dbg 2 1, dataset := leNat (b.drop 32 |>.take 4), epoch := leNat (b.drop 36 |>.take 2) })).keys ∧
        u.vlt.fuses = s.vlt.fuses ∧ u.vlt.kek = s.vlt.kek ∧ u.mem = s.mem ∧ u.regs = s.regs)) ∧
    (s.asks dbg 0x20 .user → s.mbxF dbg 0 2 < 4096 → s.mbxF dbg 2 1 < 16 → s.vlt.fuses.decommissioned = true →
      Runs (.keyLoad dbg) s (s.mbxRespond dbg stDENIED [])) ∧
    (∀ u : State, s.asks dbg 0x21 .user → s.mbxF dbg 0 2 < 4096 →
      u = { s with vlt := (s.vlt.setSlot (s.mbxF dbg 0 2) none).dropCopies (s.mbxF dbg 0 2) } →
      Runs (.keyDestroy dbg) s (u.mbxRespond dbg stOK (leBytes 4 (u.vlt.slotGen (s.mbxF dbg 0 2))))) ∧
    (s.asks dbg 0x22 .user → s.mbxF dbg 0 2 < 4096 → (s.vlt.slot (s.mbxF dbg 0 2)).key = none →
      Runs (.keyQuery dbg) s (s.mbxRespond dbg stOK (leBytes 1 0 ++ leBytes 1 (s.vlt.slotGen (s.mbxF dbg 0 2)) ++ leBytes 18 0))) ∧
    (∀ k : Key, s.asks dbg 0x22 .user → s.mbxF dbg 0 2 < 4096 → (s.vlt.slot (s.mbxF dbg 0 2)).key = some k →
      Runs (.keyQuery dbg) s (s.mbxRespond dbg stOK (leBytes 1 1 ++ leBytes 1 (s.vlt.slotGen (s.mbxF dbg 0 2)) ++ leBytes 2 k.kek ++
        leBytes 4 k.dataset ++ leBytes 4 k.epoch ++ leBytes 8 k.records))) ∧
    (s.asks dbg 0x30 .user → s.mbxF dbg 0 4 ≤ 1024 → ∃ (b : List Byte) (u : State), b.length = s.mbxF dbg 0 4 ∧
      Runs (.getRandom dbg) s (u.mbxRespond dbg stOK b) ∧ u.vlt.drbgReqs = s.vlt.drbgReqs + 1 ∧ u.mem = s.mem ∧ u.regs = s.regs)

/-- Each fuse service blows its fuse and no other, or is denied. (From R158 to R160.) -/
def Obligations.VaultFuses : Prop :=
  ∀ (dbg : Bool) (s : State),
    (s.asks dbg 0x40 (if s.vlt.fuses.noKey && !s.vlt.fuses.approved then .any else .co) → s.mbxF dbg 0 1 < 4 →
      (tget none s.vlt.fuses.imgKey (s.mbxF dbg 0 1) = none → Runs (.fuseImageKey dbg) s
        ((s.setFuses { s.vlt.fuses with
          imgKey := tset none s.vlt.fuses.imgKey (s.mbxF dbg 0 1) (some (s.mbxBytes dbg 12 48)) }).mbxRespond dbg stOK [])) ∧
      ((tget none s.vlt.fuses.imgKey (s.mbxF dbg 0 1)).isSome = true → Runs (.fuseImageKey dbg) s (s.mbxRespond dbg stDENIED []))) ∧
    (s.asks dbg 0x41 .co → s.mbxF dbg 0 1 < 4 →
      (s.boot.state = .running → s.boot.keySlot = s.mbxF dbg 0 1 → Runs (.revokeImageKey dbg) s (s.mbxRespond dbg stDENIED [])) ∧
      (s.boot.state ≠ .running →
        (List.range 4).filter (fun k => (tget none s.vlt.fuses.imgKey k).isSome && !tget false s.vlt.fuses.imgRevoked k) ≠ [s.mbxF dbg 0 1] →
        Runs (.revokeImageKey dbg) s ((s.setFuses { s.vlt.fuses with
          imgRevoked := tset false s.vlt.fuses.imgRevoked (s.mbxF dbg 0 1) true }).mbxRespond dbg stOK []))) ∧
    (s.asks dbg 0x42 .co → s.mbxF dbg 0 4 ≤ 64 → s.mbxF dbg 0 4 ≤ s.runSvn → s.vlt.fuses.svn ≤ s.mbxF dbg 0 4 →
      Runs (.advanceSvn dbg) s ((s.setFuses { s.vlt.fuses with svn := s.mbxF dbg 0 4 }).mbxRespond dbg stOK [])) ∧
    (s.asks dbg 0x42 .co → s.mbxF dbg 0 4 ≤ 64 → s.runSvn < s.mbxF dbg 0 4 →
      Runs (.advanceSvn dbg) s (s.mbxRespond dbg stDENIED [])) ∧
    (s.asks dbg 0x43 .co → Runs (.lockDebug dbg) s ((s.setFuses { s.vlt.fuses with debugLock := true }).mbxRespond dbg stOK [])) ∧
    (s.asks dbg 0x44 .co → s.vlt.fuses.ownerSet = false → s.vlt.fuses.approved = false → Runs (.fuseOwnerKey dbg) s
      ((s.setFuses { s.vlt.fuses with ownerKey := s.mbxBytes dbg 8 32, ownerSet := true }).mbxRespond dbg stOK [])) ∧
    (s.asks dbg 0x44 .co → s.vlt.fuses.ownerSet = true → Runs (.fuseOwnerKey dbg) s (s.mbxRespond dbg stDENIED [])) ∧
    (s.asks dbg 0x45 .co → s.vlt.fuses.debugLock = true → s.vlt.fuses.ownerSet = true →
      Runs (.setApproved dbg) s ((s.setFuses { s.vlt.fuses with approved := true }).mbxRespond dbg stOK [])) ∧
    (s.asks dbg 0x45 .co → s.vlt.fuses.ownerSet = false → Runs (.setApproved dbg) s (s.mbxRespond dbg stDENIED []))

/-- Zeroisation, tamper, decommissioning, self-tests and entropy. (From R177, R178, R181 to R184.) -/
def Obligations.VaultTamper : Prop :=
  (∀ (dbg : Bool) (s : State),
    (s.asks dbg 0x50 .any → Runs (.zeroise dbg) s ({ s with vlt := s.vlt.zeroise }.mbxRespond dbg stOK [])) ∧
    (s.asks dbg 0x51 .co → s.vlt.state = .tampered → Runs (.tamperClear dbg 0) s
      ({ s with vlt := { s.vlt with tamper := 0, tamperDue := false, state := .ready } }.mbxRespond dbg stOK [])) ∧
    (∀ n, n ≠ 0 → s.asks dbg 0x51 .co → Runs (.tamperClear dbg n) s (s.mbxRespond dbg stDENIED [])) ∧
    (s.asks dbg 0x52 .co → ∃ u : State, Runs (.decommission dbg) s (u.mbxRespond dbg stOK []) ∧
      u.vlt.fuses = { s.vlt.fuses with decommissioned := true } ∧ u.vlt.kek = [] ∧ u.mem = s.mem ∧ u.regs = s.regs) ∧
    (s.asks dbg 0x60 .any → Runs (.selfTest dbg true) s
      ({ s with vlt := { s.vlt with state := .ready, seeded := true } }.mbxRespond dbg stOK [])) ∧
    (s.asks dbg 0x60 .any → Runs (.selfTest dbg false) s (s.vaultError.mbxRespond dbg stFENCED []))) ∧
  (∀ s : State, Runs .drbgReseed s { s with vlt := { s.vlt with drbgReqs := 0, seeded := true } }) ∧
  (∀ s : State, s.pins.sby = true → Runs .entropyHealthFail s s.vaultError) ∧
  (∀ (x : Fin 4) (s : State), s.pins.sby = true → (x = 0 → s.vlt.pinEn = true) → (x = 1 → s.aon.sbyArmed = true) →
    s.mainRunning = false → (s.aon.asleep = false ∨ wbit s.aon.wakeCfg 3 = false) →
    Runs (.tamperEvent x) s { s with vlt := { s.vlt.zeroise with
      tamper := s.vlt.zeroise.tamper ||| 2 ^ x.val, state := .tampered, tamperDue := true } }) ∧
  (∀ (x : Fin 4) (s : State), s.pins.sby = true → (x = 0 → s.vlt.pinEn = true) → (x = 1 → s.aon.sbyArmed = true) →
    s.mainRunning = true → s.aon.asleep = false →
    (∀ u : State, u = { s with vlt := { s.vlt.zeroise with
      tamper := s.vlt.zeroise.tamper ||| 2 ^ x.val, state := .tampered, tamperDue := false } } → (u.faultC3 0x13 uVLT).aon.asleep = false →
      Runs (.tamperEvent x) s (u.faultC3 0x13 uVLT)))

/-- Bytes written to device memory are read back little-endian, and every other byte reads as before. (From R5, R191,
R193, R198.) -/
def Obligations.MemoryWriteRead : Prop :=
  ∀ (m : Mem) (a : Nat) (bs : List Byte), m.wf →
    (∀ (i : Nat) (b : Byte), bs[i]? = some b → (m.store a bs).rd (a + i) = b) ∧
    (∀ b, b < a ∨ a + bs.length ≤ b → (m.store a bs).rd b = m.rd b) ∧
    (m.store a bs).le a bs.length = leNat bs ∧
    (∀ n v : Nat, n ≠ 0 → (m.store a (leBytes n v)).le a n = v % 2 ^ (8 * n))

/-- A stack's training ends, a die's blocks are initialised in ascending order, a transfer is retried at most four
times. No byte of memory changes but by the end of a die's training, which leaves it all zero. (From R192, R193, R201.)
-/
def Obligations.Stacks : Prop :=
  (∀ (n : Nat) (s : State), (tget {} s.mem.stack n).state = .training →
    ((s.setStack n .ready).dieReady (n / 4) = false → Runs (.stackTrainingDone n true) s (s.setStack n .ready)) ∧
    ((s.setStack n .ready).dieReady (n / 4) = true → ∃ m, Runs (.stackTrainingDone n true) s { s with mem := m } ∧
      (∀ b, b < 0x2000000000 → m.poisoned (0x2000000000 * (n / 4) + b) = false ∧
        m.rd (0x2000000000 * (n / 4) + b) = s.mem.unlisted (0x2000000000 * (n / 4) + b)) ∧
      (∀ b, b < 65536 → tget false m.init (65536 * (n / 4) + b) = false) ∧
      (∀ b, b < 0x2000000000 * (n / 4) ∨ 0x2000000000 * (n / 4 + 1) ≤ b → m.rd b = s.mem.rd b)) ∧
    Runs (.stackTrainingDone n false) s ((s.setStack n .failed).faultC3 0x0B (uStack n))) ∧
  (∀ (die block : Nat) (s : State), die < 2 → block < 65536 → s.dieReady die = true →
    tget false s.mem.init (65536 * die + block) = false →
    (s.mem.init.filter (fun e => decide (65536 * die ≤ e.1) && decide (e.1 < 65536 * die + block))).length = block →
    Runs (.hbmZeroFillBlock die block) s
      { s with mem := { s.mem with init := tset false s.mem.init (65536 * die + block) true } }) ∧
  (∀ (n f : Nat) (s : State), (tget {} s.mem.stack n).state ≠ .off → (tget {} s.mem.stack n).state ≠ .failed → f ≠ 0 →
    (f < 5 → Runs (.hbmTransferRetry n f) s ((s.bump (bMEM + 0x210 + 0x20 * n) f).faultC0 0x09 (uStack n))) ∧
    (5 ≤ f → Runs (.hbmTransferRetry n f) s
      (((s.bump (bMEM + 0x210 + 0x20 * n) 4).setStack n .failed).faultC3 0x0A (uStack n))))

/-- What a scrub read does, clean, corrected or uncorrectable, and the end of a repair. (From R197, R202, R203, R204.)
-/
def Obligations.ScrubAndRepair : Prop :=
  (∀ (err : MemErr) (ow : Bool) (s : State) (a : Nat), s.cb (bMEM + 0x20) 0 = true → s.mainRunning = true →
    s.scrubLine s.mem.scrubPos = some a →
    ∀ u, u = s.metErr a 1 ow err →
      ((({ u with mem := { u.mem with scrubPos := a + 64 } } : State).scrubLine (a + 64)).isSome = true →
        Runs (.scrubRead err ow) s { u with mem := { u.mem with scrubPos := a + 64 } }) ∧
      ((({ u with mem := { u.mem with scrubPos := a + 64 } } : State).scrubLine (a + 64)).isSome = false →
        Runs (.scrubRead err ow) s (({ u with mem := { u.mem with scrubPos := 0 } } : State).bump (bMEM + 0x30) 1))) ∧
  (∀ (err : MemErr) (ow : Bool) (s : State), s.cb (bMEM + 0x20) 0 = false → Runs (.scrubRead err ow) s s) ∧
  (∀ (addr b : Nat) (err : MemErr) (s : State), s.cb (bMEM + 0x20) 1 = true → s.mainRunning = true →
    (region addr = some (.depot b) →
      Runs (.sramScrubRead addr false err) s (s.metErr addr 2 false err)) ∧
    (region addr = some (.bay b) → s.domOn (bayDom b) = true →
      Runs (.sramScrubRead addr false err) s (s.metErr addr 3 false err)) ∧
    (addr < 2 ^ 26 → Runs (.sramScrubRead addr true err) s
      (s.metErr (storeAddr addr) 4 false err))) ∧
  (∀ (r : Repair) (rs : List Repair) (b : List Byte) (s : State), s.mem.repairs = r :: rs → b.length = r.bytes → s.mem.wf →
    ∃ t, Runs (.repairRefetchDone (some b)) s t ∧ t.mem.repairs = rs ∧ t.regs = s.regs ∧
      (∀ i x, b[i]? = some x → t.mem.rd (r.addr + i) = x) ∧ SameMemBut r.addr r.bytes s t) ∧
  (∀ (r : Repair) (rs : List Repair) (s : State), s.mem.repairs = r :: rs →
    Runs (.repairRefetchDone none) s
      (({ s with mem := { s.mem with repairs := rs } } : State).mapToDefault { table := r.table, version := r.version, row := r.row }))

/-- A write sets its semaphore at once, an addition holds at the maximum with the overflow named, and no other semaphore
changes. (From R236, R238.) -/
def Obligations.Semaphores : Prop :=
  ∀ (p : Path) (n v : Nat) (s : State), s.canonical → n < 65536 →
    (s.wgate p (bGLB + 0x80000 + 4 * n) = true → ∃ t, Runs (.glbSem p n v) s t ∧ t.sem n = v % 2 ^ 32 ∧
      (∀ m, m < 65536 → m ≠ n → t.sem m = s.sem m) ∧ t = { s with regs := t.regs }) ∧
    (s.wgate p (bGLB + 0xC0000 + 4 * n) = true → s.sem n + v % 2 ^ 32 < 2 ^ 32 → ∃ t, Runs (.glbSemAdd p n v) s t ∧
      t.sem n = s.sem n + v % 2 ^ 32 ∧ (∀ m, m < 65536 → m ≠ n → t.sem m = s.sem m) ∧ t = { s with regs := t.regs }) ∧
    (s.wgate p (bGLB + 0xC0000 + 4 * n) = true → 2 ^ 32 ≤ s.sem n + v % 2 ^ 32 →
      ∃ u : State, u.sem n = 2 ^ 32 - 1 ∧ u.reg (bGLB + 0x100) = BitVec.ofNat 64 (2 ^ 31 + n) ∧
        Runs (.glbSemAdd p n v) s (u.faultC0 0x15 uSem n))

/-- Doorbell and completion-head writes with the index test, and the two operations of GLB_Q_CTL. (From R217, R220,
R221.) -/
def Obligations.QueueRegisters : Prop :=
  ∀ (p : Path) (q v : Nat) (s : State), q < 4096 →
    (s.wgate p (rDb q) = true →
      ((s.queue q).state ≠ .disabled → dist32 (s.queue q).tail (s.queue q).head ≤ dist32 v (s.queue q).head →
        dist32 v (s.queue q).head ≤ s.ringSize q →
        Runs (.glbQDb p q v) s (s.setQueue q { s.queue q with tail := v % 2 ^ 32 })) ∧
      ((s.queue q).state = .disabled ∨ dist32 v (s.queue q).head < dist32 (s.queue q).tail (s.queue q).head ∨
        s.ringSize q < dist32 v (s.queue q).head → Runs (.glbQDb p q v) s (s.setBits (rQStat q) (2 ^ 61)))) ∧
    (s.wgate p (rCplHead q) = true →
      (dist32 v (s.queue q).cplHead ≤ dist32 (s.queue q).cplTail (s.queue q).cplHead →
        Runs (.glbQCplhead p q v) s ((s.setQueue q { s.queue q with cplHead := v % 2 ^ 32 }).drainAborted q)) ∧
      (dist32 (s.queue q).cplTail (s.queue q).cplHead < dist32 v (s.queue q).cplHead →
        Runs (.glbQCplhead p q v) s (s.setBits (rQStat q) (2 ^ 61)))) ∧
    (s.wgate p (rQCtl q) = true →
      ((s.queue q).state = .stopped → Runs (.queueResume p q) s (s.setQueue q { s.queue q with state := .active })) ∧
      ((s.queue q).state ≠ .stopped → Runs (.queueResume p q) s s) ∧
      ((s.queue q).state = .disabled → Runs (.queueAbort p q) s s) ∧
      ((s.queue q).state ≠ .disabled → ∃ l : List (Nat × Nat × Bool),
        l.length = dist32 (s.queue q).tail (s.queue q).issuePt ∧
        (∀ i, (l[i]?.map Prod.fst).getD (((s.queue q).issuePt + i) % 2 ^ 32) = ((s.queue q).issuePt + i) % 2 ^ 32) ∧
        Runs (.queueAbort p q) s ((({ s with free := s.free + 1 } : State).setQueue q { s.queue q with
          head := (s.queue q).tail, issuePt := (s.queue q).tail, fetched := [], aborted := (s.queue q).aborted ++ l }).drainAborted q)))

/-- Fetch in order up to 16 ahead, the checks and the issue of the head command, and NOP. (From R223 to R225, R227,
R230, R236.) -/
def Obligations.FetchAndIssue : Prop :=
  (∀ (q : Nat) (s : State), s.running = true → (s.queue q).state ≠ .disabled → (s.queue q).head ≠ (s.queue q).tail →
    dist32 (s.queue q).head (s.queue q).issuePt < 16 → s.qB s.gen q 0 0 = false →
    s.reachable (s.slotOf q (s.queue q).head) = true →
    Runs (.commandFetch q) s (s.setQueue q { s.queue q with
      head := ((s.queue q).head + 1) % 2 ^ 32
      fetched := (s.queue q).fetched ++ [(s.mem.poisoned (s.slotOf q (s.queue q).head), wordsOf (s.mem.rds (s.slotOf q (s.queue q).head) 64))] })) ∧
  (∀ (q : Nat) (s : State), 16 ≤ dist32 (s.queue q).head (s.queue q).issuePt → Runs (.commandFetch q) s s) ∧
  (∀ (q : Nat) (bad : Bool) (w : List Nat) (rest : List (Bool × List Nat)) (s : State),
    (s.queue q).fetched = (bad, w) :: rest →
    (∀ cs ns, s.verdict q = .go cs ns → s.firstOfKind q = true → Runs (.commandIssue q) s (s.startTask q w cs ns)) ∧
    (∀ f, s.verdict q = .fail f → s.cplFull s.gen q = false →
      Runs (.commandIssue q) s (s.failHead q (s.headCpl q w f))) ∧
    (s.verdict q = .wait → Runs (.commandIssue q) s s) ∧
    (∀ f, s.running = true → s.flt.state ≠ .c2Recovery → (s.queue q).state = .active → s.qHalted q = false → wb w 0 17 = false →
      s.qB s.gen q 2 56 = false → bad = false → invalidAt (headerBad (s.qF s.gen q 2 62 59) w) = some f →
      s.verdict q = .fail f) ∧
    (∀ ns, s.running = true → s.flt.state ≠ .c2Recovery → (s.queue q).state = .active → s.qHalted q = false → wb w 0 17 = false →
      s.qB s.gen q 2 56 = false → bad = false → headerBad (s.qF s.gen q 2 62 59) w = [] → wd w 0 27 20 = 0 →
      s.kindGone (wd w 0 31 28) = false → s.canTake w = true →
      s.pickInsts (s.qF s.gen q 3 23 0) [wd w 0 31 28] [] = some ns → s.verdict q = .go [] ns) ∧
    (s.canTake w = false → ∀ cs ns, s.verdict q ≠ .go cs ns)) ∧
  (∀ (t : Nat) (x : Task) (g : Stage) (s : State), s.task t = some x → x.stages[0]? = some g → g.op = 0 → g.res = none →
    s.instRuns g.inst = true → s.mayWork g.inst t = true → s.parReady t g = true →
    Runs (.nop t) s ((s.bayUse g.inst g.bufs).endStage t 0 {}))

/-- Completion once every stage has ended or one has failed, the stall on a full completion ring and its end, and the
end of an interrupt hold-off. (From R234, R240 to R242.) -/
def Obligations.Completions : Prop :=
  (∀ (t : Nat) (x : Task) (s : State), s.task t = some x → s.mainRunning = true → s.que.reissue.contains t = false →
    (x.finished = true ∨ x.failed = true) →
    (s.cplFull x.gen x.queue = false → Runs (.commandComplete t) s (s.complete t x)) ∧
    (wb x.words 0 15 = true → x.source.2.status = stOK → Runs (.commandComplete t) s (s.complete t x)) ∧
    (s.cplFull x.gen x.queue = true → wb x.words 0 15 = false ∨ x.source.2.status ≠ stOK →
      Runs (.commandComplete t) s (s.setTask t (some { x with stalled := true }))) ∧
    (x.stalled = true → s.cplFull x.gen x.queue = false →
      Runs (.completionStallRelease t) s (s.complete t { x with stalled := false })) ∧
    (x.stalled = false → Runs (.completionStallRelease t) s s)) ∧
  (∀ (t : Nat) (x : Task) (s : State), s.task t = some x → x.finished = false → x.failed = false →
    Runs (.commandComplete t) s s) ∧
  (∀ (q : Nat) (s : State), (s.queue q).holdoff = true →
    ((s.queue q).irqPend = false → Runs (.irqHoldoffExpiry q) s (s.setQueue q { s.queue q with holdoff := false })) ∧
    ((s.queue q).irqPend = true → Runs (.irqHoldoffExpiry q) s
      ((s.setQueue q { s.queue q with holdoff := false }).qIrq s.gen q)))

/-- A port's grant, the end of a transfer, and the accounts of the streams. (From R255 to R257, R261, R262.) -/
def Obligations.StreamAccounts : Prop :=
  (∀ (port : MemPort) (n : Nat) (x : Strm) (w : Waiting) (tr : Tr) (s : State), s.mainRunning = true →
    s.winner port = some (n, x, w, tr) →
    (∀ b, port = .bridge b →
      Runs (.transferGrant port) s (s.setStrm n { x with presented := some { w with bridged := w.bridged + 1 } })) ∧
    ((∀ b, port ≠ .bridge b) → Runs (.transferGrant port) s (s.grantHome n x tr).presentAll)) ∧
  (∀ (port : MemPort) (n : Nat) (x : Strm) (w : Waiting) (tr : Tr) (s : State), s.winner port = some (n, x, w, tr) →
    (n, x, w, tr) ∈ s.waitingAt port ∧ ∀ e ∈ s.waitingAt port, w.q ≤ e.2.2.1.q) ∧
  (∀ (x : Nat) (e : Xfer) (z : Strm) (s : State), tget none s.str.xfer x = some e → tget none s.str.strm e.stream = some z →
    (∀ r ∈ s.hif.reads, ∀ h, r.2 = some h → h.xfer ≠ some x) →
    Runs (.transferDone x .none) s
      ((({ s with str := { s.str with xfer := tset none s.str.xfer x none } } : State).setStrm e.stream
        { z with level := z.level + e.len }).presentAll)) ∧
  (∀ s : State,
    Runs .rateWindowUpdate s
      (s.mapStrms (fun x => { x with rate := rateNext x.rate x.moved (s.cf (bSTR + 0x20) 3 0), moved := 0 })) ∧
    Runs .bucketRefill s (s.mapStrms (fun x => { x with
      bucket := if x.desc.rateCap = 0 then x.bucket else min x.desc.depth (x.bucket + x.desc.rateCap * 64) })).presentAll ∧
    ∃ n, Runs .qRecompute s (((s.mapStrms (fun x => (s.requeue x).1)).bump (bSTR + 0x50) n).presentAll)) ∧
  (∀ r moved sh : Nat, moved * 65536 ≤ r → rateNext r moved sh = r - (r - moved * 65536) / 2 ^ sh) ∧
  (∀ r moved sh : Nat, r ≤ moved * 65536 → rateNext r moved sh = r + (moved * 65536 - r) / 2 ^ sh)

/-- A yield, a saturated stall counter, a Bay tile, and parameter sets. (From R264, R266, R285, R291 to R294, R661.) -/
def Obligations.TilesAndParameters : Prop :=
  (∀ (n t u : Nat) (s : State), n < 54 → s.cb (bSTR + 0x1000 + 8 * n) 31 = true → s.haltOf n = .running →
    s.curTask n = some u → u ≠ t → ((s.tasksOn n).filter (fun v => decide (some v ≠ some u))).find? (s.taskReady n) = some t →
    Runs (.yieldSwitch n t) s (({ s with str := { s.str with
      inst := tset {} s.str.inst n { (tget {} s.str.inst n : Inst) with cur := some t, switching := 16 } } } : State).bump (bTEL + 0x20000 + 8 * n) 1)) ∧
  (∀ (n t : Nat) (s : State), s.cb (bSTR + 0x1000 + 8 * n) 31 = false → Runs (.yieldSwitch n t) s s) ∧
  (∀ (n c : Nat) (s : State), n < 54 → c < 16 → wbit (s.reg (bTEL + 0x10000 + 0x80 * n + 8 * c)) 63 = false →
    Runs (.telSat n c) s (((s.setReg (bTEL + 0x10000 + 0x80 * n + 8 * c) (BitVec.ofNat 64 (2 ^ 63 + 2 ^ 48 - 1))).setBits
      (bTEL + 0x10) (2 ^ n)).event 3)) ∧
  (∀ (t k : Nat) (x : Task) (g : Stage) (s : State), s.task t = some x → x.stages[k]? = some g → g.res = none →
    g.tiles < g.nTiles → s.instRuns g.inst = true → s.mayWork g.inst t = true → s.parReady t g = true →
    Runs (.tileComplete t k) s
      ((((s.setTask t (some { modStage x k (fun g => { g with tiles := g.tiles + 1 }) with started := true })).bump
        (bSTR + 0x4000 + 16 * g.inst) 1).mapStrms (fun z => z.work t k g.nTiles)).presentAll)) ∧
  (∀ (n t k key : Nat) (y : Task) (g : Stage) (rest : List Nat) (u : State) (s : State), s.task t = some y →
    (tget ({} : Inst) s.str.inst n).waitBank = t :: rest → s.mainRunning = true → y.parStage n = some (k, g, key) →
    s.claimBank n t y.gen (((s.descOf t k key).start : Int) + (s.descOf t k key).offset)
      ((s.descOf t k key).total * (s.descOf t k key).elem) = some u →
    Runs (.paramLoadStart n t) s u) ∧
  (∀ (n t k key : Nat) (y : Task) (g : Stage) (b : Bank) (s : State), (tget ({} : Inst) s.str.inst n).loading = some t →
    s.mainRunning = true → s.powered (bayDom n) = true → s.task t = some y → s.bankOf t n = some b →
    y.parStage n = some (k, g, key) → g.res = none →
    (∀ e ∈ s.elAll (s.descOf t k key), e.err = none ∧ e.poison = []) →
    ∀ d u, d = (s.elAll (s.descOf t k key)).flatMap El.data →
      u = (s.store (bayBase n + b.off) d).bump (bSTR + 0x4008 + 16 * n) 1 →
      (u.parBad t k g d = none →
        Runs (.paramLoadDone n t) s ((u.modBank n t (fun x => some { x with loaded := true, good := true })).presentAll)) ∧
      (∀ ctr, u.parBad t k g d = some ctr → Runs (.paramLoadDone n t) s ((u.err ctr).parFail n t k stFORMAT)))

/-- The Ledger's clock-driven rows: contexts initialised, a batch admitted, a sample's deadline, a pin set, a checkpoint
and a journal entry. (From R300, R306, R308, R313, R316.) -/
def Obligations.LedgerRows : Prop :=
  (∀ s : State, s.mainRunning = true → Runs .ledgerInitDone s { s with ldg := { s.ldg with initDone := true } }) ∧
  (∀ (p e : Nat) (c : Cand) (before after : List Nat) (s : State), s.running = true → s.ldg.initDone = true →
    s.ldg.stopped = false → s.ldg.flush = none → s.flt.state ≠ .c2Recovery →
    (span (s.ldg.lastAdmit + 1) 256).map (· % 256) = before ++ p :: after → (∀ q ∈ before, s.canAdmit q = .other) →
    s.canAdmit p = .go e c → Runs .batchAdmit s (s.admitBatch p e c)) ∧
  (∀ s : State, s.ldg.initDone = false ∨ s.ldg.stopped = true ∨ s.flt.state = .c2Recovery → Runs .batchAdmit s s) ∧
  (∀ (slot : Nat) (s : State), s.ctxBad slot = false →
    ((s.ctx slot).state ≠ .active → Runs (.sampleDeadline slot) s s) ∧
    (∀ b, s.openBatch (s.ctx slot).batchRef = some b → (s.ctx slot).state = .active →
      (b.sampleMs * 1000 ≤ (s.ns / 1000 % 2 ^ 32 + 2 ^ 32 - (s.ctx slot).admitUs) % 2 ^ 32 →
        Runs (.sampleDeadline slot) s
          (((s.corrupt slot 5 (s.ctx slot).stage).bump (ldgCtr 8) 1).tryClose (s.ctx slot).batchRef)) ∧
      ((s.ns / 1000 % 2 ^ 32 + 2 ^ 32 - (s.ctx slot).admitUs) % 2 ^ 32 < b.sampleMs * 1000 →
        Runs (.sampleDeadline slot) s s))) ∧
  (∀ (slot : Nat) (s : State), s.ctxBad slot = true → Runs (.sampleDeadline slot) s (s.faultC2 0x17 uLDG slot)) ∧
  (∀ (p table version : Nat) (pl : Pipe) (s : State), tget {} s.ldg.pipe p = pl → (table, version) ∈ pl.pinWait →
    s.freePin.isSome = true → s.jrnRoom 1 = true →
    Runs (.pinSetCreate p table version) s
      ((({ s with ldg := { s.ldg with pipe := tset {} s.ldg.pipe p { pl with pinWait := pl.pinWait.erase (table, version) } } } : State).newPin
        p).journal 0x08 p table version 0)) ∧
  (∀ (p table version : Nat) (s : State), s.freePin = none → Runs (.pinSetCreate p table version) s s) ∧
  (∀ s : State, s.running = true → s.jrnRoom s.pipesOn.length = true → s.ldg.flush = none →
    Runs .checkpointTimer s (s.pipesOn.foldl State.checkpoint s)) ∧
  (∀ (e : List Byte) (q : List (List Byte)) (s : State), s.ldg.queue = e :: q →
    Runs .journalEntryWrite s ((({ s with ldg := { s.ldg with queue := q } } : State).jrnWrite e).retryCloses))

/-- FETCH takes its entries once enough are there or the wait is over, and a record's end in success, in a failure of
its bytes and by the host's silence. (From R174, R327 to R331.) -/
def Obligations.FetchRows : Prop :=
  (∀ (t k : Nat) (x : Task) (g : Stage) (s : State), s.engReady t k 0 1 x g →
    ∀ n p u, u = s.bayUse g.inst g.bufs → n = (u.descOf t k 5).cnt 1 → p = ingPipe g.words → u.recsOf t = [] →
      (n ≤ (tget ({} : Pipe) u.ldg.pipe p).admTail - (tget ({} : Pipe) u.ldg.pipe p).admHead → n ≠ 0 →
        Runs (.fetch t k) s
          (((u.modTask t (fun x => { x with started := true })).ringTake t g.inst p n).startRecs t g.inst x.gen)) ∧
      (∀ m, m = (tget ({} : Pipe) u.ldg.pipe p).admTail - (tget ({} : Pipe) u.ldg.pipe p).admHead → m ≠ 0 → m < n →
        x.waitOver = true → Runs (.fetch t k) s
          (((u.modTask t (fun x => { x with started := true })).ringTake t g.inst p m).startRecs t g.inst x.gen)) ∧
      ((tget ({} : Pipe) u.ldg.pipe p).admTail - (tget ({} : Pipe) u.ldg.pipe p).admHead < n → x.waitOver = false →
        Runs (.fetch t k) s u) ∧
      ((tget ({} : Pipe) u.ldg.pipe p).admTail = (tget ({} : Pipe) u.ldg.pipe p).admHead → x.waitOver = true →
        (tget ({} : Pipe) u.ldg.pipe p).state ≠ .running → Runs (.fetch t k) s (u.endStage t k {}))) ∧
  (∀ (t : Nat) (s : State), Runs (.fetchWaitExpiry t) s (s.modTask t (fun x => { x with waitOver := true }))) ∧
  (∀ (t i : Nat) (data : List Byte) (r : IngRec) (g : Stage) (s : State), s.recReady t i = some (r, g) →
    (r.src = 2 → data.length = r.stored) →
    (∀ e, s.recStored r data = .error e → e ≠ stPOISON → Runs (.recordDone t i data) s (s.ingFail t [(i, e)])) ∧
    (∀ b u, s.recStored r data = .ok b → u = s.bump (ingCtr 1) b.length →
      (∀ e, u.recPlain r b (4096 * (u.descOf t 0 5).cnt 0) = .error e →
        Runs (.recordDone t i data) s ((u.ingFail t [(i, e)]).keyRetry g.inst)) ∧
      (∀ pl, u.recPlain r b (4096 * (u.descOf t 0 5).cnt 0) = .ok pl →
        (framed r.man pl = none → Runs (.recordDone t i data) s ((u.ingFail t [(i, stFORMAT)]).keyRetry g.inst)) ∧
        (∀ fs w, framed r.man pl = some fs → w = (u.bump (ingCtr 0) 1).bump (ingCtr 2) pl.length →
          ∃ v, Runs (.recordDone t i data) s
            ((((v.unpinKey r).setRec { r with pin := none, done := some (pl, ingEntry r.ticket pl fs) }).ingTiles t i).keyRetry
              g.inst) ∧
            (r.pin = none → v = w) ∧
            (∀ c key, r.pin = some (c, w.vlt.slotGen (manF r.man 0x16 2)) → (w.vlt.slot (manF r.man 0x16 2)).key = some key →
              ∃ z : KeySlot, z = { w.vlt.slot (manF r.man 0x16 2) with key := some { key with records := key.records + 1 } } ∧
                v = { w with vlt := { w.vlt with keys := tset {} w.vlt.keys (manF r.man 0x16 2) z } }))))) ∧
  (∀ (t i : Nat) (r : IngRec) (s : State), s.recOf t i = some r → s.recWaits t i = true → r.done = none →
    Runs (.hostFetchTimeout t i) s ((s.ingFail t [(i, stTIMEOUT)]).keyRetry r.inst)) ∧
  (∀ (t i : Nat) (s : State), s.recOf t i = none → Runs (.hostFetchTimeout t i) s s)

/-- Connections to NVMe over Fabrics targets: connecting, the response of a Read, its timeout and quarantine, and Keep
Alive. (From R335, R336.) -/
def Obligations.NvmeRows : Prop :=
  (∀ (tgt port : Nat) (ns : List (Nat × Nat)) (k : Conn) (s : State), port < 2 → s.conn (2 * tgt + port) = k →
    (k.state = .connecting → (s.ethPort port).up = true → Runs (.nvmeConnect tgt port true ns) s
      ((s.setConn (2 * tgt + port) { k with state := .ready, ns := ns, unacked := 0, retries := 0, rnrs := 0 }).pumpReads tgt)) ∧
    (k.state ≠ .ready → Runs (.nvmeConnect tgt port false ns) s
      ((s.setConn (2 * tgt + port) { k with state := .none }).tgtLost tgt))) ∧
  (∀ (tgt port cid : Nat) (k : Conn) (rd : NvmeRead) (s : State), s.conn (2 * tgt + port) = k →
    tget none k.reads cid = some rd →
    ∀ u, u = s.setConn (2 * tgt + port) { k with reads := tset none k.reads cid none } →
      (∀ st, rd.quar = true → Runs (.nvmeResponse tgt port cid st) s (u.pumpReads tgt)) ∧
      (∀ r, rd.quar = false → u.recOf rd.task rd.record = some r →
        Runs (.nvmeResponse tgt port cid 0) s ((u.setRec { r with left := r.left - 1 }).pumpReads tgt) ∧
        (∀ st, st ≠ 0 → Runs (.nvmeResponse tgt port cid st) s
          (((u.ingFail rd.task [(rd.record, stREMOTE)]).keyRetry r.inst).pumpReads tgt)))) ∧
  (∀ (tgt port cid : Nat) (k : Conn) (rd : NvmeRead) (s : State), s.conn (2 * tgt + port) = k →
    tget none k.reads cid = some rd →
    (rd.quar = true → Runs (.fabricCmdTimeout tgt port cid) s s) ∧
    (∀ u r, rd.quar = false → u = s.setConn (2 * tgt + port) { k with reads := tset none k.reads cid (some { rd with quar := true }) } →
      u.recOf rd.task rd.record = some r →
      Runs (.fabricCmdTimeout tgt port cid) s ((u.ingFail rd.task [(rd.record, stTIMEOUT)]).keyRetry r.inst)) ∧
    (rd.quar = false → Runs (.quarantineReconnect tgt port cid) s s) ∧
    (rd.quar = true → ∃ l, (∀ e ∈ l, e ∈ k.reads ∧ ∀ r, e.2 = some r → r.quar = false) ∧
      Runs (.quarantineReconnect tgt port cid) s
        (((s.setConn (2 * tgt + port) { k with state := .none, reads := l }).bump (ingCtr 6) 1).connStart (2 * tgt + port)))) ∧
  (∀ (tgt : Nat) (s : State), (s.conn (2 * tgt)).state = .ready → (s.conn (2 * tgt + 1)).state ≠ .ready →
    (s.ethPort 0).paused = false →
    ∃ t, Runs (.keepAlive tgt) s t ∧ t.outs = Out.eth 0 "keep_alive" [] :: s.outs)

/-- RoCE packets, priority flow control, address resolution and the ports themselves. (From R31, R332 to R334.) -/
def Obligations.EthernetRows : Prop :=
  (∀ (tgt port psn : Nat) (k : Conn) (s : State), port < 2 → (s.ethPort port).up = true → s.conn (2 * tgt + port) = k →
    (k.state ≠ .connecting → k.state ≠ .ready → ∀ op ecn, Runs (.rocePacketRx tgt port op psn ecn) s (s.ethDiscard port)) ∧
    (k.state = .ready →
      (∀ op, op = .send ∨ op = .rdmaWrite → Runs (.rocePacketRx tgt port op psn false) s
        (if psn = k.rxPsn then (s.setConn (2 * tgt + port) { k with rxPsn := (psn + 1) % 2 ^ 24 }).ethTx port "ack" (leBytes 3 psn)
         else s)) ∧
      Runs (.rocePacketRx tgt port .other psn false) s (s.ethTx port "nak_invalid_request" (leBytes 3 psn)) ∧
      Runs (.rocePacketRx tgt port .ack psn false) s (s.setConn (2 * tgt + port) { k with unacked := 0, retries := 0, rnrs := 0 }) ∧
      (k.rnrs < s.cf (bING + 0x10) 7 5 → Runs (.rocePacketRx tgt port .rnrNak psn false) s
        ((s.setConn (2 * tgt + port) { k with rnrs := k.rnrs + 1 }).bump (ingCtr 4) 1)) ∧
      (k.unacked ≠ 0 → k.retries < s.cf (bING + 0x10) 10 8 → Runs (.roceAckTimeout tgt port) s
        (((s.setConn (2 * tgt + port) { k with retries := k.retries + 1 }).bump (ingCtr 4) k.unacked).ethTx port "retransmit"
          (leBytes 4 k.unacked))) ∧
      (k.unacked ≠ 0 → s.cf (bING + 0x10) 10 8 ≤ k.retries → Runs (.roceAckTimeout tgt port) s
        (s.setConn (2 * tgt + port) { k with state := .none, unacked := 0, retries := 0, rnrs := 0 })) ∧
      (k.unacked = 0 → Runs (.roceAckTimeout tgt port) s s))) ∧
  (∀ (x prio : Nat) (s : State), (s.ethPort x).up = true →
    (prio = s.cf (rEth x) 55 52 →
      Runs (.pfcFrameRx x prio true) s (s.setEthPort x { s.ethPort x with paused := true }) ∧
      ∃ t, Runs (.pfcFrameRx x prio false) s t ∧ (t.ethPort x).paused = false ∧ (t.ethPort x).held = [] ∧
        t.outs = ((s.ethPort x).held.map (fun f => Out.eth x f.1 f.2)).reverse ++ s.outs) ∧
    (prio ≠ s.cf (rEth x) 55 52 → ∀ b, Runs (.pfcFrameRx x prio b) s s) ∧
    (x < 2 → Runs (.ethFrameDiscard x) s (s.ethDiscard x)) ∧
    (x < 2 → ∃ v, Runs (.addrResAnswer x (s.ownIp x)) s (s.emit (.eth x v (s.cfgBytes (rEth x) 6)))) ∧
    (∀ ip, ip ≠ s.ownIp x → Runs (.addrResAnswer x ip) s s) ∧
    Runs (.ethPortDown x) s
      ((((s.eth.conn.map Prod.fst).filter (fun c => c % 2 = x)).map (· / 2)).foldl State.tgtLost (s.ethDown x)) ∧
    Runs (.ethPortUp x) s s) ∧
  (∀ (x : Nat) (s : State), (s.ethPort x).up = false → s.ethCan x = true →
    ∃ v, Runs (.ethPortUp x) s ((s.setEthPort x { up := true }).emit (.eth x v (s.cfgBytes (rEth x) 6)))) ∧
  (∀ (x hop mac : Nat) (e : ArpEntry) (s : State), tget none (s.ethPort x).arp hop = some e →
    (e.mac = none → e.tries < 4 → Runs (.addrResRequest x hop) s ((s.arpPut x hop { e with tries := e.tries + 1 }).arpAsk x hop)) ∧
    (e.mac.isSome = true → Runs (.addrResRequest x hop) s s) ∧
    (s.connsOn x hop = [] → (s.arpPut x hop { mac := some mac }).connsOn x hop = [] →
      Runs (.addrResReply x hop mac) s (s.arpPut x hop { mac := some mac })) ∧
    (e.mac.isSome = true → s.connsOn x hop ≠ [] → Runs (.addrEntryRefresh x hop) s (s.arpAsk x hop)) ∧
    (e.mac.isSome = true → Runs (.addrEntryExpiry x hop) s
      (s.setEthPort x { s.ethPort x with arp := tset none (s.ethPort x).arp hop none }))) ∧
  (∀ (x hop mac : Nat) (s : State), tget none (s.ethPort x).arp hop = none →
    Runs (.addrResReply x hop mac) s s ∧ Runs (.addrResRequest x hop) s s)

/-- DEC, LEX, GRT and ORY rows run their stage and end it. Where the result is given, its low half counts the samples or
batch indices of the output; only a DAMAGED stage has a detail. (From R362, R384, R394, R427.) -/
def Obligations.MediaAndMatrixRows : Prop :=
  ∀ (t k : Nat) (x : Task) (g : Stage) (s u : State), u = s.bayUse g.inst g.bufs →
    (s.engReady t k 1 1 x g → EndsCounted (.decodeImage t k) t k ((u.descOf t k 7).cnt 2) s) ∧
    (s.engReady t k 1 2 x g → EndsCounted (.decodeVideo t k) t k ((u.descOf t k 7).cnt 3) s) ∧
    (s.engReady t k 2 1 x g → EndsCounted (.tokenize t k) t k ((u.descOf t k 7).cnt 1) s) ∧
    (s.engReady t k 3 1 x g → EndsCounted (.transform t k) t k ((u.descOf t k 7).cnt 2) s) ∧
    (s.engReady t k 4 1 x g → EndsCounted (.matmul t k) t k ((u.descOf t k 7).cnt 2) s) ∧
    (s.engReady t k 4 2 x g → EndsCounted (.vqSearch t k) t k ((u.descOf t k 7).cnt 2) s) ∧
    (s.engReady t k 4 3 x g → EndsCounted (.rowop t k) t k ((u.descOf t k 7).cnt 2) s)

/-- COPY, GATHER_ROWS and SCATTER_ROWS run their stage and end it. An OK copy counts the elements it wrote; an OK gather
or scatter met no index out of range and counts indices and pads; FORMAT names the first bad index. (From R543, R544,
R547, R548.) -/
def Obligations.ExchangeRows : Prop :=
  ∀ (t k : Nat) (x : Task) (g : Stage) (s u : State), u = s.bayUse g.inst g.bufs →
    (s.engReady t k 9 1 x g → ∃ (w : State) (r : Res), Runs (.copy t k) s (w.endStage t k r) ∧ StreamFrame s (w.endStage t k r) ∧ r.detail = 0 ∧ r.status ≠ stFORMAT ∧
      (r.status = stOK → wb g.words 5 16 = false →
        r.result = putB (!copyExchange g.words (u.descOf t k 0).elem (u.descOf t k 1).elem) 63 + put (u.descOf t k 1).total 0 48)) ∧
    (∀ sc : Bool, s.engReady t k 9 (if sc then 3 else 2) x g →
      ∀ (q rows : Nat) (idx : Nat → Nat), q = (u.descOf t k 9).cnt 0 →
        rows = (if sc then (u.descOf t k 7).cnt 0 else (u.descOf t k 5).cnt 0) →
        (∀ n, idx n = leNat (u.elN (u.descOf t k 9) n).data) →
        ∃ (w : State) (r : Res), Runs (if sc then .scatterRows t k else .gatherRows t k) s (w.endStage t k r) ∧
          StreamFrame s (w.endStage t k r) ∧ r.detail = 0 ∧
          (r.status = stOK → (∀ n, n < q → idx n = 0xFFFFFFFF ∨ idx n < rows) ∧ r.result % 2 ^ 32 = q % 2 ^ 32) ∧
          (r.status = stFORMAT → ∃ p, p < q ∧ r.result = p ∧ idx p ≠ 0xFFFFFFFF ∧ rows ≤ idx p ∧
            ∀ n, n < p → idx n = 0xFFFFFFFF ∨ idx n < rows))

/-- GATHER, POOL and PREFETCH either end their stage or record what they still wait for; the clocks and limits of the
gather side. (From R452, R457, R460, R463, R465, R467.) -/
def Obligations.GatherRows : Prop :=
  (∀ (t k op : Nat) (x : Task) (g : Stage) (s u : State), u = s.bayUse g.inst g.bufs → 1 ≤ op → op ≤ 3 →
    s.engReady t k 5 op x g →
    Runs (if op = 1 then .gather t k else if op = 2 then .pool t k else .prefetch t k) s (u.gthRun op t k x g) ∧
    ((∃ (w : State) (r : Res) (hb : List (List Byte)), u.gthRun op t k x g = w.endStage t k r hb) ∨ (∃ f, f ∈ (u.gthRun op t k x g).gth.fetch))) ∧
  (∀ (n : Nat) (r : GthReq) (s : State), (tget ({} : ReadSlot) s.gth.slots n).req = some r →
    ∃ t, Runs (.remoteTimeout n) s t ∧ tget {} t.gth.slots n =
      { gen := ((tget ({} : ReadSlot) s.gth.slots n).gen + 1) % 256, quar := true, req := none }) ∧
  (∀ (n : Nat) (s : State), (tget ({} : ReadSlot) s.gth.slots n).req = none → Runs (.remoteTimeout n) s s) ∧
  (∀ (n : Nat) (x : ReadSlot) (s : State), tget {} s.gth.slots n = x →
    Runs (.readSlotRelease n) s { s with gth := { s.gth with slots := tset {} s.gth.slots n { x with quar := false } } }) ∧
  (∀ s : State, Runs .heatWindowEnd s { s with gth := { s.gth with heat := [] } }) ∧
  (∀ (t v : Nat) (x : GthVer) (s : State), v < 4 → tget {} s.gth.ver (4 * t + v) = x →
    (x.state ≠ .retiring → Runs (.versionSlotFree t v) s s) ∧
    (x.state = .retiring → s.ldg.pins = [] → s.taskList = [] → (∀ e ∈ s.gth.slots, e.2.req = none) →
      Runs (.versionSlotFree t v) s { s with gth := { s.gth with ver := tset {} s.gth.ver (4 * t + v) {} } }) ∧
    (∀ e ∈ s.ldg.pins, (t, x.version) ∈ e.2.tables → Runs (.versionSlotFree t v) s s)) ∧
  (∀ (t k : Nat) (s : State), ∃ l, l.length = s.gth.fetch.length ∧
    Runs (.repairWaitTimeout t k) s { s with gth := { s.gth with fetch := l } })

/-- A request of another device is answered with rows or with a partial; an answer frees its read slot or, arriving
late, is counted. (From R460, R461, R574, R575.) -/
def Obligations.GatherMessages : Prop :=
  (∀ (m : RxMsg) (n : Nat) (s : State), s.has 3 0 m → (kindBays 5).find? (fun n => s.instRuns n) = some n →
    ∃ (ty : Nat) (p : List Byte), (ty = if leNat ((m.body.drop 6).take 1) = 0 then 4 else 5) ∧ m.body.take 4 <+: p ∧
      Runs .gatherReq s (((s.popMsg m).bump (bGTH + 0x100) 1).gateMsg n { dst := m.src, toEp := m.srcEp, type := ty, payload := p })) ∧
  (∀ s : State, (s.inMsg 3 0 = none → Runs .gatherReq s s) ∧ (s.inMsg 4 0 = none → Runs .gatherRsp s s) ∧
    (s.inMsg 5 0 = none → Runs .pooledSum s s)) ∧
  (∀ (m : RxMsg) (s : State) (id : Nat), id = leNat ((m.body.drop 0).take 4) →
    (s.has 4 0 m → (s.popMsg m).slotFor id false = none → Runs .gatherRsp s ((s.popMsg m).lateRsp id)) ∧
    (s.has 5 0 m → (s.popMsg m).slotFor id true = none → Runs .pooledSum s ((s.popMsg m).lateRsp id)) ∧
    (∀ n r, s.has 4 0 m → (s.popMsg m).slotFor id false = some (n, r) → ∃ t, Runs .gatherRsp s t ∧
      t.gth.slots = ((s.popMsg m).slotDone n).gth.slots) ∧
    (∀ n r, s.has 5 0 m → (s.popMsg m).slotFor id true = some (n, r) → ∃ f, (∀ y, (f y).task = y.task ∧ (f y).stage = y.stage) ∧
      Runs .pooledSum s (((s.popMsg m).slotDone n).modFetch r f)))

/-- SAMPLE: its failures, its waiting and its end; pages and kills. (From R475, R476, R478, R480, R485.) -/
def Obligations.SamplingRows : Prop :=
  (∀ (t k : Nat) (x : Task) (g : Stage) (s u : State) (els : List El), u = s.bayUse g.inst g.bufs → s.engReady t k 6 1 x g →
    els = (List.range ((u.descOf t k 5).cnt 0)).map (u.elN (u.descOf t k 5)) →
    (∀ e, els.findSome? El.err = some e → Runs (.sample t k) s (u.endStage t k { status := e })) ∧
    (els.findSome? El.err = none → (∃ e ∈ els, e.poison ≠ []) → ∃ n, Runs (.sample t k) s
      ((u.countPoison n).endStage t k { status := stPOISON })) ∧
    (els.findSome? El.err = none → (∀ e ∈ els, e.poison = []) →
      ∀ ids v done fail, ids = els.map (fun e => leNat e.data) →
        u.seqLoop x.gen g.inst x.waitOver ids (ids.drop g.work.length) g.work = (v, done, fail) →
        ∀ w, w = v.modTask t (fun y => { modStage y k (fun h => { h with work := done }) with started := true }) →
        (∀ e, fail = some e → Runs (.sample t k) s (w.endStage t k { status := e })) ∧
        (fail = none → done.length < ids.length → Runs (.sample t k) s w) ∧
        (fail = none → ids.length ≤ done.length → ∃ (y : State) (r : Res) (hb : List (List Byte)), Runs (.sample t k) s (y.endStage t k r hb) ∧
          (r.result ≠ 0 → r.result % 2 ^ 32 = done.length % 2 ^ 32)))) ∧
  (∀ (t : Nat) (s : State), Runs (.sampleWaitExpiry t) s (s.modTask t (fun x =>
    if x.stages.any (fun g => g.kind = 6 && g.op = 1 && g.res.isNone) then { x with waitOver := true } else x))) ∧
  (∀ (p : Path) (id : Nat) (s : State), s.wgate p (bSMP + 0x20) = true →
    Runs (.smpSeqKill p id) s ((s.setReg (bSMP + 0x20) (BitVec.ofNat 64 (id % 2 ^ 16))).seqKill (id % 2 ^ 16))) ∧
  (∀ (m : RxMsg) (s : State), s.has 7 0 m → s.domOn 13 = true →
    ∀ u id a q n, u = s.popMsg m → id = leNat ((m.body.drop 0).take 4) % 2 ^ 16 → a = u.seqAddr u.gen id →
      q = Seq.ofBytes (u.mem.rds a 128) → n = leNat ((m.body.drop 0xC).take 4) →
      (u.seqCount u.gen ≤ id → Runs .logitPage s (u.err (bSMP + 0x108))) ∧
      (id < u.seqCount u.gen → u.rdErr a 128 = none → q.state ≠ 1 → Runs .logitPage s (u.err (bSMP + 0x108))) ∧
      (id < u.seqCount u.gen → u.rdErr a 128 = none → q.state = 1 → leNat ((m.body.drop 4).take 2) = q.step →
        leNat ((m.body.drop 8).take 4) = q.received → q.received + n ≤ q.vocab → leNat ((m.body.drop 6).take 1) = q.fmt →
        1 ≤ n → 16 + n * q.width ≤ m.body.length → u.accErr 0 ((q.logits + q.received * q.width : Nat) : Int) (n * q.width) = none →
        Runs .logitPage s (((u.store (q.logits + q.received * q.width) ((m.body.drop 16).take (n * q.width))).store (a + 0x38)
          (leBytes 4 (q.received + n))).bump (bSMP + 0x100) 1)))

/-- DEPOSIT and DEPOSIT_SEQ end their stage; layouts, builds, offers and their ends. (From R490, R494 to R505.) -/
def Obligations.PackRows : Prop :=
  (∀ (t k : Nat) (x : Task) (g : Stage) (s : State),
    (s.engReady t k 7 1 x g → ∃ (w : State) (r : Res), Runs (.deposit t k) s (w.endStage t k r) ∧ (r.status ≠ stDAMAGED → r.detail = 0)) ∧
    (s.engReady t k 7 2 x g → ∃ (w : State) (r : Res), Runs (.depositSeq t k) s (w.endStage t k r) ∧ (r.status ≠ stDAMAGED → r.detail = 0))) ∧
  (∀ (p : Nat) (s : State), (s.pakPipe p).due = true → s.domOn 14 = true →
    (∀ fs, s.readLayout p = some fs → Runs (.layoutRead p) s (s.setPakPipe p { fields := fs, ready := true })) ∧
    (s.readLayout p = none → Runs (.layoutRead p) s (s.setPakPipe p { bad := true }))) ∧
  (∀ (e n w : Nat) (b : PakBatch) (im : Image) (s : State), s.pakBatch e = some b → b.inst = some n → b.built = false →
    s.instRuns n = true → w = (match s.openBatch e with | some x => x.mains.length + x.reserves.length | none => b.batchSize) →
    im = s.buildImage b w → im.lost = [] → s.jrnRoom 0 = true → s.accErr 0 ((b.addr : Nat) : Int) im.bytes.length = none →
    ∀ u k, u = (((s.store b.addr im.bytes).setPakBatch e (some { b with built := true, comp := im.comp, ranges := im.ranges })).bump
        (pakCtr n 1) 1).bump (pakCtr n 6) im.spilled → k = u.destKey b.pipe (b.id % 2 ^ 40) →
      Runs (.batchBuildDone e) s ((u.setPakDest k { u.pakDest k with queue := (u.pakDest k).queue ++ [e] }).pakAssign)) ∧
  (∀ (k : Nat) (s : State), (s.pakDest k).cur.isSome = true → Runs (.offerStart k) s (s.pushOffer k)) ∧
  (∀ (k e n : Nat) (rest : List Nat) (b : PakBatch) (s : State), (s.pakDest k).cur = none → (s.pakDest k).queue = e :: rest →
    s.pakBatch e = some b → b.inst = some n → s.instOk n = true → s.running = true → s.flt.state ≠ .c2Recovery →
    ∀ d c, d = s.pakDest k → c = { b with inst := some n, offers := b.offers + 1 } →
      Runs (.offerStart k) s
        ((((s.setPakBatch e (some c)).setPakDest k { dsn := (d.dsn + 1) % 2 ^ 32, queue := rest, cur := some { entry := e, dsn := d.dsn } }).stampOffer
          c d.dsn c.offers).pushOffer k)) ∧
  (∀ (m : RxMsg) (s : State), s.has 8 1 m →
    (∀ k, s.ackedDest m = some k → s.jrnRoom 1 = true → Runs .batchAck s ((s.popMsg m).delivered k)) ∧
    (∀ k, s.ackedDest m = some k → s.jrnRoom 1 = false → Runs .batchAck s s) ∧
    (s.ackedDest m = none → Runs .batchAck s ((s.popMsg m).bump (pakCtr 44 5) 1))) ∧
  (∀ (p : Nat) (o : Offer) (s : State), (s.pakDest (16384 * p)).cur = some o → o.sent = true → s.pakHost p = true →
    s.hostUp = true → s.jrnRoom 1 = true → Runs (.hostOfferDone p) s (s.delivered (16384 * p))) ∧
  (∀ (k : Nat) (s : State), s.jrnRoom 1 = true →
    ((s.pakDest k).cur.isSome = true → Runs (.holdTimeout k) s (s.endOffer k true)) ∧
    ((s.pakDest k).cur = none → Runs (.holdTimeout k) s s)) ∧
  (∀ (p : Path) (n v : Nat) (s : State), n < 256 → s.wgate p (bPAK + 0x20000 + 8 * n) = true →
    Runs (.pakHostHead p n v) s ((s.setReg (bPAK + 0x20000 + 8 * n) (BitVec.ofNat 64 (v % 2 ^ 32))).pushOffer (16384 * n))) ∧
  (∀ (ep ctr : Nat) (s : State),
    (s.stepHeld ep ctr = false → Runs (.stepPageDrop ep ctr) s s) ∧
    (s.stepHeld ep ctr = true → ∃ bay, Runs (.stepPageDrop ep ctr) s
      ((s.purge (fun (x : Nat × Nat × Nat) (d : Nat) => d = ep && x = (0, ctr, 1))).err (pakCtr bay 8))))

/-- Frames, the clock servo, timestamps, triggers, fusion and CAPTURE. (From R513, R514, R516 to R524, R527.) -/
def Obligations.SensorRows : Prop :=
  (∀ (port vc num : Nat) (s : State), s.senPort port = true → vc < 16 →
    Runs (.frameStart port vc num) s ((s.layersOf port vc).foldl (fun s l => s.openFrame num l) s) ∧
    Runs (.frameEnd port vc num) s
      (((s.layersOf port vc).filter (fun l => (s.layer l).openF.any (fun f => f.csi = num))).foldl State.closeFrame s) ∧
    (∀ dt crc data, Runs (.longPacket port vc dt false crc data) s (s.err (senCtr 9))) ∧
    (∀ dt crc data, (∀ l ∈ s.layersOf port vc, s.layerDt l ≠ dt) → Runs (.longPacket port vc dt true crc data) s (s.bump (senCtr 11) 1)) ∧
    (∀ dt l f data, (s.layersOf port vc).find? (fun l => s.layerDt l = dt && vc < 16) = some l → (s.layer l).openF = some f →
      f.lines < s.layerH l → data.length = cdiv (s.layerW l * wireBits dt) 8 →
      ∃ u, u = s.putLine f f.lines (lineBytes dt (s.layerW l) data) ∧ Runs (.longPacket port vc dt true true data) s
        (u.setLayer l { s.layer l with openF := some { f with lines := f.lines + 1, good := some f.lines } })) ∧
    (∀ dt l f y data, (s.layersOf port vc).find? (fun l => s.layerDt l = dt && vc < 16) = some l → (s.layer l).openF = some f →
      f.lines < s.layerH l → f.good = some y →
      ∃ u, u = (s.err (senCtr 10)).putLine f f.lines ((s.err (senCtr 10)).mem.rds ((s.err (senCtr 10)).lineAddr f y) (s.layerW l * storedBytes dt)) ∧
        Runs (.longPacket port vc dt true false data) s
          (u.setLayer l { s.layer l with openF := some { f with lines := f.lines + 1, bad := f.bad + 1 } }))) ∧
  (∀ (l : Nat) (f : SFrame) (s : State), (s.layer l).openF = some f → s.latchLine f < f.lines →
    Runs (.frameLatch l) s (s.latchFrame l)) ∧
  (∀ (src : Nat) (off : Int) (s : State), (s.ptpFrom src = true →
      Runs (.ptpSync src off) s (s.servoSync off) ∧ Runs (.ptpMessage src (some off)) s (s.servoSync off)) ∧
    (s.ptpFrom src = false → Runs (.ptpSync src off) s s) ∧ Runs (.ptpMessage src none) s s ∧
    Runs .servoHoldover s s.servoLost) ∧
  (∀ (n : Nat) (rising : Bool) (s : State), n < 8 → s.instRuns 52 = true →
    s.cf (bSEN + 0x5000 + 0x10 * n) 1 0 = 2 ∨ s.cf (bSEN + 0x5000 + 0x10 * n) 1 0 = (if rising then 0 else 1) →
    ((tget [] s.sen.ts n).length < 64 → Runs (.tsInCapture n rising) s { s with sen := { s.sen with
      ts := tset [] s.sen.ts n (tget [] s.sen.ts n ++ [s.ns]), lastTs := tset none s.sen.lastTs n (some s.ns) } }) ∧
    (64 ≤ (tget [] s.sen.ts n).length → Runs (.tsInCapture n rising) s (s.setBits (bSEN + 0x5800 + 8 * n) (2 ^ 31)))) ∧
  (∀ (t : Nat) (s : State), t < 4 → s.instRuns 52 = true →
    (∀ p, (s.trig t).pulse = some p →
      Runs (.trigEdge t) s ((s.setTrig t { s.trig t with pulse := none }).trigLevel t (s.trigIdle t))) ∧
    ((s.trig t).pulse = none → s.cb (bSEN + 0x6000 + 0x20 * t) 63 = true → Runs (.trigEdge t) s
      ((s.setTrig t { s.trig t with pulse := some (s.cf (bSEN + 0x6000 + 0x20 * t) 31 0, s.cb (bSEN + 0x6000 + 0x20 * t) 62) }).trigLevel
        t (!s.cb (bSEN + 0x6000 + 0x20 * t) 62))) ∧
    ((s.trig t).pulse = none → s.cb (bSEN + 0x6000 + 0x20 * t) 63 = false → Runs (.trigEdge t) s s)) ∧
  (∀ (g k : Nat) (s : State), g < 8 → (s.group g).next = some k → s.grpOn g = true → s.instRuns 52 = true →
    ∃ t, Runs (.fusionClose g) s t ∧ (t.group g).next = some (k + 1) ∧ (t.group g).seq = ((s.group g).seq + 1) % 2 ^ 32) ∧
  (∀ (t k : Nat) (x : Task) (g : Stage) (s u : State), u = s.bayUse g.inst g.bufs → s.engReady t k 8 1 x g →
    ((u.capAvail g.words).length < (u.descOf t k 7).cnt 2 → x.waitOver = false → Runs (.capture t k) s u) ∧
    ((u.descOf t k 7).cnt 2 ≤ (u.capAvail g.words).length → (u.descOf t k 7).cnt 2 ≠ 0 →
      ∃ (w : State) (r : Res) (hb : List (List Byte)), Runs (.capture t k) s (w.endStage t k r hb)) ∧
    (x.waitOver = true → u.capAvail g.words ≠ [] → (u.descOf t k 7).cnt 2 ≠ 0 →
      ∃ (w : State) (r : Res) (hb : List (List Byte)), Runs (.capture t k) s (w.endStage t k r hb))) ∧
  (∀ (t : Nat) (x : Task) (s : State), s.task t = some x → x.stages.any (fun g => g.kind = 8 && g.op = 1) = true →
    Runs (.captureWaitExpiry t) s (s.modTask t (fun x => { x with waitOver := true })))

/-- A write of 1 to GLB_AZM_GO starts a block, and the oldest block becomes the output when it is ready. (From R433,
R444.) -/
def Obligations.AzimuthRows : Prop :=
  (∀ (p : Path) (s : State), s.wgate p (bGLB + 0x830) = true → Runs (.glbAzmGo p) s
    { s with azm := { s.azm with jobs := s.azm.jobs ++ [(s.halves (bGLB + 0x800) 4, s.halves (bGLB + 0x820) 2)] } }) ∧
  (∀ (p : Path) (s : State), s.wgate p (bGLB + 0x830) = false → Runs (.glbAzmGo p) s s) ∧
  (∀ s : State, s.azm.jobs = [] → Runs .azmBlockReady s s) ∧
  (∀ (key c : List Nat) (js : List (List Nat × List Nat)) (s : State), s.azm.jobs = (key, c) :: js → s.azm.held = [] →
    Runs .azmBlockReady s { s with azm := { jobs := js, out := azimuth key c, held := [] } })

/-- The training of a Nguorn port, by its events, its limits and its INIT flits. (From R556, R557, R563.) -/
def Obligations.PortTraining : Prop :=
  ∀ (p : Nat) (s : State),
    ((s.port p).state = .pmdTrain → Runs (.pmdTrainDone p) s (s.portTo p .fecLock (s.port p).cause)) ∧
    ((s.port p).state = .fecLock → Runs (.fecLockDone p) s (s.portTo p .flitSync (s.port p).cause)) ∧
    ((s.port p).state = .flitSync → Runs (.flitSyncDone p) s (s.portTo p .param (s.port p).cause)) ∧
    ((s.port p).state = .retrain →
      ((s.port p).sub = 0 → ∃ t, Runs (.fecLockDone p) s t ∧ (t.port p).state = .retrain ∧ (t.port p).sub = 1) ∧
      ((s.port p).sub = 1 → ∃ t, Runs (.flitSyncDone p) s t ∧ (t.port p).state = .retrain ∧ (t.port p).sub = 2) ∧
      ((s.port p).attempts < 2 → ∃ t, Runs (.retrainAttemptTimeout p) s t ∧ (t.port p).state = .retrain ∧ (t.port p).sub = 0 ∧
        (t.port p).attempts = (s.port p).attempts + 1) ∧
      (2 ≤ (s.port p).attempts → Runs (.retrainAttemptTimeout p) s ((s.portTo p .detect 7).detectExit p))) ∧
    ((s.port p).state = .pmdTrain → Runs (.trainingTimeout p) s ((s.portTo p .detect 1).detectExit p)) ∧
    ((s.port p).state = .fecLock → Runs (.trainingTimeout p) s ((s.portTo p .detect 2).detectExit p)) ∧
    ((s.port p).state = .flitSync → Runs (.trainingTimeout p) s ((s.portTo p .detect 3).detectExit p)) ∧
    ((s.port p).state = .param → Runs (.trainingTimeout p) s ((s.portTo p .detect 4).detectExit p)) ∧
    ((s.port p).state = .active → Runs (.trainingTimeout p) s s) ∧
    (∀ (ver kind port id count : Nat) (adv : List Nat) (seen : Bool) (ack : Option Nat) (cum : List Nat) (u : State),
      u = s.setPort p ((s.port p).used ack cum) → (s.port p).state = .param →
      (ver ≠ 1 ∨ (∃ v, v < 4 ∧ adv.getD v 0 < 8) ∨ 4096 < (adv.take 4).sum →
        Runs (.initFlit p ver kind port id count adv seen ack cum) s ((u.portTo p .detect 4).detectExit p)) ∧
      (ver = 1 → (∀ v, v < 4 → 8 ≤ adv.getD v 0) → (adv.take 4).sum ≤ 4096 →
        ∀ y, y = { u.port p with peer := some { kind := kind, id := id, port := port, count := count }, gotInit := true, peerSeen := (u.port p).peerSeen || seen, adv := adv.take 4 } →
        (y.peerSeen = true → y.sentSeen = true → Runs (.initFlit p ver kind port id count adv seen ack cum) s
          ((u.setPort p y).toActive p (adv.take 4))) ∧
        (y.peerSeen = false ∨ y.sentSeen = false → Runs (.initFlit p ver kind port id count adv seen ack cum) s (u.setPort p y))))

/-- Flits: what a slot sends, what a received flit does, replay and its exhaustion. (From R559, R560, R562, R563, R566,
R581.) -/
def Obligations.Flits : Prop :=
  ∀ (p : Nat) (x : Port) (s : State), s.port p = x →
    (x.state = .active →
      (x.nakDue = true → Runs (.flitSlotTx p) s
        (((s.sendFlit p 3 0 0 x.expected []).setPort p { x with nakDue := false }).bump (nglCtr p 4) 1)) ∧
      (∀ i, x.nakDue = false → x.replay = some i → Runs (.flitSlotTx p) s (s.replaySlot p i)) ∧
      (x.nakDue = false → x.replay = none → x.canSend 0 = true → Runs (.flitSlotTx p) s (s.sendData p 0)) ∧
      (x.nakDue = false → x.replay = none → x.canSend 0 = false → s.rrPick p x = none →
        Runs (.flitSlotTx p) s (s.sendFlit p 0 0 0 0 [])) ∧
      (∀ v left, x.nakDue = false → x.replay = none → x.canSend 0 = false → s.rrPick p x = some (v, left) →
        Runs (.flitSlotTx p) s ((s.setPort p { x with rrVc := v, rrLeft := left }).sendData p v)) ∧
      (∀ vc seq payload ack cum y, y = x.used ack cum →
        (seq ≠ y.expected → Runs (.dataFlitRx p vc seq payload ack cum) s (s.setPort p y.wantNak)) ∧
        (seq = y.expected → Runs (.dataFlitRx p vc seq payload ack cum) s
          ((s.setPort p { y with expected := (seq + 1) % 4096, ackValid := true, nakFor := none, nakDue := false, rx := y.rx.set (vc % 4) (y.rx.getD (vc % 4) [] ++ (payload ++ List.replicate 232 0).take 232) }).bump
            (nglCtr p 1) 1))) ∧
      (∀ ack cum, Runs (.idleFlitRx p ack cum) s (s.setPort p (x.used ack cum))) ∧
      Runs (.badFlit p) s ((s.setPort p x.wantNak).err (nglCtr p 3)) ∧
      (x.nakFor = some x.expected → Runs (.nakRepeat p) s (s.setPort p { x with nakDue := true })) ∧
      (x.retry ≠ [] → Runs (.replayTimer p) s (s.startReplay p 0) ∧ Runs (.retryExhausted p) s (s.toRetrain p 5 0x0D)) ∧
      (x.retry = [] → Runs (.replayTimer p) s s ∧ Runs (.retryExhausted p) s s) ∧
      (∀ nak ack cum y, y = x.used ack cum →
        ((∀ f ∈ y.retry, f.seq ≠ nak) → Runs (.nakRx p nak ack cum) s (s.setPort p y)) ∧
        (∀ f fs, y.retry = f :: fs → f.seq = nak → y.replay = none →
          Runs (.nakRx p nak ack cum) s ((s.setPort p y).startReplay p 0)))) ∧
    (x.state ≠ .active → ∀ vc seq payload ack cum, Runs (.dataFlitRx p vc seq payload ack cum) s s ∧
      Runs (.nakRx p vc ack cum) s s ∧ Runs (.idleFlitRx p ack cum) s s ∧ Runs (.retryExhausted p) s s) ∧
    (x.state = .flitSync → Runs (.flitSlotTx p) s (s.sendFlit p 0 0 0 0 [])) ∧
    (x.state = .param → Runs (.flitSlotTx p) s (s.paramSlot p)) ∧
    (∀ n, x.state ≠ .disabled →
      (s.cf (bNGL + 0x10) 31 0 < n → Runs (.fecWarn p n) s (s.faultC0 0x0F (uPort p) n)) ∧
      (n ≤ s.cf (bNGL + 0x10) 31 0 → Runs (.fecWarn p n) s s))

/-- Messages: dispatch, discard and framing, unreachable destinations, and echoes. (From R569, R570, R578, R587, R588,
R604.) -/
def Obligations.Messages : Prop :=
  (∀ (p v len : Nat) (b : List Byte) (s : State), (s.port p).state = .active → v < 4 → (s.port p).rx.getD v [] = b →
    8 ≤ b.length → len = leNat ((b.drop 4).take 4) →
    (len % 8 ≠ 0 ∨ len < 8 ∨ 16777216 < len → Runs (.messageRx p v) s (s.toRetrain p 6 0x0E)) ∧
    (len % 8 = 0 → 8 ≤ len → len ≤ 16777216 →
      (b.length < len → Runs (.messageRx p v) s s) ∧
      (len ≤ b.length → ∀ u ty, u = s.setPort p ((s.port p).eat v len) → ty = leNat ((b.drop 0).take 1) →
        (ty = 0 → Runs (.messageRx p v) s u) ∧
        (ty = 1 ∨ 8 < ty → Runs (.messageRx p v) s (u.msgDiscard p)) ∧
        (ty = 3 → msgVc 3 = v → 32 ≤ len → leNat ((b.drop 10).take 2) = u.devId → Runs (.messageRx p v) s { u with ngl := { u.ngl with
          inbox := u.ngl.inbox ++ [{ port := p, type := 3, poison := bit (leNat ((b.drop 1).take 1)) 0, srcEp := bit (leNat ((b.drop 8).take 2)) 15, src := leNat ((b.drop 8).take 2) % 2 ^ 14, body := (b.take len).drop 16 }] } }) ∧
        (ty = 3 → msgVc 3 = v → 32 ≤ len → leNat ((b.drop 10).take 2) ≠ u.devId → Runs (.messageRx p v) s (u.msgDiscard p))))) ∧
  (∀ (ep : Bool) (d : Nat) (tr : List Nat) (s : State), s.route ep d = some tr →
    ((s.member tr 0).isSome = true → Runs (.unreachTimeout ep d) s s) ∧
    (s.member tr 0 = none → s.ngl.wait = [] → Runs (.unreachTimeout ep d) s { s with ngl := { s.ngl with
      dom := { s.ngl.dom with unreach := ((if ep then 2048 + d else d) :: s.ngl.dom.unreach).eraseDups } } })) ∧
  (∀ (m : RxMsg) (s : State), s.has 8 3 m → Runs .echoReq s
    ((s.popMsg m).gateMsg (uPort m.port) (ctrlMsg m.srcEp m.src 4 (leBytes 8 (m.fld 0 8) ++ leBytes 8 s.ns)))) ∧
  (∀ (m : RxMsg) (tok tm : Nat) (s : State), s.has 8 4 m → s.ngl.dom.echoSent = some (tok, tm) →
    (tok = m.fld 0 8 → m.src = s.ngl.dom.heldRoot → m.srcEp = false → Runs .echoRsp s ((s.popMsg m).setDomn
      { s.ngl.dom with echoSent := none, rtts := ((s.ns - tm) :: s.ngl.dom.rtts).take 16 })) ∧
    (tok ≠ m.fld 0 8 → Runs .echoRsp s (s.popMsg m))) ∧
  (∀ s : State, s.inMsg 8 3 = none → Runs .echoReq s s) ∧
  (∀ s : State, s.timeSrc = 3 → s.ngl.dom.rootHeld = true → s.ngl.dom.state ≠ .root → s.ngl.dom.heldRoot ≠ s.devId →
    Runs .echoSend s ((s.setDomn { s.ngl.dom with
      echoTok := (s.ngl.dom.echoTok + 1) % 2 ^ 64, echoSent := some (s.ngl.dom.echoTok, s.ns) }).domSend
        (ctrlMsg false s.ngl.dom.heldRoot 3 (leBytes 8 s.ngl.dom.echoTok)))) ∧
  (∀ s : State, s.timeSrc ≠ 3 → Runs .echoSend s s)

/-- Step tokens, STEP_DONE, the step's deadline, beats and leases. (From R591 to R595.) -/
def Obligations.StepsAndBeats : Prop :=
  ∀ (s : State) (d : Domn), s.ngl.dom = d →
    (d.state = .root → (∀ i, i < s.epCount → i ∈ d.doneEps) → ∀ e n, d.cur = (e, n) →
      Runs .stepTokenIssue s (s.issueToken (if n + 1 = s.cf (rDom 6) 63 32 then ((e + 1) % 2 ^ 16, 0) else (e, n + 1)))) ∧
    (d.state ≠ .root → Runs .stepTokenIssue s s ∧ Runs .rootBeatSend s s) ∧
    (∀ i, i < s.epCount → i ∉ d.doneEps → Runs .stepTokenIssue s s) ∧
    (d.state = .root → Runs .rootBeatSend s (s.domSendAll (s.beatMsg false) s.others)) ∧
    (∀ m e n, s.has 2 0 m → e = leNat ((m.body.drop 2).take 2) → n = leNat ((m.body.drop 8).take 8) →
      (d.state = .isIn → m.srcEp = false → d.rootHeld = true → m.src = d.heldRoot →
        (d.token = none ∨ ∃ c, d.token = some c ∧ stepLt c (e, n) = true) →
        Runs .stepToken s (((s.popMsg m).setDomn { d with
          token := some (e, n), tokenT := leNat ((m.body.drop 0x10).take 8), deadline := leNat ((m.body.drop 0x18).take 8), lease := true }).bump
            (fabCtr 2) 1)) ∧
      (d.state ≠ .isIn ∨ m.srcEp = true ∨ d.rootHeld = false ∨ m.src ≠ d.heldRoot → Runs .stepToken s (s.popMsg m).domIgnore) ∧
      (∀ c, d.token = some c → stepLt c (e, n) = false → Runs .stepToken s (s.popMsg m).domIgnore)) ∧
    (∀ m, s.has 8 0x100 m → d.state = .root → m.srcEp = true →
      (d.token = some (m.fld 2 2, m.fld 8 8) → ∃ l, Runs .stepDone s ((s.popMsg m).setDomn { d with doneEps := l }) ∧
        ∀ i, i ∈ l ↔ i ∈ d.doneEps ∨ (i < s.epCount ∧ s.domEp i = m.src)) ∧
      (d.token ≠ some (m.fld 2 2, m.fld 8 8) → Runs .stepDone s (s.popMsg m))) ∧
    (∀ i, i < s.epCount → i ∉ d.doneEps → (∀ j, j < i → j ∈ d.doneEps) → d.state = .root → d.late = false →
      Runs .stepDeadline s ((s.setDomn { d with late := true, lateEp := i }).err (fabCtr 3))) ∧
    (d.late = true → Runs .stepDeadline s s) ∧
    (∀ m, s.has 8 0x101 m →
      (d.state = .root → s.domTerm < m.fld 2 2 → Runs .rootBeat s (s.popMsg m).depose) ∧
      (d.state = .root → m.fld 2 2 ≤ s.domTerm → Runs .rootBeat s (s.popMsg m).domIgnore) ∧
      (d.state = .out → Runs .rootBeat s (s.popMsg m).domIgnore) ∧
      (d.state = .joining → m.srcEp = false → d.accepts (m.fld 2 2) m.src = true →
        Runs .rootBeat s (((s.popMsg m).holdRoot (m.fld 2 2) m.src).beatSync (m.fld 16 8))) ∧
      (d.state = .isIn ∨ d.state = .claiming ∨ d.state = .deposed → m.srcEp = false → d.rootHeld = true → m.src = d.heldRoot →
        Runs .rootBeat s (((s.popMsg m).setDomn { d with lease := true }).beatSync (m.fld 16 8)))) ∧
    (d.lease = true → Runs .leaseExpiry s
      ((((s.setDomn { d with lease := false }).setBits (bNGL + 0x8150) 1).event 4).faultC0 0x16 uDomain)) ∧
    (d.lease = false → Runs .leaseExpiry s s)

/-- Claims, acknowledgements and refusals, joining, leaving and member status. (From R596 to R602.) -/
def Obligations.ClaimsAndMembers : Prop :=
  ∀ (s : State) (d : Domn), s.ngl.dom = d →
    (d.state = .claiming → d.lease = false → d.claimed = true → Runs .claimSend s
      (s.domSendAll (fun x => ctrlMsg false x 0x102 (s.rootBody s.domTerm d.cur)) (s.others.filter (fun x => !d.acks.contains x)))) ∧
    (d.state = .claiming → d.lease = true → Runs .claimSend s s) ∧
    (d.state = .claiming → d.lease = false → d.claimed = false → ∃ u : State, u.ngl.dom.claimed = true ∧ Runs .claimSend s
      (if u.quorum then u.enterRoot else u)) ∧
    (∀ m, s.has 8 0x102 m → ∀ u, u = s.popMsg m →
      (s.domRole = 0 → Runs .rootClaim s u) ∧
      (s.domRole ≠ 0 → d.state = .root → m.fld 2 2 ≤ s.domTerm → Runs .rootClaim s (u.domSend (ctrlMsg m.srcEp m.src 0x104
        (leBytes 2 s.domNum ++ leBytes 2 s.domTerm ++ leBytes 2 s.devId ++ leBytes 2 0)))) ∧
      (s.domRole ≠ 0 → d.state = .root → s.domTerm < m.fld 2 2 → ∃ msg, Runs .rootClaim s (u.depose.domSend msg) ∧ msg.type = 8) ∧
      (s.domRole ≠ 0 → d.state = .isIn ∨ d.state = .joining ∨ d.state = .claiming ∨ d.state = .out →
        (d.accepts (m.fld 2 2) m.src = true → ∀ w, w = u.holdRoot (m.fld 2 2) m.src → Runs .rootClaim s
          (w.domSend (ctrlMsg m.srcEp m.src 0x103 (w.rootBody (m.fld 2 2) w.ngl.dom.cur)))) ∧
        (d.accepts (m.fld 2 2) m.src = false → Runs .rootClaim s (u.domSend (ctrlMsg m.srcEp m.src 0x104
          (leBytes 2 s.domNum ++ leBytes 2 d.heldTerm ++ leBytes 2 d.heldRoot ++ leBytes 2 0)))))) ∧
    (∀ m, s.has 8 0x103 m →
      (m.fld 2 2 ≠ s.domTerm ∨ m.src ∉ s.others ∨ m.srcEp = true → Runs .rootAck s (s.popMsg m)) ∧
      (m.fld 2 2 = s.domTerm → m.src ∈ s.others → m.srcEp = false → d.state = .claiming → d.claimed = true → ∃ u : State,
        m.src ∈ u.ngl.dom.acks ∧ (∀ x ∈ d.acks, x ∈ u.ngl.dom.acks) ∧ Runs .rootAck s (if u.quorum then u.enterRoot else u))) ∧
    (∀ m, s.has 8 0x104 m → (d.state = .claiming → Runs .rootNack s ((s.popMsg m).domSet .deposed)) ∧
      (d.state ≠ .claiming → Runs .rootNack s (s.popMsg m))) ∧
    (d.state = .joining → Runs .joinSend s
      (s.domSendAll (fun x => ctrlMsg false x 0x105 (leBytes 2 s.domNum ++ leBytes 2 d.heldTerm ++ leBytes 4 0)) s.others)) ∧
    (d.state ≠ .joining → Runs .joinSend s s) ∧
    (∀ m, s.has 8 0x105 m → (d.state ≠ .root → Runs .join s (s.popMsg m)) ∧
      (d.state = .root → ∀ u, u = (s.popMsg m).setDomn { d with left := d.left.filter (fun x => decide (x ≠ m.src)) } →
        Runs .join s ((u.domSend (u.beatMsg m.srcEp m.src)).domSend (u.tokenMsg m.srcEp m.src)))) ∧
    (∀ m, s.has 8 0x106 m → ∃ l, Runs .leave s ((s.popMsg m).setDomn { d with left := l }) ∧ m.src ∈ l ∧ ∀ x ∈ d.left, x ∈ l) ∧
    (d.state = .isIn ∨ d.state = .root → ∃ f, Runs .memberStatSend s (s.domSendAll f s.others) ∧ ∀ x, (f x).dst = x ∧ (f x).type = 8) ∧
    (d.state = .joining → Runs .memberStatSend s s) ∧
    (∀ m i dv, s.has 8 0x107 m → s.memberTbl.find? (fun e => e.2 = m.src) = some (i, dv) → d.state = .root → m.srcEp = false →
      s.reachable (put (s.cf (rDom 7) 43 7) 7 37 + 128 * i) = true → ∃ b, b.length = 128 ∧
        Runs .memberStat s ((s.popMsg m).store (put (s.cf (rDom 7) 43 7) 7 37 + 128 * i) b))

/-- Table pulls from their go bit to their last chunk, a refusal or a timeout, and their service. (From R576, R606,
R608.) -/
def Obligations.TablePulls : Prop :=
  (∀ (p : Path) (n : Nat) (a : Nat) (s : State), a = bNGL + 0xB000 + 0x20 * n → n < 8 → s.wgate p (a + 0x18) = true →
    ((s.pull n).state = .busy → Runs (.nglFabPullGo p n) s s) ∧
    ((s.pull n).state ≠ .busy → ∀ q : Pull, q.dev = wfld (s.reg a) 58 48 → q.table = wfld (s.reg a) 43 32 → q.version = wfld (s.reg a) 31 0 →
      q.first = wfld (s.reg (a + 8)) 63 32 → q.count = wfld (s.reg (a + 8)) 31 0 → q.dest = wfld (s.reg (a + 16)) 43 0 → q.rows = 0 →
      q.reason = 0 →
      (q.count = 0 → q.state = .done → Runs (.nglFabPullGo p n) s (s.setPull n q)) ∧
      (q.count ≠ 0 → q.state = .busy → Runs (.nglFabPullGo p n) s
        ((s.setPull n q).domSend (pullMsg q.dev q.table q.version q.first q.count))))) ∧
  (∀ (m : RxMsg) (n : Nat) (q : Pull) (s u : State), s.has 6 0 m → u = (s.popMsg m).bump (fabCtr 7) 1 →
    ∀ first count stride b, first = leNat ((m.body.drop 8).take 4) → count = leNat ((m.body.drop 12).take 4) →
      stride = leNat ((m.body.drop 16).take 4) → b = (m.body.drop 24).take (stride * count) →
      (u.pullFor m (leNat ((m.body.drop 0).take 2)) (leNat ((m.body.drop 4).take 4)) first count = none → Runs .tableChunk s u) ∧
      (u.pullFor m (leNat ((m.body.drop 0).take 2)) (leNat ((m.body.drop 4).take 4)) first count = some (n, q) → m.poison = false →
        u.accErr 0 ((q.dest + (first - q.first) * stride : Nat) : Int) b.length = none →
        Runs .tableChunk s ((u.store (q.dest + (first - q.first) * stride) b).setPull n
          { q with rows := q.rows + count, state := if q.rows + count ≥ q.count then .done else .busy }))) ∧
  (∀ (m : RxMsg) (s : State), s.has 8 0x109 m →
    ((s.popMsg m).pullFor m (m.fld 0 2) (m.fld 4 4) (m.fld 8 4) 0 = none → Runs .tablePullNak s (s.popMsg m)) ∧
    (∀ n q, (s.popMsg m).pullFor m (m.fld 0 2) (m.fld 4 4) (m.fld 8 4) 0 = some (n, q) →
      Runs .tablePullNak s ((s.popMsg m).setPull n { q with state := .failed, reason := m.fld 2 1 }))) ∧
  (∀ (n : Nat) (s : State), n < 8 →
    ((s.pull n).state = .busy → Runs (.pullTimeout n) s (s.setPull n { s.pull n with state := .failed, reason := 4 })) ∧
    ((s.pull n).state ≠ .busy → Runs (.pullTimeout n) s s)) ∧
  (∀ (m : RxMsg) (s : State), s.has 8 0x108 m → s.heldBase (m.fld 0 2 % 4096) (m.fld 4 4) = none →
    Runs .tablePull s ((s.popMsg m).domSend (ctrlMsg m.srcEp m.src 0x109
      (leBytes 2 (m.fld 0 2 % 4096) ++ leBytes 1 1 ++ leBytes 1 0 ++ leBytes 4 (m.fld 4 4) ++ leBytes 4 (m.fld 8 4) ++ leBytes 4 0)))) ∧
  (∀ (m : RxMsg) (b : List Byte) (d : TblDesc) (rows : List (List Byte)) (s u : State), s.has 8 0x108 m → u = s.popMsg m →
    u.issueRead (u.tblDescAddr u.gen (m.fld 0 2 % 4096)) = .ok b → d = TblDesc.ofBytes b → b.length = 64 → tblBad b = false →
    m.fld 0 2 % 4096 < u.cf (bGTH + 0x10) 56 44 →
    u.pullRows d true (m.fld 0 2 % 4096) (m.fld 4 4) (m.fld 8 4) (m.fld 12 4) = .ok rows →
    ∀ k cs, k = max 1 (65536 / max 1 d.rowStride) → cs = chunks k (rows.length + 1) rows →
      Runs .tablePull s (((List.range cs.length).foldl (fun s i =>
        s.domSend (chunkMsg m.src m.srcEp (m.fld 0 2 % 4096) (m.fld 4 4) (m.fld 8 4 + k * i) d.rowStride i (cs.getD i []))) u).bump
          (fabCtr 8) 1) ∧ cs.flatten = rows)

/-- Events of the host link, configuration requests, window accesses, and host reads. (From R50, R617, R619 to R623,
R629.) -/
def Obligations.HostLink : Prop :=
  (∀ s : State, s.hif.linkUp = true →
    (∀ c, c = Instr.hotReset ∨ c = Instr.linkDown → ∃ t, Runs c s t ∧ t.hif.linkUp = false ∧ t.hif.training = true) ∧
    (∃ t, Runs .functionLevelReset s t ∧ t.hif.linkUp = true ∧ t.hif.rate = s.hif.rate ∧ t.hif.width = s.hif.width) ∧
    (∀ c, c = Instr.hotReset ∨ c = Instr.linkDown ∨ c = Instr.functionLevelReset → ∃ t, Runs c s t ∧
      t.hif.mse = false ∧ t.hif.bme = false ∧ t.hif.d3hot = false ∧ t.hif.msixEn = false ∧ t.hif.cc = [] ∧ t.hif.ccPend = [] ∧
        t.hif.evict = [] ∧ t.hif.reads = [] ∧ t.hif.bar2Log2 = s.cf (bHIF + 0x20) 63 56 ∧ SameMem s t) ∧
    Runs .d3hotEntry s { s with hif := { s.hif with d3hot := true } } ∧
    Runs (.msixVectorUnmask none) s { s with hif := { s.hif with msixMask := false } }.msixFlush ∧
    (s.configRetry = true → ∀ w r v, Runs (.configRequest w r v) s (s.emit .retryStatus)) ∧
    (s.configRetry = false → ∀ r v, Runs (.configRequest false r v) s (s.emit (.config (s.cfgRead r))) ∧
      Runs (.configRequest true r v) s ((s.cfgWrite r v).emit (.config 0)))) ∧
  (∀ (s : State) (v : Fin 2048), s.hostBar = true →
    Runs (.msixVectorUnmask (some v)) s (s.clrBits (bHIF + 0x10008 + 16 * v.val) (2 ^ 32)).msixFlush) ∧
  (∀ (s : State) (w : Bool) (off n : Nat) (data : List Byte) (poison : Bool) (a : Nat), s.domOn 1 = true → s.hif.linkUp = true →
    a = put (s.cf (bHIF + 0x20) 43 28) 28 16 + off →
    (s.hif.d3hot = true ∨ s.hif.mse = false → Runs (.bar2Access w off data n poison) s (s.emit .unsupported)) ∧
    (s.hif.d3hot = false → s.hif.mse = true → s.hif.bar2Log2 ≠ 0 → off < 2 ^ s.hif.bar2Log2 → 0 < n → n ≤ 64 →
      a / 64 = (a + n - 1) / 64 → ∀ d, region a = some (.hbm d) →
      (s.dieReady d = false → Runs (.bar2Access true off data n poison) s s ∧ Runs (.bar2Access false off data n poison) s (s.emit .abort)) ∧
      (s.dieReady d = true → Runs (.bar2Access true off data n poison) s
        { s with mem := s.mem.storeP a ((data ++ leBytes n 0).take n) poison }) ∧
      (s.dieReady d = true → ∃ u : State, Runs (.bar2Access false off data n poison) s (u.emit (.window (s.mem.rds a n) (s.mem.poisoned a))) ∧
        u.mem = s.mem ∧ u.outs = s.outs)) ∧
    (∀ h, s.hif.cxlMem = true → s.hif.hdmCommitted = true → h = s.hif.hdmBase + off → off < s.hif.hdmSize →
      Runs (.cxlMemRequest w h data n poison) s (s.winAccess w a data n poison))) ∧
  (∀ (s : State) (tag : Nat) (h : HostRead) (data : List Byte), s.hif.linkUp = true → tget none s.hif.reads tag = some h →
    (∃ t, Runs (.hostReadCompletion tag .ok data) s t ∧ t.hif.reads = (s.setRead tag none).hif.reads ∧
      (h.len ≤ data.length → ∀ i, i < h.len → t.hostRd (h.addr + i) = data.getD i 0) ∧
      ∀ a, (a < h.addr ∨ h.addr + h.len ≤ a) → t.hostRd a = s.hostRd a) ∧
    Runs (.hostReadCompletion tag .refused data) s ((s.setRead tag none).readFail h stADDR_RANGE) ∧
    Runs (.hostReadCompletion tag .poisoned data) s (((s.setRead tag none).err (bHIF + 0x1020)).readFail h stPOISON)) ∧
  (∀ (s : State) (tag : Nat) (st : CplStatus) (data : List Byte), s.hif.linkUp = true → tget none s.hif.reads tag = none →
    ∃ u : State, u.host = s.host ∧ Runs (.hostReadCompletion tag st data) s (u.bump (bHIF + 0x1018) 1)) ∧
  (∀ (s : State) (tag : Nat),
    (∀ h, tget none s.hif.reads tag = some h → ∃ u : State, u.hif.quarantine = s.hif.quarantine ++ [tag] ∧ u.hif.reads = (s.setRead tag none).hif.reads ∧
      Runs (.completionTimeout tag) s ((u.err (bHIF + 0x1010)).readFail h stTIMEOUT)) ∧
    (tget none s.hif.reads tag = none → Runs (.completionTimeout tag) s s) ∧
    (∃ t, Runs (.tagQuarantineEnd tag) s t ∧ ∀ x, x ∈ t.hif.quarantine ↔ x ∈ s.hif.quarantine ∧ x ≠ tag))

/-- The coherent cache under snoops, answers of the host and a flush; DOE objects and SPDM. (From R180, R625 to R628,
R632.) -/
def Obligations.HostCacheAndDoe : Prop :=
  (∀ (s : State) (l : Nat), s.hif.cxlCache = true → s.hif.linkUp = true → s.domOn 1 = true →
    (∀ x : CcLine, s.hif.evict.find? (fun e => e.line = l && !e.forwarded) = none → tget none s.hif.ccPend l = none → s.ccLine l = some x →
      x.st = .modified →
      (∃ t, Runs (.snpdata l) s t ∧ t.ccLine l = some { x with st := .shared } ∧ t.outs = (.cxl "RspSFwdM" l x.data) :: s.outs) ∧
      (∃ t, Runs (.snpinv l) s t ∧ t.hif.cc = (s.setCc l none).hif.cc ∧ t.outs = (.cxl "RspIFwdM" l x.data) :: s.outs) ∧
      (∃ t, Runs (.snpcur l) s t ∧ t.ccLine l = some x ∧ t.outs = (.cxl "RspVFwdV" l x.data) :: s.outs)) ∧
    (∀ e : CcEvict, s.hif.evict.find? (fun e => e.line = l && !e.forwarded) = some e →
      ∀ c, c = Instr.snpdata l ∨ c = .snpinv l ∨ c = .snpcur l → ∃ t, Runs c s t ∧ t.outs = (.cxl "RspIFwdM" l e.data) :: s.outs ∧
        ∀ y ∈ t.hif.evict, y.line = l → y.forwarded = true) ∧
    (∀ p : CcPend, s.hif.evict.find? (fun e => e.line = l && !e.forwarded) = none → tget none s.hif.ccPend l = some p →
      ∀ c, c = Instr.snpdata l ∨ c = .snpinv l ∨ c = .snpcur l → ∃ t, Runs c s t ∧ t.outs = (.cxl "RspIHitI" l []) :: s.outs ∧
        tget none t.hif.ccPend l = some { p with snooped := true })) ∧
  (∀ (s : State) (l : Nat) (ex : Bool) (data : List Byte),
    (tget none s.hif.ccPend l = none → Runs (.cxlGo l ex data) s s) ∧
    (∀ p : CcPend, tget none s.hif.ccPend l = some p → p.merge = [] → data.length = 64 →
      (p.snooped = true → ∃ t, Runs (.cxlGo l ex data) s t ∧ t.hif.cc = s.hif.cc ∧ t.hif.ccPend = tset none s.hif.ccPend l none ∧
        ∀ i, i < 64 → t.hostRd (64 * l + i) = data.getD i 0) ∧
      (p.snooped = false → ∀ u, s.ccInstall l { st := if p.own || ex then .exclusive else .shared, data := data } = some u →
        ∃ t, Runs (.cxlGo l ex data) s t ∧ t.hif.cc = u.hif.cc ∧ t.hif.ccPend = tset none u.hif.ccPend l none) ∧
      (p.snooped = false → s.ccInstall l { st := if p.own || ex then .exclusive else .shared, data := data } = none →
        Runs (.cxlGo l ex data) s s))) ∧
  (∀ (s : State) (l : Nat),
    (∀ e, s.hif.evict.find? (fun e => e.line = l) = some e → ∃ t, Runs (.goWritepull l) s t ∧ (∀ y ∈ t.hif.evict, y.line ≠ l) ∧
      t.outs = (if e.forwarded then .cxl "Bogus" l [] else .cxl "WritePullData" l e.data) :: s.outs) ∧
    (∃ t, Runs (.goWritepullDrop l) s t ∧ (∀ y ∈ t.hif.evict, y.line ≠ l) ∧ t.outs = s.outs)) ∧
  (∀ (s : State) (p : Path),
    (s.wgate p (bHIF + 0x200) = true → Runs (.hifCcFlush p) s { s with hif := { s.hif with flushing := true } }) ∧
    (s.wgate p (bHIF + 0x200) = false → Runs (.hifCcFlush p) s s)) ∧
  (∀ s : State, (s.hif.flushing = false → Runs .ccFlushDone s s) ∧
    (s.hif.flushing = true → ∃ t, Runs .ccFlushDone s t ∧ t.hif.cc = [] ∧ t.hif.flushing = false ∧ t.host = s.host ∧
      ∀ l x, (l, some x) ∈ s.hif.cc → x.st = .modified → Out.cxl "DirtyEvict" l x.data ∈ t.outs)) ∧
  (∀ (s : State) (data : List Byte), s.hif.linkUp = true → s.configRetry = false →
    (data.length ≤ 4096 → Runs (.doeObject .spdm data) s { s with hif := { s.hif with doe := some data } }) ∧
    Runs (.doeObject .other data) s (s.emit (.doe [])) ∧
    Runs (.doeObject .discovery data) s (s.emit (.doe (doeDiscovery data)))) ∧
  (∀ s : State, Runs .doeAbort s { s with hif := { s.hif with doe := none } }) ∧
  (∀ (s : State) (req : List Byte), s.hif.doe = some req →
    ∃ t, Runs (.spdmRequest true) s t ∧ t.hif.doe = none ∧ t.outs = (.doe (s.spdm req)) :: s.outs ∧ t.vlt.spdm = s.spdmNext req) ∧
  (∀ (s : State) (m : RxMsg), s.has 8 2 m → ∀ req a, req = (m.body.drop 16).take (m.fld 0 4) → a = s.spdm req →
    Runs (.spdmRequest false) s ({ s.popMsg m with vlt := { (s.popMsg m).vlt with spdm := (s.popMsg m).spdmNext req } }.gateMsg
      (uPort m.port) (ctrlMsg m.srcEp m.src 2 (leBytes 4 a.length ++ leBytes 4 0 ++ a))))

/-- Health faults by class, watchdogs, the release gate, recovery and injection. (From R637, R640, R641, R645, R647,
R655, R658.) -/
def Obligations.FaultRows : Prop :=
  (∀ (s : State) (u : Nat) (pair : Fin 4) (g r : Bool), s.mainRunning = true → unitAssigned u = true → s.domOn (unitDom u) = true →
    (s.funit u).state = .healthy → (s.funit u).inj = false →
    (pair = 1 → Runs (.healthFaultConfirm u pair g r) s s) ∧
    (pair ≠ 1 → ∀ code t, code = (if pair = 2 then 1 else 2) → t = s.setUnit u { s.funit u with pair := pair.val } →
      (unitClass u = some 0 → Runs (.healthFaultConfirm u pair g r) s
        ({ t with flt := { t.flt with telUntrusted := true } }.faultC0 code u)) ∧
      (unitClass u = some 1 → Runs (.healthFaultConfirm u pair g r) s
        (t.faultUnit code u 0 { void := pair.val ≠ 2 && g && r })) ∧
      (unitClass u = some 2 → Runs (.healthFaultConfirm u pair g r) s
        (t.faultC2 code u 0 { void := pair.val ≠ 2 && g && r })) ∧
      (unitClass u = some 3 → Runs (.healthFaultConfirm u pair g r) s (t.faultC3 code u)))) ∧
  (∀ (s : State) (u : Nat) (pair : Fin 4) (g r : Bool), s.domOn (unitDom u) = false ∨ (s.funit u).state ≠ .healthy →
    Runs (.healthFaultConfirm u pair g r) s s) ∧
  (∀ (s : State) (n : Nat), s.running = true → n < 54 → s.instOk n = true → s.tasksOn n ≠ [] →
    Runs (.watchdogExpiry n) s (s.faultUnit 0x1C n)) ∧
  (∀ (s : State) (n : Nat), s.tasksOn n = [] → Runs (.watchdogExpiry n) s s) ∧
  (∀ (s : State) (u : Nat) (e : Eff) (es : List (Nat × Eff)), s.flt.gate = (u, e) :: es →
    ∀ w, w = { s with flt := { s.flt with gate := es } } →
    (∀ x, e = .report x → Runs .releaseGatePass s (w.applyReport x)) ∧ (∀ m, e = .msg m → Runs .releaseGatePass s (w.sendMsg u m))) ∧
  (∀ s : State, s.flt.gate = [] → Runs .releaseGatePass s s) ∧
  (∀ (s : State) (u : Nat), unitAssigned u = true →
    ((s.funit u).state = .fenced ∨ (s.funit u).state = .recovering → u ∉ s.tel.units → u < 0x80 ∨ 0x8F < u →
      Runs (.recoverySelfTestDone u true) s (s.selfTestPass u) ∧
      Runs (.recoverySelfTestDone u false) s ((s.setUnit u { s.funit u with state := .permanent }).refreshFlt)) ∧
    ((s.funit u).state = .healthy ∨ (s.funit u).state = .permanent → ∀ b, Runs (.recoverySelfTestDone u b) s s) ∧
    (∀ p, s.wgate p (bFLT + 0x68) = true → (s.funit u).state = .permanent →
      Runs (.fltUnfence p u) s ((s.setUnit u { s.funit u with state := .recovering }).refreshFlt)) ∧
    (∀ p, (s.funit u).state ≠ .permanent → Runs (.fltUnfence p u) s s) ∧
    (∀ p wire, s.wgate p (bFLT + 0x70) = true → s.domOn (unitDom u) = true → (s.funit u).state = .healthy →
      Runs (.fltInject p u wire) s (s.setUnit u { s.funit u with inj := true, pair := if wire then 0 else 2 }))) ∧
  (∀ (s : State) (p : Path) (u : Nat) (wire : Bool), unitAssigned u = false → Runs (.fltUnfence p u) s s ∧ Runs (.fltInject p u wire) s s) ∧
  (∀ (s : State) (p : Path),
    (s.wgate p (bFLT + 0x60) = true → Runs (.fltFirstClr p) s { s with flt := { s.flt with first := [], firstValid := false } }) ∧
    (s.wgate p (bFLT + 0x60) = false → Runs (.fltFirstClr p) s s)) ∧
  (∀ s : State, (s.flt.state ≠ .c2Recovery → Runs .c2RecoveryDone s s) ∧
    (s.flt.state = .c2Recovery → s.journalIntact = false → ∃ u : State, u.ldg = { s.ldg with stopped := s.pwr.sleepEntry } ∧
      Runs .c2RecoveryDone s ((u.err (bFLT + 0x1048)).startRole)))

/-- The self-tests and the trace. (From R664 to R666, R669, R670.) -/
def Obligations.TestAndTrace : Prop :=
  (∀ (s : State) (p : Path) (n : Nat), s.wgate p rBist = true →
    (s.tel.bistBusy = true → ∀ c, c = Instr.instanceTest p n ∨ c = .islandTest p n ∨ c = .serdesRecal p n →
      Runs c s (s.setBits (bTEL + 0x210) (2 ^ 60))) ∧
    (s.tel.bistBusy = false →
      (0x35 < n → ∃ t, Runs (.instanceTest p n) s t ∧ t.tel.bistBusy = false ∧ t.tel.bistStatus = stINVALID) ∧
      (n ≤ 0x35 → s.fencedU n = true → ∃ t, Runs (.instanceTest p n) s t ∧ t.tel.bistBusy = false ∧ t.tel.bistStatus = stFENCED) ∧
      (n ≤ 0x35 → s.fencedU n = false → s.domOn (bayDom n) = true → ∃ t, Runs (.instanceTest p n) s t ∧ t.tel.bistBusy = true ∧
        t.tel.scope = [n] ∧ (t.tel.bistPhase = .drain → t.tel.inelig = [n]) ∧ (t.tel.bistPhase = .wait → t.tel.inelig = []) ∧
        (t.tel.bistPhase = .drain ∨ t.tel.bistPhase = .wait) ∧ SameRegs s t ∧ SameMem s t) ∧
      (0x4F ≤ n → n ≤ 0x58 → s.fencedU n = false → (∀ i, i < 54 → uIsland (bayIsland i) = n → s.fencedU i = false ∧ s.domOn (bayDom i) = true) →
        ∃ t, Runs (.islandTest p n) s t ∧ t.tel.bistBusy = true ∧ ∀ i, i ∈ t.tel.scope ↔ i < 54 ∧ uIsland (bayIsland i) = n) ∧
      (24 ≤ n → ∃ t, Runs (.serdesRecal p n) s t ∧ t.tel.bistBusy = false ∧ t.tel.bistStatus = stINVALID) ∧
      (n < 24 → s.domOn (if n < 8 then 4 else if n < 16 then 5 else 2) = true → ∃ t, Runs (.serdesRecal p n) s t ∧ t.tel.bistBusy = true ∧
        t.tel.bistLane = some n ∧ t.tel.recalOut = (if (s.lane n).los then 2 else 0) ∧
        ((s.lane n).los = false → (t.lane n).recal = true)))) ∧
  (∀ s : State, s.tel.bistBusy = true →
    (s.tel.bistPhase = .drain ∨ s.tel.bistPhase = .wait →
      ((∀ n ∈ s.tel.scope, s.tasksOn n = []) → ∃ t, Runs .bistDrained s t ∧ t.tel.bistPhase = .test ∧ t.tel.inelig = s.tel.scope) ∧
      ((∃ n ∈ s.tel.scope, s.tasksOn n ≠ []) → Runs .bistDrained s s) ∧
      Runs .bistDeferred s (s.bistEnd stDEFERRED).retryWaiting) ∧
    (s.tel.bistPhase = .test → Runs .bistDrained s s ∧ Runs .bistDeferred s s ∧
      ∀ u : State, u = s.tel.scope.foldl (fun s n => (s.dropBanks n).bayLose n)
          (s.tel.units.foldl (fun s u => s.setUnit u { s.funit u with state := .healthy }) s) →
        Runs (.bistTestDone []) s (u.bistEnd stOK true).retryWaiting ∧
        ∀ f, f.1 ∈ s.tel.units → Runs (.bistTestDone [f]) s
          (((u.bistEnd stOK false f.2).faultUnit 0x01 f.1 f.2).retryWaiting))) ∧
  (∀ s : State, (s.tel.bistLane = none → ∀ h w, Runs (.serdesRecalDone h w) s s) ∧
    (∀ l h w u, s.tel.bistLane = some l → u = s.sliceSwap l h w →
      ((u.lane l).swapDue = true → u.frozen l = false → Runs (.serdesRecalDone h w) s u) ∧
      ((u.lane l).swapDue = false ∨ u.frozen l = true → ∃ v : State, Runs (.serdesRecalDone h w) s (v.bistEnd stOK false 0 u.tel.recalOut)))) ∧
  (∀ (s : State) (r : TraceRec) (rs : List TraceRec), s.tel.queue = r :: rs → s.tel.full = false → s.tel.frozen = false →
    ∃ t, Runs .traceRecordWrite s t ∧ tget [] t.tel.buf (s.tel.seq % 524288) = r.bytes s.tel.seq ∧ t.tel.seq = (s.tel.seq + 1) % 2 ^ 32 ∧
      (∀ i, i ≠ s.tel.seq % 524288 → tget [] t.tel.buf i = tget [] s.tel.buf i) ∧
      (t.tel.full = true ↔ s.cb (bTEL + 0x100) 63 = true ∧ 524288 ≤ s.tel.sinceRun + 1) ∧
      (t.tel.full = false → t.tel.frozen = false → t.tel.queue = rs)) ∧
  (∀ s : State, s.tel.queue = [] → Runs .traceRecordWrite s s) ∧
  (∀ (s : State) (p : Path) (v : Nat), (s.wgate p (bTEL + 0x118) = true → Runs (.telTraceMark p v) s (s.trace 0x09 0xFFF (leBytes 4 v))) ∧
    (s.wgate p (bTEL + 0x118) = false → Runs (.telTraceMark p v) s s)) ∧
  (∀ (s : State) (p : Path), s.wgate p (bTEL + 0x108) = true →
    Runs (.telTraceCtl p false) s (s.setReg (bTEL + 0x108) 0) ∧
    (s.tel.full = true ∨ s.tel.frozen = true → ∃ t, Runs (.telTraceCtl p true) s t ∧ t.tel.full = false ∧ t.tel.frozen = false ∧
      t.tel.sinceRun = 0 ∧ t.tel.postLeft = none ∧ t.tel.seq = s.tel.seq ∧ t.tel.buf = s.tel.buf))

/-- The debug port's answers, its peeks that change no memory, halting, and boundary scan. (From R672 to R677.) -/
def Obligations.DebugRows : Prop :=
  (∀ (s : State) (tag : Nat), s.portRuns = true →
    Runs (.idcode tag) s (s.emit (.debug tag stOK (leBytes 8 (s.viewGlb 0)))) ∧
    (s.dbgOpen = false → ∀ a v d c, c = Instr.peek32 tag a ∨ c = .peek64 tag a ∨ c = .write32 tag a v ∨ c = .write64 tag a v ∨
      c = .mempeek tag a ∨ c = .memwrite tag a d ∨ c = .debugRequestInvalid tag false → Runs c s (s.emit (.debug tag stDENIED []))) ∧
    (s.dbgOpen = true →
      Runs (.debugRequestInvalid tag false) s (s.emit (.debug tag stINVALID [])) ∧
      (∀ a v d, a % 4 ≠ 0 ∨ barSize ≤ a → ∀ c, c = Instr.peek32 tag a ∨ c = .peek64 tag a ∨ c = .write32 tag a v ∨ c = .write64 tag a v ∨
        (a % 4 ≠ 0 ∧ (c = .mempeek tag a ∨ c = .memwrite tag a d)) → Runs c s (s.emit (.debug tag stINVALID []))) ∧
      (∀ a v, a < barSize → a % 4 = 0 → Runs (.write32 tag a v) s ((s.barWrite .debug a 4 v).emit (.debug tag stOK [])) ∧
        Runs (.peek32 tag a) s (s.peek tag a 4)) ∧
      (∀ a v, a < barSize → a % 8 = 0 → Runs (.write64 tag a v) s ((s.barWrite .debug a 8 v).emit (.debug tag stOK [])) ∧
        Runs (.peek64 tag a) s (s.peek tag a 8)) ∧
      (∀ a d, a % 64 = 0 → region a = some (.hbm d) →
        (s.dieReady d = false → Runs (.mempeek tag a) s (s.emit (.debug tag stFENCED []))) ∧
        (s.dieReady d = true → Runs (.mempeek tag a) s
            (s.emit (.debug tag (if s.mem.poisoned a then stPOISON else stOK) (s.mem.rds a 64))) ∧
          ∀ b : List Byte, s.canonical → b.length = 64 → ∃ u : State, Runs (.memwrite tag a b) s (u.emit (.debug tag stOK [])) ∧
            u.mem.poisoned a = false ∧ u.mem.rds a 64 = b ∧ SameMemBut a 64 s u)))) ∧
  (∀ (s : State) (tag a : Nat), a < barSize → ∃ t, Runs (.peek64 tag a) s t ∧ SameRegs s t ∧ SameMem s t) ∧
  (∀ (s : State) (tag : Nat), Runs (.debugRequestInvalid tag true) s s) ∧
  (∀ s : State, (s.dbg.waiting = none → Runs .debugAnswerTimeout s s) ∧
    (∀ tag, s.dbg.waiting = some tag → ∃ t, Runs .debugAnswerTimeout s t ∧ t.dbg.waiting = none ∧
      t.outs = (.debug tag stTIMEOUT []) :: s.outs ∧ SameRegs s t)) ∧
  (∀ (s : State) (v j : Nat),
    Runs (.dbgHaltInst .host v) s s ∧ Runs (.dbgHaltQ .host j v) s s ∧
    (s.wgate .debug (bDBG + 0x10) = true → Runs (.dbgHaltInst .debug v) s (s.writeHaltInst v)) ∧
    (j < 64 → s.wgate .debug (bDBG + 0x1000) = true → Runs (.dbgHaltQ .debug j v) s (s.setReg (bDBG + 0x1000 + 8 * j) (BitVec.ofNat 64 v)))) ∧
  (∀ (s : State) (n : Nat),
    (s.haltOf n = .halting → (tget {} s.str.inst n).cur = none → Runs (.instanceHalted n) s (s.setHalt n .halted)) ∧
    (s.haltOf n ≠ .halting → Runs (.instanceHalted n) s s) ∧
    (∀ t, (tget {} s.str.inst n).cur = some t → s.worksOn n t = true → Runs (.instanceHalted n) s s)) ∧
  (∀ (s : State) (a b : List Bool), s.railUp = true → ∀ f : TapInstr → State, (∀ i, f i = { s with dbg := { s.dbg with tap := i } }) →
    Runs .tapIdcode s ((f .idcode).emit (.tap 0x15301B67)) ∧ Runs .clamp s (f .clamp) ∧ Runs .highz s (f .highz) ∧
    Runs .bypass s (f .bypass) ∧ Runs .tapReset s (f .idcode) ∧
    Runs (.extest b) s { s with dbg := { s.dbg with tap := .extest, boundary := b } } ∧
    Runs (.samplePreload a b) s ({ s with dbg := { s.dbg with tap := .samplePreload, boundary := b } }.emit (.tap (bitsNat a)))) ∧
  (∀ s : State, s.railUp = false → ∀ c, c = Instr.extest [] ∨ c = .clamp ∨ c = .highz ∨ c = .bypass ∨ c = .tapReset → Runs c s s)

end
end

