-- ==== Sys2Proof/Laws/Table.lean ====
section
/-!
SUPPORT. Reading back what a table was set to, and that the table operations keep the canonical form. The form is said
twice: with one default for every key (`twf`), and with a default that depends on the key (`Canon`).
-/

namespace Sys2Proof.Machine

variable {α : Type}

/-- The canonical form of a table whose unlisted entry at `i` reads as `d i`. -/
def Canon (d : Nat → α) (t : Tbl α) : Prop := tsorted none t = true ∧ ∀ e ∈ t, e.2 ≠ d e.1

/-- Every key of the list lies above the bound, in a form that says nothing of order. -/
theorem tsorted_iff_pairwise (b : Option Nat) (t : Tbl α) :
    tsorted b t = true ↔ t.Pairwise (fun x y => x.1 < y.1) ∧ ∀ e ∈ t, ∀ k, b = some k → k < e.1 := by
  induction t generalizing b with
  | nil => simp [tsorted]
  | cons e t ih =>
    obtain ⟨k, v⟩ := e
    cases b with
    | none =>
      simp only [tsorted, ih, List.pairwise_cons, List.mem_cons, reduceCtorEq, false_implies, implies_true, and_true]
      constructor
      · rintro ⟨h1, h2⟩; exact ⟨fun x hx => h2 x hx k rfl, h1⟩
      · rintro ⟨h1, h2⟩; exact ⟨h2, fun x hx j hj => by cases hj; exact h1 x hx⟩
    | some b =>
      simp only [tsorted, Bool.and_eq_true, decide_eq_true_eq, ih, List.pairwise_cons, List.mem_cons, Option.some.injEq]
      constructor
      · rintro ⟨h0, h1, h2⟩
        refine ⟨⟨fun x hx => h2 x hx k rfl, h1⟩, ?_⟩
        rintro x (rfl | hx) j rfl
        · exact h0
        · exact Nat.lt_trans h0 (h2 x hx k rfl)
      · rintro ⟨⟨h1, h2⟩, h3⟩
        exact ⟨h3 _ (Or.inl rfl) b rfl, h2, fun x hx j hj => by cases hj; exact h1 x hx⟩

theorem tsorted_none_iff (t : Tbl α) : tsorted none t = true ↔ t.Pairwise (fun x y => x.1 < y.1) := by
  simp [tsorted_iff_pairwise]

theorem canon_iff (d : Nat → α) (t : Tbl α) :
    Canon d t ↔ t.Pairwise (fun x y => x.1 < y.1) ∧ ∀ e ∈ t, e.2 ≠ d e.1 := by simp [Canon, tsorted_none_iff]

theorem twf_iff_canon [DecidableEq α] (d : α) (t : Tbl α) : twf d t = true ↔ Canon (fun _ => d) t := by
  simp [twf, Canon, List.all_eq_true]

@[simp] theorem Canon.nil (d : Nat → α) : Canon d [] := by simp [Canon, tsorted]

/-! ### Setting one key -/

theorem mem_tdel {t : Tbl α} {i : Nat} {e : Nat × α} (h : e ∈ tdel t i) : e ∈ t := by
  induction t with
  | nil => simp [tdel] at h
  | cons x t ih =>
    obtain ⟨k, v⟩ := x
    simp only [tdel] at h
    split at h
    · exact List.mem_cons_of_mem _ h
    · split at h
      · exact h
      · rcases List.mem_cons.1 h with h | h
        · exact h ▸ List.mem_cons_self
        · exact List.mem_cons_of_mem _ (ih h)

theorem mem_tins {t : Tbl α} {i : Nat} {x : α} {e : Nat × α} (h : e ∈ tins t i x) : e = (i, x) ∨ e ∈ t := by
  induction t with
  | nil => simpa [tins] using h
  | cons y t ih =>
    obtain ⟨k, v⟩ := y
    simp only [tins] at h
    split at h
    · rcases List.mem_cons.1 h with h | h
      · exact .inl h
      · exact .inr (List.mem_cons_of_mem _ h)
    · split at h
      · rcases List.mem_cons.1 h with h | h
        · exact .inl h
        · exact .inr h
      · rcases List.mem_cons.1 h with h | h
        · exact .inr (h ▸ List.mem_cons_self)
        · rcases ih h with h | h
          · exact .inl h
          · exact .inr (List.mem_cons_of_mem _ h)

theorem pairwise_tdel {t : Tbl α} (h : t.Pairwise (fun x y => x.1 < y.1)) (i : Nat) :
    (tdel t i).Pairwise (fun x y => x.1 < y.1) := by
  induction t with
  | nil => simp [tdel]
  | cons x t ih =>
    obtain ⟨k, v⟩ := x
    obtain ⟨h1, h2⟩ := List.pairwise_cons.1 h
    simp only [tdel]
    split
    · exact h2
    · split
      · exact h
      · exact List.pairwise_cons.2 ⟨fun y hy => h1 y (mem_tdel hy), ih h2⟩

theorem pairwise_tins {t : Tbl α} (h : t.Pairwise (fun x y => x.1 < y.1)) (i : Nat) (x : α) :
    (tins t i x).Pairwise (fun x y => x.1 < y.1) := by
  induction t with
  | nil => simp [tins]
  | cons y t ih =>
    obtain ⟨k, v⟩ := y
    obtain ⟨h1, h2⟩ := List.pairwise_cons.1 h
    simp only [tins]
    split
    · rename_i hk; subst hk; exact List.pairwise_cons.2 ⟨h1, h2⟩
    · split
      · rename_i hk hik
        refine List.pairwise_cons.2 ⟨?_, h⟩
        intro z hz
        rcases List.mem_cons.1 hz with rfl | hz
        · exact hik
        · exact Nat.lt_trans hik (h1 z hz)
      · refine List.pairwise_cons.2 ⟨?_, ih h2⟩
        intro z hz
        rcases mem_tins hz with rfl | hz
        · show k < i; omega
        · exact h1 z hz

/-- Setting a key keeps the canonical form, whatever is set. -/
theorem Canon.tset [DecidableEq α] {d : Nat → α} {t : Tbl α} (h : Canon d t) (i : Nat) (x : α) :
    Canon d (tset (d i) t i x) := by
  rw [canon_iff] at *
  unfold Machine.tset
  split
  · exact ⟨pairwise_tdel h.1 i, fun e he => h.2 e (mem_tdel he)⟩
  · rename_i hx
    refine ⟨pairwise_tins h.1 i x, fun e he => ?_⟩
    rcases mem_tins he with rfl | he
    · exact hx
    · exact h.2 e he

theorem twf_tset [DecidableEq α] {d : α} {t : Tbl α} (h : twf d t = true) (i : Nat) (x : α) :
    twf d (tset d t i x) = true :=
  (twf_iff_canon d _).2 (Canon.tset (d := fun _ => d) ((twf_iff_canon d t).1 h) i x)

/-- Dropping entries keeps the canonical form. -/
theorem Canon.filter {d : Nat → α} {t : Tbl α} (h : Canon d t) (p : Nat × α → Bool) : Canon d (t.filter p) := by
  rw [canon_iff] at *
  exact ⟨h.1.filter p, fun e he => h.2 e ((List.mem_filter.1 he).1)⟩

theorem Canon.tclear {d : Nat → α} {t : Tbl α} (h : Canon d t) (lo hi : Nat) : Canon d (tclear t lo hi) := h.filter _

/-- Inserting keeps the order of the keys. -/
theorem tsorted_tins {t : Tbl α} (h : tsorted none t = true) (i : Nat) (x : α) : tsorted none (tins t i x) = true := by
  rw [tsorted_none_iff] at *; exact pairwise_tins h i x

/-- Replacing a run of keys keeps the canonical form. -/
theorem Canon.tsplice [DecidableEq α] {d : α} {t : Tbl α} (h : Canon (fun _ => d) t) (a : Nat) (l : List α) :
    Canon (fun _ => d) (tsplice d t a l) := by
  rw [canon_iff] at *
  unfold Machine.tsplice
  refine ⟨?_, ?_⟩
  · rw [List.pairwise_append, List.pairwise_append]
    refine ⟨⟨h.1.filter _, ?_, ?_⟩, h.1.filter _, ?_⟩
    · refine List.Pairwise.filter _ ?_
      rw [List.pairwise_map]
      exact List.pairwise_lt_range.imp (fun h => by simpa using h)
    · intro x hx y hy
      simp only [List.mem_filter, decide_eq_true_eq, List.mem_map, List.mem_range] at hx hy
      obtain ⟨⟨i, hi, rfl⟩, _⟩ := hy
      simp only; omega
    · intro x hx y hy
      simp only [List.mem_append, List.mem_filter, decide_eq_true_eq, List.mem_map, List.mem_range] at hx hy
      rcases hx with ⟨_, hx⟩ | ⟨⟨i, hi, rfl⟩, _⟩
      · omega
      · simp only; omega
  · intro e he
    simp only [List.mem_append, List.mem_filter, decide_eq_true_eq] at he
    rcases he with (⟨he, _⟩ | ⟨_, he⟩) | ⟨he, _⟩
    · exact h.2 e he
    · exact he
    · exact h.2 e he

/-! ### Reading -/

theorem twf_tsplice [DecidableEq α] {d : α} {t : Tbl α} (h : twf d t = true) (a : Nat) (l : List α) :
    twf d (tsplice d t a l) = true := by
  rw [twf_iff_canon] at *; exact Canon.tsplice h a l

theorem twf_tclear [DecidableEq α] {d : α} {t : Tbl α} (h : twf d t = true) (lo hi : Nat) :
    twf d (tclear t lo hi) = true := by
  rw [twf_iff_canon] at *; exact h.tclear lo hi

theorem tsorted_tins_fold {t : Tbl α} (h : tsorted none t = true) (l : List Nat) (f : Nat → Nat) (g : Nat → α) :
    tsorted none (l.foldl (fun t i => tins t (f i) (g i)) t) = true := by
  induction l generalizing t with
  | nil => exact h
  | cons x l ih => exact ih (tsorted_tins h _ _)

theorem tget_tins_same {d : α} (t : Tbl α) (i : Nat) (x : α) : tget d (tins t i x) i = x := by
  induction t with
  | nil => simp [tins, tget]
  | cons y t ih =>
    obtain ⟨k, v⟩ := y
    simp only [tins]
    split
    · simp [tget]
    · split
      · simp [tget]
      · rename_i hk _; simp [tget, hk, ih]

theorem tget_tins_ne {d : α} (t : Tbl α) {i j : Nat} (x : α) (h : i ≠ j) : tget d (tins t i x) j = tget d t j := by
  induction t with
  | nil => simp [tins, tget, h]
  | cons y t ih =>
    obtain ⟨k, v⟩ := y
    simp only [tins]
    split
    · rename_i hk; subst hk; simp [tget, h]
    · split
      · simp [tget, h]
      · simp only [tget]; split <;> simp [ih]

theorem tget_of_above {d : α} {t : Tbl α} {i : Nat} (h : ∀ e ∈ t, i < e.1) : tget d t i = d := by
  induction t with
  | nil => rfl
  | cons y t ih =>
    obtain ⟨k, v⟩ := y
    have := h (k, v) List.mem_cons_self
    simp only [tget]
    rw [if_neg (by simp only at this; omega)]
    exact ih (fun e he => h e (List.mem_cons_of_mem _ he))

theorem tget_tdel_same {d : α} {t : Tbl α} (h : t.Pairwise (fun x y => x.1 < y.1)) (i : Nat) :
    tget d (tdel t i) i = d := by
  induction t with
  | nil => rfl
  | cons y t ih =>
    obtain ⟨k, v⟩ := y
    obtain ⟨h1, h2⟩ := List.pairwise_cons.1 h
    simp only [tdel]
    split
    · rename_i hk; subst hk; exact tget_of_above h1
    · split
      · rename_i hk hik
        refine tget_of_above ?_
        intro e he
        rcases List.mem_cons.1 he with rfl | he
        · exact hik
        · exact Nat.lt_trans hik (h1 e he)
      · rename_i hk _; simp [tget, hk, ih h2]

theorem tget_tdel_ne {d : α} (t : Tbl α) {i j : Nat} (h : i ≠ j) : tget d (tdel t i) j = tget d t j := by
  induction t with
  | nil => rfl
  | cons y t ih =>
    obtain ⟨k, v⟩ := y
    simp only [tdel]
    split
    · rename_i hk; subst hk; simp [tget, h]
    · split
      · rfl
      · simp only [tget]; split <;> simp [ih]

/-- A read after a write of the same key gives what was written, in a table of rising keys. -/
theorem tget_tset_same [DecidableEq α] {d : α} {t : Tbl α} (h : tsorted none t = true) (i : Nat) (x : α) :
    tget d (tset d t i x) i = x := by
  unfold Machine.tset
  split
  · rename_i hx; rw [hx]; exact tget_tdel_same ((tsorted_none_iff t).1 h) i
  · exact tget_tins_same t i x

/-- A write leaves every other key alone. -/
theorem tget_tset_ne [DecidableEq α] {d d' : α} (t : Tbl α) {i j : Nat} (x : α) (h : i ≠ j) :
    tget d' (tset d t i x) j = tget d' t j := by
  unfold Machine.tset
  split
  · exact tget_tdel_ne t h
  · exact tget_tins_ne t x h

end Sys2Proof.Machine
end

