-- ==== Sys2Proof/Laws/Keeps.lean ====
section
/-!
SUPPORT. What no operation of the block may do: touch the queue of waiting commands, take back what has left the block,
reuse a free value, clear a blown fuse (R158), or break the canonical form of a table. `Keeps s t` says that the way
from s to t did none of these; each operation has one lemma of that name.
-/

namespace Sys2Proof.Machine

/-- No fuse that is blown in `a` is clear in `b`, and no written key or identity is changed (R158). -/
structure FusesKept (a b : Fuses) : Prop where
  imgKey : ∀ i k, tget none a.imgKey i = some k → tget none b.imgKey i = some k
  imgRevoked : ∀ i, tget false a.imgRevoked i = true → tget false b.imgRevoked i = true
  svn : a.svn ≤ b.svn
  ownerSet : a.ownerSet = true → b.ownerSet = true
  ownerKey : a.ownerSet = true → b.ownerKey = a.ownerKey
  debugLock : a.debugLock = true → b.debugLock = true
  approved : a.approved = true → b.approved = true
  decommissioned : a.decommissioned = true → b.decommissioned = true

theorem FusesKept.refl (a : Fuses) : FusesKept a a :=
  ⟨fun _ _ h => h, fun _ h => h, Nat.le_refl _, id, fun _ => rfl, id, id, id⟩

theorem FusesKept.of_eq {a b : Fuses} (h : b = a) : FusesKept a b := h ▸ .refl a

theorem FusesKept.trans {a b c : Fuses} (h : FusesKept a b) (k : FusesKept b c) : FusesKept a c where
  imgKey i x e := k.imgKey i x (h.imgKey i x e)
  imgRevoked i e := k.imgRevoked i (h.imgRevoked i e)
  svn := Nat.le_trans h.svn k.svn
  ownerSet e := k.ownerSet (h.ownerSet e)
  ownerKey e := (k.ownerKey (h.ownerSet e)).trans (h.ownerKey e)
  debugLock e := k.debugLock (h.debugLock e)
  approved e := k.approved (h.approved e)
  decommissioned e := k.decommissioned (h.decommissioned e)

/-- What every operation of the block leaves in order. -/
structure Keeps (s t : State) : Prop where
  pending : t.pending = s.pending
  outs : s.outs <:+ t.outs
  free : s.free ≤ t.free
  fuses : FusesKept s.vlt.fuses t.vlt.fuses
  mem : s.mem.wf → t.mem.wf
  regs : Canon regReset s.regs → Canon regReset t.regs
  flash : twf 0xFF s.flash = true → twf 0xFF t.flash = true
  host : tsorted none s.host = true → tsorted none t.host = true

theorem Keeps.refl (s : State) : Keeps s s :=
  ⟨rfl, List.suffix_refl _, Nat.le_refl _, .refl _, id, id, id, id⟩

theorem Keeps.trans {s t u : State} (h : Keeps s t) (k : Keeps t u) : Keeps s u where
  pending := k.pending.trans h.pending
  outs := h.outs.trans k.outs
  free := Nat.le_trans h.free k.free
  fuses := h.fuses.trans k.fuses
  mem x := k.mem (h.mem x)
  regs x := k.regs (h.regs x)
  flash x := k.flash (h.flash x)
  host x := k.host (h.host x)

/-- A change of the other fields. -/
theorem Keeps.same {s t u : State} (h : Keeps s t) (hp : u.pending = t.pending) (ho : u.outs = t.outs)
    (hf : u.free = t.free) (hv : u.vlt.fuses = t.vlt.fuses) (hm : u.mem = t.mem) (hr : u.regs = t.regs)
    (hl : u.flash = t.flash) (hh : u.host = t.host) : Keeps s u where
  pending := hp.trans h.pending
  outs := ho ▸ h.outs
  free := hf ▸ h.free
  fuses := hv ▸ h.fuses
  mem x := hm ▸ h.mem x
  regs x := hr ▸ h.regs x
  flash x := hl ▸ h.flash x
  host x := hh ▸ h.host x

/-- A change of the other fields and of device memory. -/
theorem Keeps.sameMem {s t u : State} (h : Keeps s t) (hm : t.mem.wf → u.mem.wf) (hp : u.pending = t.pending)
    (ho : u.outs = t.outs) (hf : t.free ≤ u.free) (hv : u.vlt.fuses = t.vlt.fuses) (hr : u.regs = t.regs)
    (hl : u.flash = t.flash) (hh : u.host = t.host) : Keeps s u where
  pending := hp.trans h.pending
  outs := ho ▸ h.outs
  free := Nat.le_trans h.free hf
  fuses := hv ▸ h.fuses
  mem x := hm (h.mem x)
  regs x := hr ▸ h.regs x
  flash x := hl ▸ h.flash x
  host x := hh ▸ h.host x

/-- A state built from parts, each of which is kept or changed as `Keeps` allows. -/
theorem Keeps.ofMk {s t : State} {x_pins : Pins} {x_clk : Clk} {x_pwr : Pwr} {x_aon : Aon} {x_boot : Boot} {x_stg :
    Stg} {x_flt : Flt} {x_tel : Tel} {x_dbg : Dbg} {x_que : Que} {x_hif : Hif} {x_str : Str} {x_ldg : Ldg} {x_eth :
    Eth} {x_ngl : Ngl} {x_gth : Gth} {x_azm : Azm} {x_ing : Ing} {x_pak : Pak} {x_sen : Sen} {x_servo : Servo}
    {x_shHost : Option (Nat × Half)} {x_shDbg : Option (Nat × Half)} {x_shVlt : Option (Nat × Half)} {x_time : Nat}
    {x_spine : Nat}
    {v : Vlt} {m : Mem} {r : Tbl Word} {hs : List Host.Cell} {fl : Tbl Byte} {f : Nat} {o : List Out}
    (h : Keeps s t) (ho : t.outs <:+ o) (hf : t.free ≤ f) (hv : FusesKept t.vlt.fuses v.fuses)
    (hm : t.mem.wf → m.wf) (hr : Canon regReset t.regs → Canon regReset r)
    (hl : twf 0xFF t.flash = true → twf 0xFF fl = true) (hh : tsorted none t.host = true → tsorted none hs = true) :
    Keeps s (State.mk x_pins x_clk x_pwr x_aon x_boot x_stg x_flt x_tel x_dbg x_que v m x_hif x_str x_ldg x_eth x_ngl
    x_gth x_azm x_ing x_pak x_sen x_servo r x_shHost x_shDbg x_shVlt hs fl x_time x_spine f o t.pending) where
  pending := h.pending
  outs := h.outs.trans ho
  free := Nat.le_trans h.free hf
  fuses := h.fuses.trans hv
  mem x := hm (h.mem x)
  regs x := hr (h.regs x)
  flash x := hl (h.flash x)
  host x := hh (h.host x)

/-! ### Combinators -/

theorem Keeps.ite {s a b : State} {c : Prop} [Decidable c] (ha : Keeps s a) (hb : Keeps s b) :
    Keeps s (if c then a else b) := by split <;> assumption

theorem Keeps.foldl {β : Type} {s t : State} (h : Keeps s t) (f : State → β → State)
    (hf : ∀ u x, Keeps s u → Keeps s (f u x)) (l : List β) : Keeps s (l.foldl f t) := by
  induction l generalizing t with
  | nil => exact h
  | cons x l ih => exact ih (hf t x h)

/-- A fold that carries more than the state. -/
theorem Keeps.foldlFst {α β : Type} {s : State} {p : State × α} (h : Keeps s p.1) (f : State × α → β → State × α)
    (hf : ∀ u a x, Keeps s u → Keeps s (f (u, a) x).1) (l : List β) : Keeps s (l.foldl f p).1 := by
  induction l generalizing p with
  | nil => exact h
  | cons x l ih => exact ih (p := f p x) (hf p.1 p.2 x h)

theorem Keeps.iteFst {α : Type} {s : State} {p q : State × α} {c : Prop} [Decidable c] (hp : Keeps s p.1)
    (hq : Keeps s q.1) : Keeps s (if c then p else q).1 := by split <;> assumption

theorem Keeps.ofFst {α : Type} {s t : State} {p : State × α} {y : α} (e : p = (t, y)) (h : Keeps s p.1) :
    Keeps s t := by subst e; exact h

theorem State.whenB_keeps {s t : State} (h : Keeps s t) (b : Bool) (f : State → State)
    (hf : ∀ u, Keeps s u → Keeps s (f u)) : Keeps s (t.whenB b f) := by
  unfold State.whenB; split
  · exact hf t h
  · exact h

theorem State.fresh_keeps {s t : State} (h : Keeps s t) (f : Nat → State → State)
    (hf : ∀ k u, Keeps s u → Keeps s (f k u)) : Keeps s (t.fresh f) :=
  hf _ _ ⟨h.pending, h.outs, Nat.le_succ_of_le h.free, h.fuses, h.mem, h.regs, h.flash, h.host⟩

theorem Keeps.fwd {s t : State} (h : Keeps s t) (k : Nat) : Keeps s { t with free := t.free + k } :=
  ⟨h.pending, h.outs, Nat.le_trans h.free (Nat.le_add_right _ _), h.fuses, h.mem, h.regs, h.flash, h.host⟩

/-- Every next state an outcome leads to is kept. -/
structure NextKeeps (s : State) (o : Host.Outcome State Fault Refusal) : Prop where
  next_keeps : ∀ u, o = .next u → Keeps s u

theorem NextKeeps.next {s t : State} (h : Keeps s t) : NextKeeps s (.next t) := ⟨fun u e => by
  injection e with e; subst e; exact h⟩

theorem NextKeeps.fault {s : State} (r : Fault) : NextKeeps s (.fault r) := ⟨fun u e => by cases e⟩

theorem NextKeeps.refused {s : State} (r : Refusal) : NextKeeps s (.refused r) := ⟨fun u e => by cases e⟩

theorem NextKeeps.ite {s : State} {a b : Host.Outcome State Fault Refusal} {c : Prop} [Decidable c]
    (ha : NextKeeps s a) (hb : NextKeeps s b) : NextKeeps s (if c then a else b) := by split <;> assumption

/-- Every state an optional state holds is kept. -/
structure OptKeeps (s : State) (o : Option State) : Prop where
  some_keeps : ∀ u, o = some u → Keeps s u

theorem OptKeeps.some {s t : State} (h : Keeps s t) : OptKeeps s (some t) := ⟨fun u e => by
  injection e with e; subst e; exact h⟩

theorem OptKeeps.none {s : State} : OptKeeps s none := ⟨fun u e => by cases e⟩

theorem OptKeeps.ite {s : State} {a b : Option State} {c : Prop} [Decidable c]
    (ha : OptKeeps s a) (hb : OptKeeps s b) : OptKeeps s (if c then a else b) := by split <;> assumption

theorem OptKeeps.map {s : State} {o : Option State} (h : OptKeeps s o) (f : State → State)
    (hf : ∀ u, Keeps s u → Keeps s (f u)) : OptKeeps s (o.map f) := ⟨fun u e => by
  cases o with
  | none => cases e
  | some v => injection e with e; subst e; exact hf v (h.1 v rfl)⟩

theorem OptKeeps.getD {s w : State} {o : Option State} (h : OptKeeps s o) (hw : Keeps s w) : Keeps s (o.getD w) := by
  cases o with
  | none => exact hw
  | some v => exact h.1 v rfl

theorem Keeps.ofOpt {s u : State} {o : Option State} (e : o = .some u) (h : OptKeeps s o) : Keeps s u := h.1 u e

/-! ### Device memory -/

theorem Mem.unlisted_wr (m : Mem) (a : Nat) (b : Byte) : (m.wr a b).unlisted = m.unlisted := rfl

theorem Mem.wr_wf {m : Mem} (h : m.wf) (a : Nat) (b : Byte) : (m.wr a b).wf :=
  Canon.tset (d := m.unlisted) h a b

theorem Mem.wrs_wf {m : Mem} (h : m.wf) (a : Nat) (bs : List Byte) : (m.wrs a bs).wf := by
  induction bs generalizing m a with
  | nil => exact h
  | cons b bs ih => exact ih (Mem.wr_wf h a b) (a + 1)

/-- The form of memory looks at its bytes and at the undefined ranges only. -/
theorem Mem.wf_congr {m n : Mem} (hb : n.bytes = m.bytes) (hw : n.wild = m.wild) (h : m.wf) : n.wf := by
  have hu : n.unlisted = m.unlisted := by funext a; simp only [Mem.unlisted, hw]
  unfold Mem.wf; rw [hb, hu]; exact h

theorem Mem.setPoison_wf {m : Mem} (h : m.wf) (l : Nat) (b : Bool) : (m.setPoison l b).wf := Mem.wf_congr rfl rfl h

theorem Mem.foldPoison_wf {m : Mem} (h : m.wf) (b : Bool) (l : List Nat) :
    (l.foldl (fun m k => m.setPoison k b) m).wf := by
  induction l generalizing m with
  | nil => exact h
  | cons x l ih => exact ih (Mem.setPoison_wf h x b)

theorem Mem.cleanLines_wf {m : Mem} (h : m.wf) (a n : Nat) : (m.cleanLines a n).wf := Mem.foldPoison_wf h _ _

theorem Mem.poisonLines_wf {m : Mem} (h : m.wf) (a n : Nat) : (m.poisonLines a n).wf := by
  unfold Mem.poisonLines; split
  · exact h
  · exact Mem.foldPoison_wf h _ _

theorem Mem.touchInit_wf {m : Mem} (h : m.wf) (a : Nat) : (m.touchInit a).wf := by
  unfold Mem.touchInit; split
  · exact Mem.wf_congr rfl rfl h
  · exact h

theorem Mem.store_wf {m : Mem} (h : m.wf) (a : Nat) (bs : List Byte) : (m.store a bs).wf := by
  unfold Mem.store; split
  · exact h
  · exact Mem.cleanLines_wf (Mem.wrs_wf (Mem.touchInit_wf (Mem.touchInit_wf h _) _) _ _) _ _

theorem Mem.storeP_wf {m : Mem} (h : m.wf) (a : Nat) (bs : List Byte) (p : Bool) : (m.storeP a bs p).wf := by
  unfold Mem.storeP; split
  · exact Mem.poisonLines_wf (Mem.wrs_wf (Mem.touchInit_wf h _) _ _) _ _
  · exact Mem.store_wf h a bs

/-- A range outside which nothing is undefined anew keeps the unlisted bytes outside it. -/
theorem Mem.unlisted_undef {m : Mem} {lo hi seed a : Nat} (h : a < lo ∨ hi ≤ a) :
    (m.undef lo hi seed).unlisted a = m.unlisted a := by
  unfold Mem.unlisted Mem.undef
  have h1 : (decide (lo ≤ a) && decide (a < hi)) = false := by
    rcases h with h | h <;> simp <;> omega
  simp only [List.find?_cons, h1]
  rw [List.find?_filter]
  congr 1
  refine congrArg (fun p => List.find? p m.wild) ?_
  funext r
  by_cases hr : lo ≤ r.lo ∧ r.hi ≤ hi
  · have : (decide (r.lo ≤ a) && decide (a < r.hi)) = false := by
      rcases h with h | h <;> simp <;> omega
    simp [this]
  · have : (!(decide (lo ≤ r.lo) && decide (r.hi ≤ hi))) = true := by
      simp; omega
    simp only [this, true_and, Bool.decide_eq_true]

theorem Mem.undef_wf {m : Mem} (h : m.wf) (lo hi seed : Nat) : (m.undef lo hi seed).wf := by
  refine ⟨(Canon.tclear (d := m.unlisted) h lo hi).1, fun e he => ?_⟩
  have he : e ∈ m.bytes ∧ (e.1 < lo ∨ hi ≤ e.1) := by
    have he : e ∈ Machine.tclear m.bytes lo hi := he
    simpa [Machine.tclear] using he
  rw [Mem.unlisted_undef he.2]
  exact h.2 e he.1

theorem Mem.cold_wf (seed : Nat) : (Mem.cold seed).wf := ⟨rfl, fun e he => by cases he⟩

end Sys2Proof.Machine
end

