-- ==== Sys2Proof/Laws/KeepsOps.lean ====
section
/-!
SUPPORT. `Keeps` for the shared operations on registers, events, traces, messages, links and memory:
one lemma per operation and one per meaning.
-/

namespace Sys2Proof.Machine

/-! ### Machine/Ops.lean -/

theorem State.emit_keeps {s t : State} (h : Keeps s t) (o : Out) :
    Keeps s (t.emit o) := by
  unfold State.emit
  repeat' first
    | with_reducible assumption | extract_lets | exact List.suffix_cons _ _ | exact FusesKept.refl _
    | exact Nat.le_refl _ | with_reducible exact id
    | ((conv => { arg 2; arg 34; skip }); with_reducible apply Keeps.ofMk)

theorem State.setReg_keeps {s t : State} (h : Keeps s t) (a : Nat) (v : Word) :
    Keeps s (t.setReg a v) := by
  unfold State.setReg
  repeat' first
    | with_reducible assumption | extract_lets | exact List.suffix_refl _ | exact FusesKept.refl _
    | exact Nat.le_refl _ | with_reducible exact id | exact fun hw => Canon.tset hw _ _
    | ((conv => { arg 2; arg 34; skip }); with_reducible apply Keeps.ofMk)

theorem State.bump_keeps {s t : State} (h : Keeps s t) (a : Nat) (n : Nat) :
    Keeps s (t.bump a n) := by
  unfold State.bump
  repeat' first
    | with_reducible assumption | with_reducible apply State.setReg_keeps

theorem State.err_keeps {s t : State} (h : Keeps s t) (a : Nat) :
    Keeps s (t.err a) := by
  unfold State.err
  repeat' first
    | with_reducible assumption | with_reducible apply State.setReg_keeps

theorem State.errN_keeps {s t : State} (h : Keeps s t) (a : Nat) (n : Nat) :
    Keeps s (t.errN a n) := by
  unfold State.errN
  repeat' first
    | with_reducible assumption | extract_lets | intro _ | with_reducible apply State.err_keeps
    | with_reducible apply Keeps.foldl

theorem State.setBits_keeps {s t : State} (h : Keeps s t) (a : Nat) (m : Nat) :
    Keeps s (t.setBits a m) := by
  unfold State.setBits
  repeat' first
    | with_reducible assumption | with_reducible apply State.setReg_keeps

theorem State.clrBits_keeps {s t : State} (h : Keeps s t) (a : Nat) (m : Nat) :
    Keeps s (t.clrBits a m) := by
  unfold State.clrBits
  repeat' first
    | with_reducible assumption | with_reducible apply State.setReg_keeps

theorem State.clearRegs_keeps {s t : State} (h : Keeps s t) (lo : Nat) (hi : Nat) :
    Keeps s (t.clearRegs lo hi) := by
  unfold State.clearRegs
  repeat' first
    | with_reducible assumption | extract_lets | exact List.suffix_refl _ | exact FusesKept.refl _
    | exact Nat.le_refl _ | with_reducible exact id | exact fun hw => Canon.tclear hw _ _
    | ((conv => { arg 2; arg 34; skip }); with_reducible apply Keeps.ofMk)

theorem State.setDom_keeps {s t : State} (h : Keeps s t) (d : Nat) (x : Dom) :
    Keeps s (t.setDom d x) := by
  unfold State.setDom
  repeat' first
    | with_reducible assumption | extract_lets | exact List.suffix_refl _ | exact FusesKept.refl _
    | exact Nat.le_refl _ | with_reducible exact id
    | ((conv => { arg 2; arg 34; skip }); with_reducible apply Keeps.ofMk)

theorem State.setUnit_keeps {s t : State} (h : Keeps s t) (u : Nat) (x : FUnit) :
    Keeps s (t.setUnit u x) := by
  unfold State.setUnit
  repeat' first
    | with_reducible assumption | extract_lets | exact List.suffix_refl _ | exact FusesKept.refl _
    | exact Nat.le_refl _ | with_reducible exact id
    | ((conv => { arg 2; arg 34; skip }); with_reducible apply Keeps.ofMk)

theorem State.store_keeps {s t : State} (h : Keeps s t) (a : Nat) (bs : List Byte) :
    Keeps s (t.store a bs) := by
  unfold State.store
  repeat' first
    | with_reducible assumption | extract_lets | exact List.suffix_refl _ | exact FusesKept.refl _
    | exact Nat.le_refl _ | with_reducible exact id | exact fun hw => Mem.store_wf hw _ _
    | ((conv => { arg 2; arg 34; skip }); with_reducible apply Keeps.ofMk)

theorem State.setCc_keeps {s t : State} (h : Keeps s t) (l : Nat) (x : Option CcLine) :
    Keeps s (t.setCc l x) := by
  unfold State.setCc
  repeat' first
    | with_reducible assumption | extract_lets | exact List.suffix_refl _ | exact FusesKept.refl _
    | exact Nat.le_refl _ | with_reducible exact id
    | ((conv => { arg 2; arg 34; skip }); with_reducible apply Keeps.ofMk)

theorem State.ccRoom_keeps {s t : State} (h : Keeps s t) (l : Nat) :
    OptKeeps s (t.ccRoom l) := by
  unfold State.ccRoom
  repeat' first
    | with_reducible assumption | extract_lets | exact List.suffix_refl _ | exact FusesKept.refl _
    | exact Nat.le_refl _ | exact Nat.le_add_right _ _ | with_reducible exact id
    | with_reducible apply State.setCc_keeps | with_reducible apply State.emit_keeps
    | with_reducible apply OptKeeps.some | exact OptKeeps.none | with_reducible apply OptKeeps.ite
    | ((conv => { arg 2; arg 34; skip }); with_reducible apply Keeps.ofMk) | split
    | ((with_reducible conv => { arg 2; whnf }); (conv => { arg 2; arg 34; skip }); with_reducible apply Keeps.ofMk)

theorem State.ccInstall_keeps {s t : State} (h : Keeps s t) (l : Nat) (x : CcLine) :
    OptKeeps s (t.ccInstall l x) := by
  unfold State.ccInstall
  repeat' first
    | with_reducible assumption | extract_lets | intro _ | with_reducible apply State.ccRoom_keeps
    | with_reducible apply State.setCc_keeps | with_reducible apply OptKeeps.map

theorem State.hostPost_keeps {s t : State} (h : Keeps s t) (a : Nat) (bs : List Byte) :
    Keeps s (t.hostPost a bs) := by
  unfold State.hostPost
  repeat' first
    | with_reducible assumption | with_reducible apply State.emit_keeps

theorem State.ccWrite_keeps {s t : State} (h : Keeps s t) (l : Nat) (o : Nat) (bs : List Byte) :
    Keeps s (t.ccWrite l o bs) := by
  unfold State.ccWrite
  repeat' first
    | with_reducible assumption | extract_lets | exact List.suffix_refl _ | exact FusesKept.refl _
    | exact Nat.le_refl _ | with_reducible exact id | with_reducible apply State.bump_keeps
    | with_reducible apply State.emit_keeps | with_reducible apply State.setCc_keeps
    | with_reducible apply State.ccInstall_keeps | with_reducible apply State.hostPost_keeps
    | with_reducible apply Keeps.ite | with_reducible refine Keeps.ofOpt (by assumption) ?_
    | ((conv => { arg 2; arg 34; skip }); with_reducible apply Keeps.ofMk) | split

theorem State.ccRead_keeps {s t : State} (h : Keeps s t) (g : Nat) (a : Nat) (n : Nat) :
    Keeps s (t.ccRead g a n) := by
  unfold State.ccRead
  repeat' first
    | with_reducible assumption | extract_lets | exact List.suffix_refl _ | exact FusesKept.refl _
    | exact Nat.le_refl _ | with_reducible exact id | intro _ | with_reducible apply State.bump_keeps
    | with_reducible apply State.emit_keeps | with_reducible apply Keeps.foldl | with_reducible apply Keeps.ite
    | ((conv => { arg 2; arg 34; skip }); with_reducible apply Keeps.ofMk)

theorem State.hostStore_keeps {s t : State} (h : Keeps s t) (a : Nat) (bs : List Byte) (g : Option Nat) :
    Keeps s (t.hostStore a bs g) := by
  unfold State.hostStore
  repeat' first
    | with_reducible assumption | extract_lets | exact List.suffix_refl _ | exact FusesKept.refl _
    | exact Nat.le_refl _ | with_reducible exact id | exact fun hw => tsorted_tins_fold hw _ _ _ | intro _
    | with_reducible apply State.bump_keeps | with_reducible apply State.ccWrite_keeps
    | with_reducible apply State.hostPost_keeps | with_reducible apply Keeps.foldl | with_reducible apply Keeps.ite
    | ((with_reducible conv => { arg 2; whnf }); (conv => { arg 2; arg 34; skip }); with_reducible apply Keeps.ofMk)

theorem State.msix_keeps {s t : State} (h : Keeps s t) (v : Nat) :
    Keeps s (t.msix v) := by
  unfold State.msix
  repeat' first
    | with_reducible assumption | extract_lets | exact List.suffix_refl _ | exact FusesKept.refl _
    | exact Nat.le_refl _ | with_reducible exact id | with_reducible apply State.bump_keeps
    | with_reducible apply State.emit_keeps | with_reducible apply Keeps.ite
    | ((conv => { arg 2; arg 34; skip }); with_reducible apply Keeps.ofMk)

theorem State.event_keeps {s t : State} (h : Keeps s t) (e : Nat) :
    Keeps s (t.event e) := by
  unfold State.event
  repeat' first
    | with_reducible assumption | extract_lets | with_reducible apply State.msix_keeps
    | with_reducible apply Keeps.ite

/-! ### Machine/TelOps.lean -/

theorem State.trace_keeps {s t : State} (h : Keeps s t) (type : Nat) (unit : Nat) (data : List Byte) :
    Keeps s (t.trace type unit data) := by
  unfold State.trace
  repeat' first
    | with_reducible assumption | extract_lets | exact List.suffix_refl _ | exact FusesKept.refl _
    | exact Nat.le_refl _ | with_reducible exact id | with_reducible apply State.err_keeps
    | with_reducible apply Keeps.ite | ((conv => { arg 2; arg 34; skip }); with_reducible apply Keeps.ofMk)

theorem State.logPut_keeps {s t : State} (h : Keeps s t) (e : Nat → List Byte) :
    Keeps s (t.logPut e) := by
  unfold State.logPut
  repeat' first
    | with_reducible assumption | extract_lets | exact List.suffix_refl _ | exact FusesKept.refl _
    | exact Nat.le_refl _ | with_reducible exact id | with_reducible apply State.err_keeps
    | with_reducible apply State.setReg_keeps | with_reducible apply State.bump_keeps
    | with_reducible apply Keeps.ite | ((conv => { arg 2; arg 34; skip }); with_reducible apply Keeps.ofMk)

theorem State.faultRec_keeps {s t : State} (h : Keeps s t) (cls : Nat) (code : Nat) (unit : Nat) (detail : Nat)
      (owner : Nat) (fl : LogFlags) :
    Keeps s (t.faultRec cls code unit detail owner fl) := by
  unfold State.faultRec
  repeat' first
    | with_reducible assumption | extract_lets | exact List.suffix_refl _ | exact FusesKept.refl _
    | exact Nat.le_refl _ | with_reducible exact id | intro _ | with_reducible apply State.err_keeps
    | with_reducible apply State.setUnit_keeps | with_reducible apply State.logPut_keeps
    | with_reducible apply State.whenB_keeps | with_reducible apply State.setBits_keeps
    | with_reducible apply State.event_keeps | with_reducible apply State.trace_keeps
    | ((conv => { arg 2; arg 34; skip }); with_reducible apply Keeps.ofMk)

theorem State.logOnly_keeps {s t : State} (h : Keeps s t) (cls : Nat) (code : Nat) (unit : Nat) (detail : Nat) (fl
      : LogFlags) :
    Keeps s (t.logOnly cls code unit detail fl) := by
  unfold State.logOnly
  repeat' first
    | with_reducible assumption | with_reducible apply State.logPut_keeps

theorem State.faultC0_keeps {s t : State} (h : Keeps s t) (code : Nat) (unit : Nat) (detail : Nat) (owner : Nat) :
    Keeps s (t.faultC0 code unit detail owner) := by
  unfold State.faultC0
  repeat' first
    | with_reducible assumption | with_reducible apply State.faultRec_keeps

theorem State.journal_keeps {s t : State} (h : Keeps s t) (type : Nat) (pipe : Nat) (id : Nat) (arg0 : Nat) (arg1 :
      Nat) :
    Keeps s (t.journal type pipe id arg0 arg1) := by
  unfold State.journal
  repeat' first
    | with_reducible assumption | extract_lets | exact List.suffix_refl _ | exact FusesKept.refl _
    | exact Nat.le_refl _ | exact Mem.wf_congr rfl rfl | intro _
    | ((conv => { arg 2; arg 34; skip }); with_reducible apply Keeps.ofMk)

theorem State.checkpoint_keeps {s t : State} (h : Keeps s t) (p : Nat) :
    Keeps s (t.checkpoint p) := by
  unfold State.checkpoint
  repeat' first
    | with_reducible assumption | extract_lets | with_reducible apply State.journal_keeps

theorem State.jrnWrite_keeps {s t : State} (h : Keeps s t) (e : List Byte) :
    Keeps s (t.jrnWrite e) := by
  unfold State.jrnWrite
  repeat' first
    | with_reducible assumption | extract_lets | exact List.suffix_refl _ | exact FusesKept.refl _
    | exact Nat.le_refl _ | with_reducible exact id | with_reducible apply State.setBits_keeps
    | with_reducible apply State.hostStore_keeps | with_reducible apply State.store_keeps
    | with_reducible apply Keeps.ite
    | ((with_reducible conv => { arg 2; whnf }); (conv => { arg 2; arg 34; skip }); with_reducible apply Keeps.ofMk)

theorem State.jrnDrain_keeps {s t : State} (h : Keeps s t) :
    Keeps s (t.jrnDrain) := by
  unfold State.jrnDrain
  repeat' first
    | with_reducible assumption | extract_lets | exact List.suffix_refl _ | exact FusesKept.refl _
    | exact Nat.le_refl _ | with_reducible exact id | intro _ | with_reducible apply State.jrnWrite_keeps
    | with_reducible apply Keeps.foldl | ((conv => { arg 2; arg 34; skip }); with_reducible apply Keeps.ofMk)

theorem State.flushJournal_keeps {s t : State} (h : Keeps s t) :
    Keeps s (t.flushJournal) := by
  unfold State.flushJournal
  repeat' first
    | with_reducible assumption | extract_lets | intro _ | with_reducible apply State.jrnDrain_keeps
    | with_reducible apply State.checkpoint_keeps | with_reducible apply State.journal_keeps
    | with_reducible apply Keeps.foldl

theorem State.startFlush_keeps {s t : State} (h : Keeps s t) (c : FlushCause) :
    Keeps s (t.startFlush c) := by
  unfold State.startFlush
  repeat' first
    | with_reducible assumption | extract_lets | exact List.suffix_refl _ | exact FusesKept.refl _
    | exact Nat.le_refl _ | with_reducible exact id | with_reducible apply State.flushJournal_keeps
    | with_reducible apply Keeps.ite | ((conv => { arg 2; arg 34; skip }); with_reducible apply Keeps.ofMk)

theorem State.setCtx_keeps {s t : State} (h : Keeps s t) (n : Nat) (c : Ctx) :
    Keeps s (t.setCtx n c) := by
  unfold State.setCtx
  repeat' first
    | with_reducible assumption | extract_lets | exact List.suffix_refl _ | exact FusesKept.refl _
    | exact Nat.le_refl _ | with_reducible exact id
    | ((conv => { arg 2; arg 34; skip }); with_reducible apply Keeps.ofMk)

theorem State.unpin_keeps {s t : State} (h : Keeps s t) (p : Nat) :
    Keeps s (t.unpin p) := by
  unfold State.unpin
  repeat' first
    | with_reducible assumption | extract_lets | exact List.suffix_refl _ | exact FusesKept.refl _
    | exact Nat.le_refl _ | with_reducible exact id | with_reducible apply Keeps.ite
    | ((conv => { arg 2; arg 34; skip }); with_reducible apply Keeps.ofMk)

theorem State.freeCtx_keeps {s t : State} (h : Keeps s t) (n : Nat) :
    Keeps s (t.freeCtx n) := by
  unfold State.freeCtx
  repeat' first
    | with_reducible assumption | extract_lets | exact List.suffix_refl _ | exact FusesKept.refl _
    | exact Nat.le_refl _ | with_reducible exact id | with_reducible apply State.unpin_keeps
    | with_reducible apply State.setCtx_keeps | with_reducible apply State.bump_keeps
    | with_reducible apply Keeps.ite | ((conv => { arg 2; arg 34; skip }); with_reducible apply Keeps.ofMk)

theorem State.freeAll_keeps {s t : State} (h : Keeps s t) :
    Keeps s (t.freeAll) := by
  unfold State.freeAll
  repeat' first
    | with_reducible assumption | extract_lets | exact List.suffix_refl _ | exact FusesKept.refl _
    | exact Nat.le_refl _ | with_reducible exact id | exact Mem.wf_congr rfl rfl
    | ((conv => { arg 2; arg 34; skip }); with_reducible apply Keeps.ofMk)

theorem State.setTask_keeps {s t : State} (h : Keeps s t) (t' : Nat) (x : Option Task) :
    Keeps s (t.setTask t' x) := by
  unfold State.setTask
  repeat' first
    | with_reducible assumption | extract_lets | exact List.suffix_refl _ | exact FusesKept.refl _
    | exact Nat.le_refl _ | with_reducible exact id
    | ((conv => { arg 2; arg 34; skip }); with_reducible apply Keeps.ofMk)

theorem State.modTask_keeps {s t : State} (h : Keeps s t) (t' : Nat) (f : Task → Task) :
    Keeps s (t.modTask t' f) := by
  unfold State.modTask
  repeat' first
    | with_reducible assumption | with_reducible apply State.setTask_keeps | split

theorem State.setQueue_keeps {s t : State} (h : Keeps s t) (q : Nat) (x : Queue) :
    Keeps s (t.setQueue q x) := by
  unfold State.setQueue
  repeat' first
    | with_reducible assumption | extract_lets | exact List.suffix_refl _ | exact FusesKept.refl _
    | exact Nat.le_refl _ | with_reducible exact id
    | ((conv => { arg 2; arg 34; skip }); with_reducible apply Keeps.ofMk)

theorem State.dropStreamsOf_keeps {s t : State} (h : Keeps s t) (t' : Nat) :
    Keeps s (t.dropStreamsOf t') := by
  unfold State.dropStreamsOf
  repeat' first
    | with_reducible assumption | extract_lets | exact List.suffix_refl _ | exact FusesKept.refl _
    | exact Nat.le_refl _ | with_reducible exact id
    | ((conv => { arg 2; arg 34; skip }); with_reducible apply Keeps.ofMk)

theorem State.unpinKey_keeps {s t : State} (h : Keeps s t) (r : IngRec) :
    Keeps s (t.unpinKey r) := by
  unfold State.unpinKey
  repeat' first
    | with_reducible assumption | extract_lets | exact List.suffix_refl _ | exact FusesKept.refl _
    | exact Nat.le_refl _ | with_reducible exact id
    | ((conv => { arg 2; arg 34; skip }); with_reducible apply Keeps.ofMk) | split

theorem State.ingForget_keeps {s t : State} (h : Keeps s t) (t' : Nat) :
    Keeps s (t.ingForget t') := by
  unfold State.ingForget
  repeat' first
    | with_reducible assumption | extract_lets | exact List.suffix_refl _ | exact FusesKept.refl _
    | exact Nat.le_refl _ | with_reducible exact id | intro _ | with_reducible apply State.unpinKey_keeps
    | with_reducible apply Keeps.foldl | ((conv => { arg 2; arg 34; skip }); with_reducible apply Keeps.ofMk)

theorem State.ingRestart_keeps {s t : State} (h : Keeps s t) (t' : Nat) :
    Keeps s (t.ingRestart t') := by
  unfold State.ingRestart
  repeat' first
    | with_reducible assumption | extract_lets | exact List.suffix_refl _ | exact FusesKept.refl _
    | exact Nat.le_refl _ | with_reducible exact id | with_reducible apply State.ingForget_keeps
    | ((conv => { arg 2; arg 34; skip }); with_reducible apply Keeps.ofMk)

theorem State.dropFetch_keeps {s t : State} (h : Keeps s t) (t' : Nat) :
    Keeps s (t.dropFetch t') := by
  unfold State.dropFetch
  repeat' first
    | with_reducible assumption | extract_lets | exact List.suffix_refl _ | exact FusesKept.refl _
    | exact Nat.le_refl _ | with_reducible exact id
    | ((conv => { arg 2; arg 34; skip }); with_reducible apply Keeps.ofMk)

theorem State.leaveBank_keeps {s t : State} (h : Keeps s t) (n : Nat) (t' : Nat) :
    Keeps s (t.leaveBank n t') := by
  unfold State.leaveBank
  repeat' first
    | with_reducible assumption | extract_lets | exact List.suffix_refl _ | exact FusesKept.refl _
    | exact Nat.le_refl _ | with_reducible exact id
    | ((conv => { arg 2; arg 34; skip }); with_reducible apply Keeps.ofMk)

theorem State.restartOn_keeps {s t : State} (h : Keeps s t) (t' : Nat) (old : Nat) (new : Nat) :
    Keeps s (t.restartOn t' old new) := by
  unfold State.restartOn
  repeat' first
    | with_reducible assumption | extract_lets | exact List.suffix_refl _ | exact FusesKept.refl _
    | exact Nat.le_refl _ | with_reducible exact id | with_reducible apply State.setTask_keeps
    | with_reducible apply State.leaveBank_keeps
    | ((conv => { arg 2; arg 34; skip }); with_reducible apply Keeps.ofMk) | split
    | ((with_reducible conv => { arg 2; whnf }); (conv => { arg 2; arg 34; skip }); with_reducible apply Keeps.ofMk)

theorem State.replaceTask_keeps {s t : State} (h : Keeps s t) (t' : Nat) (n : Nat) :
    Keeps s (t.replaceTask t' n) := by
  unfold State.replaceTask
  repeat' first
    | with_reducible assumption | extract_lets | exact List.suffix_refl _ | exact FusesKept.refl _
    | exact Nat.le_refl _ | with_reducible exact id | with_reducible apply State.dropFetch_keeps
    | with_reducible apply State.ingRestart_keeps | with_reducible apply State.restartOn_keeps
    | with_reducible apply State.setTask_keeps | with_reducible apply Keeps.ite
    | ((conv => { arg 2; arg 34; skip }); with_reducible apply Keeps.ofMk) | split

theorem State.reissueFrom_keeps {s t : State} (h : Keeps s t) (n : Nat) :
    Keeps s (t.reissueFrom n) := by
  unfold State.reissueFrom
  repeat' first
    | with_reducible assumption | extract_lets | intro _ | with_reducible apply State.replaceTask_keeps
    | with_reducible apply Keeps.foldl

theorem State.retryTask_keeps {s t : State} (h : Keeps s t) (t' : Nat) :
    Keeps s (t.retryTask t') := by
  unfold State.retryTask
  repeat' first
    | with_reducible assumption | extract_lets | exact List.suffix_refl _ | exact FusesKept.refl _
    | exact Nat.le_refl _ | with_reducible exact id | intro _ | with_reducible apply State.restartOn_keeps
    | with_reducible apply State.replaceTask_keeps | with_reducible apply Keeps.foldl
    | with_reducible apply Keeps.ite | split
    | ((with_reducible conv => { arg 2; whnf }); (conv => { arg 2; arg 34; skip }); with_reducible apply Keeps.ofMk)

theorem State.retryWaiting_keeps {s t : State} (h : Keeps s t) :
    Keeps s (t.retryWaiting) := by
  unfold State.retryWaiting
  repeat' first
    | with_reducible assumption | extract_lets | intro _ | with_reducible apply State.retryTask_keeps
    | with_reducible apply Keeps.foldl

theorem State.dropBanks_keeps {s t : State} (h : Keeps s t) (n : Nat) :
    Keeps s (t.dropBanks n) := by
  unfold State.dropBanks
  repeat' first
    | with_reducible assumption | extract_lets | exact List.suffix_refl _ | exact FusesKept.refl _
    | exact Nat.le_refl _ | with_reducible exact id
    | ((conv => { arg 2; arg 34; skip }); with_reducible apply Keeps.ofMk)

theorem State.refreshFlt_keeps {s t : State} (h : Keeps s t) :
    Keeps s (t.refreshFlt) := by
  unfold State.refreshFlt
  repeat' first
    | with_reducible assumption | extract_lets | exact List.suffix_refl _ | exact FusesKept.refl _
    | exact Nat.le_refl _ | with_reducible exact id
    | ((conv => { arg 2; arg 34; skip }); with_reducible apply Keeps.ofMk) | split

theorem State.bistEnd_keeps {s t : State} (h : Keeps s t) (status : Nat) (passed : Bool) (step : Nat) (recal : Nat) :
    Keeps s (t.bistEnd status passed step recal) := by
  unfold State.bistEnd
  repeat' first
    | with_reducible assumption | extract_lets | exact List.suffix_refl _ | exact FusesKept.refl _
    | exact Nat.le_refl _ | with_reducible exact id | with_reducible apply State.bump_keeps
    | ((with_reducible conv => { arg 2; whnf }); (conv => { arg 2; arg 34; skip }); with_reducible apply Keeps.ofMk)

theorem State.bistSync_keeps {s t : State} (h : Keeps s t) :
    Keeps s (t.bistSync) := by
  unfold State.bistSync
  repeat' first
    | with_reducible assumption | extract_lets | intro _ | with_reducible apply State.setUnit_keeps
    | with_reducible apply State.bistEnd_keeps | with_reducible apply Keeps.foldl | with_reducible apply Keeps.ite

theorem State.fence_keeps {s t : State} (h : Keeps s t) (u : Nat) :
    Keeps s (t.fence u) := by
  unfold State.fence
  repeat' first
    | with_reducible assumption | extract_lets | exact List.suffix_refl _ | exact FusesKept.refl _
    | exact Nat.le_refl _ | with_reducible exact id | with_reducible apply State.setUnit_keeps
    | with_reducible apply State.bistSync_keeps | with_reducible apply State.dropBanks_keeps
    | with_reducible apply State.reissueFrom_keeps | with_reducible apply State.refreshFlt_keeps
    | with_reducible apply Keeps.ite
    | ((with_reducible conv => { arg 2; whnf }); (conv => { arg 2; arg 34; skip }); with_reducible apply Keeps.ofMk)

theorem State.recovered_keeps {s t : State} (h : Keeps s t) (u : Nat) :
    Keeps s (t.recovered u) := by
  unfold State.recovered
  repeat' first
    | with_reducible assumption | extract_lets | with_reducible apply State.setUnit_keeps
    | with_reducible apply State.refreshFlt_keeps | with_reducible apply State.bump_keeps
    | with_reducible apply State.logOnly_keeps | with_reducible apply Keeps.ite

theorem State.lateVoid_keeps {s t : State} (h : Keeps s t) (u : Nat) :
    Keeps s (t.lateVoid u) := by
  unfold State.lateVoid
  repeat' first
    | with_reducible assumption | extract_lets | exact List.suffix_refl _ | exact FusesKept.refl _
    | exact Nat.le_refl _ | with_reducible exact id | with_reducible apply State.err_keeps
    | with_reducible apply Keeps.ite | ((conv => { arg 2; arg 34; skip }); with_reducible apply Keeps.ofMk) | split

theorem State.noteFault_keeps {s t : State} (h : Keeps s t) (u : Nat) (mark : Option Nat) :
    Keeps s (t.noteFault u mark) := by
  unfold State.noteFault
  repeat' first
    | with_reducible assumption | extract_lets | exact List.suffix_refl _ | exact FusesKept.refl _
    | exact Nat.le_refl _ | with_reducible exact id
    | ((conv => { arg 2; arg 34; skip }); with_reducible apply Keeps.ofMk)

theorem State.faultC1_keeps {s t : State} (h : Keeps s t) (code : Nat) (unit : Nat) (detail : Nat) (owner : Nat)
      (fl : LogFlags) :
    Keeps s (t.faultC1 code unit detail owner fl) := by
  unfold State.faultC1
  repeat' first
    | with_reducible assumption | extract_lets | intro _ | with_reducible apply State.lateVoid_keeps
    | with_reducible apply State.fence_keeps | with_reducible apply State.faultRec_keeps
    | with_reducible apply State.noteFault_keeps | with_reducible apply Keeps.foldl | with_reducible apply Keeps.ite

theorem State.portsIdle_keeps {s t : State} (h : Keeps s t) :
    Keeps s (t.portsIdle) := by
  unfold State.portsIdle
  repeat' first
    | with_reducible assumption | extract_lets | exact List.suffix_refl _ | exact FusesKept.refl _
    | exact Nat.le_refl _ | with_reducible exact id
    | ((conv => { arg 2; arg 34; skip }); with_reducible apply Keeps.ofMk)

theorem State.faultC3_keeps {s t : State} (h : Keeps s t) (code : Nat) (unit : Nat) (detail : Nat) :
    Keeps s (t.faultC3 code unit detail) := by
  unfold State.faultC3
  repeat' first
    | with_reducible assumption | extract_lets | exact List.suffix_refl _ | exact FusesKept.refl _
    | exact Nat.le_refl _ | with_reducible exact id | with_reducible apply State.startFlush_keeps
    | with_reducible apply State.portsIdle_keeps | with_reducible apply State.lateVoid_keeps
    | with_reducible apply State.faultRec_keeps | with_reducible apply State.noteFault_keeps
    | ((with_reducible conv => { arg 2; whnf }); (conv => { arg 2; arg 34; skip }); with_reducible apply Keeps.ofMk)

/-! ### Machine/MsgOps.lean -/

theorem State.setPort_keeps {s t : State} (h : Keeps s t) (p : Nat) (x : Port) :
    Keeps s (t.setPort p x) := by
  unfold State.setPort
  repeat' first
    | with_reducible assumption | extract_lets | exact List.suffix_refl _ | exact FusesKept.refl _
    | exact Nat.le_refl _ | with_reducible exact id
    | ((conv => { arg 2; arg 34; skip }); with_reducible apply Keeps.ofMk)

theorem State.gatePut_keeps {s t : State} (h : Keeps s t) (u : Nat) (e : Eff) :
    Keeps s (t.gatePut u e) := by
  unfold State.gatePut
  repeat' first
    | with_reducible assumption | extract_lets | exact List.suffix_refl _ | exact FusesKept.refl _
    | exact Nat.le_refl _ | with_reducible exact id
    | ((conv => { arg 2; arg 34; skip }); with_reducible apply Keeps.ofMk)

theorem State.gateMsg_keeps {s t : State} (h : Keeps s t) (u : Nat) (m : Msg) :
    Keeps s (t.gateMsg u m) := by
  unfold State.gateMsg
  repeat' first
    | with_reducible assumption | with_reducible apply State.gatePut_keeps

theorem State.sendOn_keeps {s t : State} (h : Keeps s t) (p : Nat) (m : Msg) :
    Keeps s (t.sendOn p m) := by
  unfold State.sendOn
  repeat' first
    | with_reducible assumption | extract_lets | with_reducible apply State.setPort_keeps
    | with_reducible apply State.emit_keeps

theorem State.gthFailReq_keeps {s t : State} (h : Keeps s t) (n : Nat) (cause : Nat) :
    Keeps s (t.gthFailReq n cause) := by
  unfold State.gthFailReq
  repeat' first
    | with_reducible assumption | extract_lets | exact List.suffix_refl _ | exact FusesKept.refl _
    | exact Nat.le_refl _ | with_reducible exact id
    | ((conv => { arg 2; arg 34; skip }); with_reducible apply Keeps.ofMk) | split

theorem State.waitMsg_keeps {s t : State} (h : Keeps s t) (u : Nat) (m : Msg) :
    Keeps s (t.waitMsg u m) := by
  unfold State.waitMsg
  repeat' first
    | with_reducible assumption | extract_lets | exact List.suffix_refl _ | exact FusesKept.refl _
    | exact Nat.le_refl _ | with_reducible exact id
    | ((conv => { arg 2; arg 34; skip }); with_reducible apply Keeps.ofMk)

theorem State.unreachMsg_keeps {s t : State} (h : Keeps s t) (m : Msg) :
    Keeps s (t.unreachMsg m) := by
  unfold State.unreachMsg
  repeat' first
    | with_reducible assumption | extract_lets | with_reducible apply State.err_keeps
    | with_reducible apply State.gthFailReq_keeps | with_reducible apply Keeps.ite

theorem State.sendMsg_keeps {s t : State} (h : Keeps s t) (u : Nat) (m : Msg) :
    Keeps s (t.sendMsg u m) := by
  unfold State.sendMsg
  repeat' first
    | with_reducible assumption | extract_lets | with_reducible apply State.sendOn_keeps
    | with_reducible apply State.unreachMsg_keeps | with_reducible apply State.waitMsg_keeps
    | with_reducible apply Keeps.ite | split

theorem State.resendCtrl_keeps {s t : State} (h : Keeps s t) (tr : List Nat) (b : List Byte) :
    Keeps s (t.resendCtrl tr b) := by
  unfold State.resendCtrl
  repeat' first
    | with_reducible assumption | extract_lets | with_reducible apply State.setPort_keeps | split

theorem State.leaveActive_keeps {s t : State} (h : Keeps s t) (p : Nat) (st : PortState) (cause : Nat) :
    Keeps s (t.leaveActive p st cause) := by
  unfold State.leaveActive
  repeat' first
    | with_reducible assumption | extract_lets | intro _ | with_reducible apply State.resendCtrl_keeps
    | with_reducible apply State.setPort_keeps | with_reducible apply Keeps.foldl

theorem State.flushWait_keeps {s t : State} (h : Keeps s t) :
    Keeps s (t.flushWait) := by
  unfold State.flushWait
  repeat' first
    | with_reducible assumption | extract_lets | exact List.suffix_refl _ | exact FusesKept.refl _
    | exact Nat.le_refl _ | with_reducible exact id | intro _ | with_reducible apply State.sendOn_keeps
    | with_reducible apply State.waitMsg_keeps | with_reducible apply Keeps.foldl
    | ((conv => { arg 2; arg 34; skip }); with_reducible apply Keeps.ofMk) | split

/-! ### Machine/ServoOps.lean -/

theorem State.servoSync_keeps {s t : State} (h : Keeps s t) (off : Int) :
    Keeps s (t.servoSync off) := by
  unfold State.servoSync
  repeat' first
    | with_reducible assumption | extract_lets | exact List.suffix_refl _ | exact FusesKept.refl _
    | exact Nat.le_refl _ | with_reducible exact id | with_reducible apply Keeps.ite
    | ((conv => { arg 2; arg 34; skip }); with_reducible apply Keeps.ofMk)
    | ((with_reducible conv => { arg 2; whnf }); (conv => { arg 2; arg 34; skip }); with_reducible apply Keeps.ofMk)

theorem State.servoHold_keeps {s t : State} (h : Keeps s t) :
    Keeps s (t.servoHold) := by
  unfold State.servoHold
  repeat' first
    | with_reducible assumption | extract_lets | exact List.suffix_refl _ | exact FusesKept.refl _
    | exact Nat.le_refl _ | with_reducible exact id | with_reducible apply Keeps.ite
    | ((conv => { arg 2; arg 34; skip }); with_reducible apply Keeps.ofMk)

theorem State.servoLost_keeps {s t : State} (h : Keeps s t) :
    Keeps s (t.servoLost) := by
  unfold State.servoLost
  repeat' first
    | with_reducible assumption | extract_lets | with_reducible apply State.servoHold_keeps
    | with_reducible apply Keeps.ite

/-! ### Machine/LinkOps.lean -/

theorem State.hostTransfersFenced_keeps {s t : State} (h : Keeps s t) :
    Keeps s (t.hostTransfersFenced) := by
  unfold State.hostTransfersFenced
  repeat' first
    | with_reducible assumption | extract_lets | exact List.suffix_refl _ | exact FusesKept.refl _
    | exact Nat.le_refl _ | with_reducible exact id | intro _ | with_reducible apply State.modTask_keeps
    | with_reducible apply State.dropStreamsOf_keeps | with_reducible apply Keeps.foldl
    | ((conv => { arg 2; arg 34; skip }); with_reducible apply Keeps.ofMk)

theorem State.hifReset_keeps {s t : State} (h : Keeps s t) (link : Bool) :
    Keeps s (t.hifReset link) := by
  unfold State.hifReset
  repeat' first
    | with_reducible assumption | extract_lets | exact List.suffix_refl _ | exact FusesKept.refl _
    | exact Nat.le_refl _ | with_reducible exact id | with_reducible apply State.hostTransfersFenced_keeps
    | with_reducible apply State.errN_keeps | with_reducible apply State.clearRegs_keeps
    | ((conv => { arg 2; arg 34; skip }); with_reducible apply Keeps.ofMk)

theorem State.ethDown_keeps {s t : State} (h : Keeps s t) (x : Nat) :
    Keeps s (t.ethDown x) := by
  unfold State.ethDown
  repeat' first
    | with_reducible assumption | extract_lets | exact List.suffix_refl _ | exact FusesKept.refl _
    | exact Nat.le_refl _ | with_reducible exact id | intro _ | with_reducible apply State.whenB_keeps
    | with_reducible apply State.servoLost_keeps
    | ((with_reducible conv => { arg 2; whnf }); (conv => { arg 2; arg 34; skip }); with_reducible apply Keeps.ofMk)

theorem State.linkTrace_keeps {s t : State} (h : Keeps s t) (p : Nat) (old : PortState) (new : PortState) (cause :
      Nat) :
    Keeps s (t.linkTrace p old new cause) := by
  unfold State.linkTrace
  repeat' first
    | with_reducible assumption | with_reducible apply State.trace_keeps

theorem State.portTo_keeps {s t : State} (h : Keeps s t) (p : Nat) (st : PortState) (cause : Nat) :
    Keeps s (t.portTo p st cause) := by
  unfold State.portTo
  repeat' first
    | with_reducible assumption | extract_lets | intro _ | with_reducible apply State.leaveActive_keeps
    | with_reducible apply State.setPort_keeps | with_reducible apply State.whenB_keeps
    | with_reducible apply State.err_keeps | with_reducible apply State.linkTrace_keeps
    | with_reducible apply Keeps.ite

theorem State.detectExit_keeps {s t : State} (h : Keeps s t) (p : Nat) :
    Keeps s (t.detectExit p) := by
  unfold State.detectExit
  repeat' first
    | with_reducible assumption | extract_lets | with_reducible apply State.portTo_keeps
    | with_reducible apply Keeps.ite

/-! ### Machine/MemOps.lean -/

theorem State.mapToDefault_keeps {s t : State} (h : Keeps s t) (r : Remap) :
    Keeps s (t.mapToDefault r) := by
  unfold State.mapToDefault
  repeat' first
    | with_reducible assumption | extract_lets | exact List.suffix_refl _ | exact FusesKept.refl _
    | exact Nat.le_refl _ | with_reducible exact id | with_reducible apply State.setBits_keeps
    | ((conv => { arg 2; arg 34; skip }); with_reducible apply Keeps.ofMk) | split

theorem State.declareRowLoss_keeps {s t : State} (h : Keeps s t) (table : Nat) (row : Nat) :
    Keeps s (t.declareRowLoss table row) := by
  unfold State.declareRowLoss
  repeat' first
    | with_reducible assumption | extract_lets | with_reducible apply State.journal_keeps
    | with_reducible apply State.logOnly_keeps | with_reducible apply State.err_keeps

theorem State.repairRow_keeps {s t : State} (h : Keeps s t) (refetch : Bool) (d : TblDesc) (v : GthVer) (table :
      Nat) (row : Nat) (addr : Nat) :
    Keeps s (t.repairRow refetch d v table row addr) := by
  unfold State.repairRow
  repeat' first
    | with_reducible assumption | extract_lets | exact List.suffix_refl _ | exact FusesKept.refl _
    | exact Nat.le_refl _ | with_reducible exact id | exact Mem.wf_congr rfl rfl | intro _
    | with_reducible apply State.gateMsg_keeps | with_reducible apply State.mapToDefault_keeps
    | with_reducible apply State.whenB_keeps | with_reducible apply State.declareRowLoss_keeps
    | with_reducible apply Keeps.ite
    | ((with_reducible conv => { arg 2; whnf }); (conv => { arg 2; arg 34; skip }); with_reducible apply Keeps.ofMk)

theorem State.setLastUe_keeps {s t : State} (h : Keeps s t) (src : Nat) (a : Nat) (o : Option MapEntry) :
    Keeps s (t.setLastUe src a o) := by
  unfold State.setLastUe
  repeat' first
    | with_reducible assumption | extract_lets | with_reducible apply State.setReg_keeps

theorem State.memCe_keeps {s t : State} (h : Keeps s t) (a : Nat) :
    Keeps s (t.memCe a) := by
  unfold State.memCe
  repeat' first
    | with_reducible assumption | extract_lets | with_reducible apply State.err_keeps
    | with_reducible apply State.faultC0_keeps

theorem State.repairOwned_keeps {s t : State} (h : Keeps s t) (line : Nat) (ov : Bool) (o : Option MapEntry) :
    Keeps s (t.repairOwned line ov o) := by
  cases o with
  | none => exact h
  | some e =>
    unfold State.repairOwned; dsimp only
    split
    · exact h
    · split
      · exact h
      · exact h.foldl _ (fun u r k => State.repairRow_keeps k _ _ _ _ _ _) _

theorem State.memUe_keeps {s t : State} (h : Keeps s t) (a : Nat) (src : Nat) (overwritten : Bool) :
    Keeps s (t.memUe a src overwritten) := by
  unfold State.memUe
  extract_lets line s1 o s2 ids s3 s4 irq
  have h1 : Keeps s s1 := by
    unfold s1; split
    · exact h
    · exact h.sameMem (fun x => Mem.setPoison_wf x _ _) rfl rfl (Nat.le_refl _) rfl rfl rfl rfl
  have h3 : Keeps s s3 := State.faultC0_keeps (State.setLastUe_keeps (State.err_keeps h1 _) _ _ _) _ _ _ _
  exact State.whenB_keeps (State.repairOwned_keeps h3 _ _ _) _ _ (fun u k => State.event_keeps k _)

theorem State.poisonWrite_keeps {s t : State} (h : Keeps s t) (a : Nat) (n : Nat) :
    Keeps s (t.poisonWrite a n) := by
  unfold State.poisonWrite
  repeat' first
    | with_reducible assumption | extract_lets | exact List.suffix_refl _ | exact FusesKept.refl _
    | exact Nat.le_refl _ | with_reducible exact id | exact fun hw => Mem.poisonLines_wf hw _ _
    | with_reducible apply State.setLastUe_keeps
    | ((conv => { arg 2; arg 34; skip }); with_reducible apply Keeps.ofMk)

end Sys2Proof.Machine
end

