-- ==== Sys2Proof/Laws/KeepsPower.lean ====
section
/-!
SUPPORT. `Keeps` for clocks, resets, staging, streams, tiles and boot:
one lemma per operation and one per meaning.
-/

namespace Sys2Proof.Machine

/-! ### Machine/Clk.lean -/

theorem State.setIsl_keeps {s t : State} (h : Keeps s t) (n : Nat) (x : Island) :
    Keeps s (t.setIsl n x) := by
  unfold State.setIsl
  repeat' first
    | with_reducible assumption | extract_lets | exact List.suffix_refl _ | exact FusesKept.refl _
    | exact Nat.le_refl _ | with_reducible exact id
    | ((conv => { arg 2; arg 34; skip }); with_reducible apply Keeps.ofMk)

theorem State.retarget_keeps {s t : State} (h : Keeps s t) (n : Nat) (t' : Nat) :
    Keeps s (t.retarget n t') := by
  unfold State.retarget
  repeat' first
    | with_reducible assumption | extract_lets | with_reducible apply State.setIsl_keeps
    | with_reducible apply Keeps.ite

theorem State.startIsland_keeps {s t : State} (h : Keeps s t) (n : Nat) :
    Keeps s (t.startIsland n) := by
  unfold State.startIsland
  repeat' first
    | with_reducible assumption | extract_lets | with_reducible apply State.setIsl_keeps

theorem State.stopIsland_keeps {s t : State} (h : Keeps s t) (n : Nat) :
    Keeps s (t.stopIsland n) := by
  unfold State.stopIsland
  repeat' first
    | with_reducible assumption | with_reducible apply State.setIsl_keeps

theorem execDemandDecision_keeps {s t : State} (h : Keeps s t) (n : Nat) (demandUs : Nat) (aboveAll : Bool)
      (idleHalf : Bool) :
    NextKeeps s (execDemandDecision n demandUs aboveAll idleHalf t) := by
  unfold execDemandDecision
  repeat' first
    | with_reducible assumption | extract_lets | with_reducible apply State.setIsl_keeps
    | with_reducible apply State.retarget_keeps | with_reducible apply NextKeeps.next
    | with_reducible apply NextKeeps.ite

theorem execFreqStep_keeps {s t : State} (h : Keeps s t) (n : Nat) :
    NextKeeps s (execFreqStep n t) := by
  unfold execFreqStep
  repeat' first
    | with_reducible assumption | extract_lets | with_reducible apply State.setIsl_keeps
    | with_reducible apply NextKeeps.next | with_reducible apply NextKeeps.ite

theorem execVoltageStep_keeps {s t : State} (h : Keeps s t) (n : Nat) :
    NextKeeps s (execVoltageStep n t) := by
  unfold execVoltageStep
  repeat' first
    | with_reducible assumption | extract_lets | with_reducible apply State.setIsl_keeps
    | with_reducible apply NextKeeps.next | with_reducible apply NextKeeps.ite

theorem execVoltageTrim_keeps {s t : State} (h : Keeps s t) (n : Nat) (slack : Int) :
    NextKeeps s (execVoltageTrim n slack t) := by
  unfold execVoltageTrim
  repeat' first
    | with_reducible assumption | extract_lets | with_reducible apply State.setIsl_keeps
    | with_reducible apply NextKeeps.next | with_reducible apply NextKeeps.ite

theorem execDroop_keeps {s t : State} (h : Keeps s t) (n : Nat) :
    NextKeeps s (execDroop n t) := by
  unfold execDroop
  repeat' first
    | with_reducible assumption | extract_lets | with_reducible apply State.setIsl_keeps
    | with_reducible apply State.bump_keeps | with_reducible apply NextKeeps.next
    | with_reducible apply NextKeeps.ite

theorem execStretchEnd_keeps {s t : State} (h : Keeps s t) (n : Nat) :
    NextKeeps s (execStretchEnd n t) := by
  unfold execStretchEnd
  repeat' first
    | with_reducible assumption | extract_lets | with_reducible apply State.setIsl_keeps
    | with_reducible apply NextKeeps.next

theorem execLimitEntry_keeps {s t : State} (h : Keeps s t) (n : Nat) :
    NextKeeps s (execLimitEntry n t) := by
  unfold execLimitEntry
  repeat' first
    | with_reducible assumption | extract_lets | intro _ | with_reducible apply State.whenB_keeps
    | with_reducible apply State.err_keeps | with_reducible apply State.setIsl_keeps
    | with_reducible apply NextKeeps.next | with_reducible apply NextKeeps.ite

theorem execLimitCeilingRise_keeps {s t : State} (h : Keeps s t) (n : Nat) :
    NextKeeps s (execLimitCeilingRise n t) := by
  unfold execLimitCeilingRise
  repeat' first
    | with_reducible assumption | extract_lets | with_reducible apply State.setIsl_keeps
    | with_reducible apply NextKeeps.next

theorem State.setLane_keeps {s t : State} (h : Keeps s t) (l : Nat) (x : Lane) :
    Keeps s (t.setLane l x) := by
  unfold State.setLane
  repeat' first
    | with_reducible assumption | extract_lets | exact List.suffix_refl _ | exact FusesKept.refl _
    | exact Nat.le_refl _ | with_reducible exact id
    | ((conv => { arg 2; arg 34; skip }); with_reducible apply Keeps.ofMk)

theorem execEqAdaptUpdate_keeps {s t : State} (h : Keeps s t) (l : Nat) (param : Nat) (up : Bool) :
    NextKeeps s (execEqAdaptUpdate l param up t) := by
  unfold execEqAdaptUpdate
  repeat' first
    | with_reducible assumption | extract_lets | with_reducible apply State.setLane_keeps
    | with_reducible apply NextKeeps.next | with_reducible apply NextKeeps.ite

theorem execShadowRecalStart_keeps {s t : State} (h : Keeps s t) (l : Nat) :
    NextKeeps s (execShadowRecalStart l t) := by
  unfold execShadowRecalStart
  repeat' first
    | with_reducible assumption | extract_lets | with_reducible apply State.setLane_keeps
    | with_reducible apply NextKeeps.next | with_reducible apply NextKeeps.ite

theorem State.recalOut_keeps {s t : State} (h : Keeps s t) (l : Nat) (o : Nat) :
    Keeps s (t.recalOut l o) := by
  unfold State.recalOut
  repeat' first
    | with_reducible assumption | extract_lets | exact List.suffix_refl _ | exact FusesKept.refl _
    | exact Nat.le_refl _ | with_reducible exact id | with_reducible apply Keeps.ite
    | ((conv => { arg 2; arg 34; skip }); with_reducible apply Keeps.ofMk)

theorem State.sliceSwap_keeps {s t : State} (h : Keeps s t) (l : Nat) (shadowEyeH : Nat) (shadowEyeW : Nat) :
    Keeps s (t.sliceSwap l shadowEyeH shadowEyeW) := by
  unfold State.sliceSwap
  repeat' first
    | with_reducible assumption | extract_lets | with_reducible apply State.setLane_keeps
    | with_reducible apply State.recalOut_keeps | with_reducible apply State.bump_keeps
    | with_reducible apply Keeps.ite

theorem execSliceSwap_keeps {s t : State} (h : Keeps s t) (l : Nat) (shadowEyeH : Nat) (shadowEyeW : Nat) :
    NextKeeps s (execSliceSwap l shadowEyeH shadowEyeW t) := by
  unfold execSliceSwap
  repeat' first
    | with_reducible assumption | extract_lets | with_reducible apply State.sliceSwap_keeps
    | with_reducible apply NextKeeps.next

theorem execLosAssert_keeps {s t : State} (h : Keeps s t) (l : Nat) :
    NextKeeps s (execLosAssert l t) := by
  unfold execLosAssert
  repeat' first
    | with_reducible assumption | extract_lets | with_reducible apply State.setLane_keeps
    | with_reducible apply State.err_keeps | with_reducible apply State.recalOut_keeps
    | with_reducible apply NextKeeps.next | with_reducible apply NextKeeps.ite

theorem execLosDeassert_keeps {s t : State} (h : Keeps s t) (l : Nat) (amp : Nat) :
    NextKeeps s (execLosDeassert l amp t) := by
  unfold execLosDeassert
  repeat' first
    | with_reducible assumption | extract_lets | with_reducible apply State.setLane_keeps
    | with_reducible apply State.detectExit_keeps | with_reducible apply NextKeeps.next
    | with_reducible apply NextKeeps.ite | with_reducible apply Keeps.ite

/-! ### Machine/PwrOps.lean -/

theorem State.laneReset_keeps {s t : State} (h : Keeps s t) (l : Nat) (signal : Bool) :
    Keeps s (t.laneReset l signal) := by
  unfold State.laneReset
  repeat' first
    | with_reducible assumption | extract_lets | with_reducible apply State.setLane_keeps

theorem State.lanesReset_keeps {s t : State} (h : Keeps s t) (signal : Bool) :
    Keeps s (t.lanesReset signal) := by
  unfold State.lanesReset
  repeat' first
    | with_reducible assumption | extract_lets | intro _ | with_reducible apply State.laneReset_keeps
    | with_reducible apply Keeps.foldl

theorem State.bayLose_keeps {s t : State} (h : Keeps s t) (n : Nat) :
    Keeps s (t.bayLose n) := by
  unfold State.bayLose
  repeat' first
    | with_reducible assumption | extract_lets | exact List.suffix_refl _ | exact FusesKept.refl _
    | exact Nat.le_refl _ | with_reducible exact id | exact fun hw => Mem.undef_wf hw _ _ _ | intro _
    | with_reducible apply State.fresh_keeps | ((conv => { arg 2; arg 34; skip }); with_reducible apply Keeps.ofMk)

theorem State.portStart_keeps {s t : State} (h : Keeps s t) (p : Nat) :
    Keeps s (t.portStart p) := by
  unfold State.portStart
  repeat' first
    | with_reducible assumption | extract_lets | with_reducible apply State.portTo_keeps
    | with_reducible apply State.detectExit_keeps | with_reducible apply Keeps.ite

theorem State.endTasksOf_keeps {s t : State} (h : Keeps s t) (d : Nat) :
    Keeps s (t.endTasksOf d) := by
  unfold State.endTasksOf
  repeat' first
    | with_reducible assumption | extract_lets | intro _ | with_reducible apply State.modTask_keeps
    | with_reducible apply State.dropStreamsOf_keeps | with_reducible apply State.dropBanks_keeps
    | with_reducible apply Keeps.foldl

theorem State.domLose_keeps {s t : State} (h : Keeps s t) (d : Nat) :
    Keeps s (t.domLose d) := by
  unfold State.domLose
  repeat' first
    | with_reducible assumption | extract_lets | exact List.suffix_refl _ | exact FusesKept.refl _
    | exact Nat.le_refl _ | with_reducible exact id | exact fun hw => Canon.tclear hw _ _ | intro _
    | with_reducible apply State.endTasksOf_keeps | with_reducible apply State.stopIsland_keeps
    | with_reducible apply State.whenB_keeps | with_reducible apply State.clearRegs_keeps
    | with_reducible apply State.bayLose_keeps | with_reducible apply State.setPort_keeps
    | with_reducible apply State.laneReset_keeps | with_reducible apply State.hifReset_keeps
    | with_reducible apply Keeps.foldl | ((conv => { arg 2; arg 34; skip }); with_reducible apply Keeps.ofMk) | split

theorem State.domGain_keeps {s t : State} (h : Keeps s t) (d : Nat) :
    Keeps s (t.domGain d) := by
  unfold State.domGain
  repeat' first
    | with_reducible assumption | extract_lets | exact List.suffix_refl _ | exact FusesKept.refl _
    | exact Nat.le_refl _ | with_reducible exact id | exact Mem.wf_congr rfl rfl | intro _
    | with_reducible apply State.startIsland_keeps | with_reducible apply State.portStart_keeps
    | with_reducible apply Keeps.foldl | with_reducible apply Keeps.ite
    | ((conv => { arg 2; arg 34; skip }); with_reducible apply Keeps.ofMk)

theorem State.domTo_keeps {s t : State} (h : Keeps s t) (d : Nat) (x : Dom) :
    Keeps s (t.domTo d x) := by
  unfold State.domTo
  repeat' first
    | with_reducible assumption | extract_lets | intro _ | with_reducible apply State.setDom_keeps
    | with_reducible apply State.whenB_keeps | with_reducible apply State.servoLost_keeps
    | with_reducible apply State.fresh_keeps | with_reducible apply State.trace_keeps
    | with_reducible apply Keeps.ite

theorem State.setDomReq_keeps {s t : State} (h : Keeps s t) (d : Nat) (b : Bool) :
    Keeps s (t.setDomReq d b) := by
  unfold State.setDomReq
  repeat' first
    | with_reducible assumption | with_reducible apply State.setReg_keeps

theorem State.moveQueued_keeps {s t : State} (h : Keeps s t) (d : Nat) :
    Keeps s (t.moveQueued d) := by
  unfold State.moveQueued
  repeat' first
    | with_reducible assumption | extract_lets | intro _ | with_reducible apply State.restartOn_keeps
    | with_reducible apply Keeps.foldl | with_reducible apply Keeps.ite | split

theorem State.beginDrain_keeps {s t : State} (h : Keeps s t) (d : Nat) :
    Keeps s (t.beginDrain d) := by
  unfold State.beginDrain
  repeat' first
    | with_reducible assumption | extract_lets | with_reducible apply State.domTo_keeps
    | with_reducible apply State.moveQueued_keeps

theorem State.refuseOff_keeps {s t : State} (h : Keeps s t) (d : Nat) :
    Keeps s (t.refuseOff d) := by
  unfold State.refuseOff
  repeat' first
    | with_reducible assumption | extract_lets | with_reducible apply State.setDomReq_keeps
    | with_reducible apply State.domTo_keeps

theorem State.offRequest_keeps {s t : State} (h : Keeps s t) (host : Bool) (d : Nat) :
    Keeps s (t.offRequest host d) := by
  unfold State.offRequest
  repeat' first
    | with_reducible assumption | extract_lets | with_reducible apply State.refuseOff_keeps
    | with_reducible apply State.domTo_keeps | with_reducible apply State.beginDrain_keeps
    | with_reducible apply Keeps.ite

theorem State.ldgReset_keeps {s t : State} (h : Keeps s t) :
    Keeps s (t.ldgReset) := by
  unfold State.ldgReset
  repeat' first
    | with_reducible assumption | extract_lets | exact List.suffix_refl _ | exact FusesKept.refl _
    | exact Nat.le_refl _ | with_reducible exact id
    | ((conv => { arg 2; arg 34; skip }); with_reducible apply Keeps.ofMk)

theorem State.flashAbort_keeps {s t : State} (h : Keeps s t) :
    Keeps s (t.flashAbort) := by
  unfold State.flashAbort
  repeat' first
    | with_reducible assumption | extract_lets | exact List.suffix_refl _ | exact FusesKept.refl _
    | exact Nat.le_refl _ | with_reducible exact id | exact fun hw => twf_tsplice hw _ _ | intro _
    | with_reducible apply State.fresh_keeps | ((conv => { arg 2; arg 34; skip }); with_reducible apply Keeps.ofMk)
    | ((with_reducible conv => { arg 2; whnf }); split)

theorem State.coldReset_keeps {s t : State} (h : Keeps s t) :
    Keeps s (t.coldReset) := by
  unfold State.coldReset
  repeat' first
    | with_reducible assumption | extract_lets | exact List.suffix_refl _ | exact FusesKept.refl _
    | exact Nat.le_add_right _ _ | with_reducible exact id | exact fun _ => Mem.cold_wf _
    | exact fun hw => Canon.filter hw _ | with_reducible apply State.flashAbort_keeps
    | ((conv => { arg 2; arg 34; skip }); with_reducible apply Keeps.ofMk)

theorem State.coldStart_keeps {s t : State} (h : Keeps s t) :
    Keeps s (t.coldStart) := by
  unfold State.coldStart
  repeat' first
    | with_reducible assumption | extract_lets | exact List.suffix_refl _ | exact FusesKept.refl _
    | exact Nat.le_refl _ | with_reducible exact id | with_reducible apply State.startIsland_keeps
    | with_reducible apply State.setDomReq_keeps | with_reducible apply State.domTo_keeps
    | ((conv => { arg 2; arg 34; skip }); with_reducible apply Keeps.ofMk)

theorem State.restartBoot_keeps {s t : State} (h : Keeps s t) :
    Keeps s (t.restartBoot) := by
  unfold State.restartBoot
  repeat' first
    | with_reducible assumption | extract_lets | exact List.suffix_refl _ | exact FusesKept.refl _
    | exact Nat.le_refl _ | with_reducible exact id
    | ((conv => { arg 2; arg 34; skip }); with_reducible apply Keeps.ofMk)

theorem State.restartIslands_keeps {s t : State} (h : Keeps s t) :
    Keeps s (t.restartIslands) := by
  unfold State.restartIslands
  repeat' first
    | with_reducible assumption | extract_lets | intro _ | with_reducible apply State.startIsland_keeps
    | with_reducible apply Keeps.foldl | with_reducible apply Keeps.ite

theorem State.warmBoot_keeps {s t : State} (h : Keeps s t) :
    Keeps s (t.warmBoot) := by
  unfold State.warmBoot
  repeat' first
    | with_reducible assumption | extract_lets | exact List.suffix_refl _ | exact FusesKept.refl _
    | exact Nat.le_refl _ | with_reducible exact id | with_reducible apply State.restartBoot_keeps
    | with_reducible apply Keeps.ite | ((conv => { arg 2; arg 34; skip }); with_reducible apply Keeps.ofMk)

theorem State.warmReset_keeps {s t : State} (h : Keeps s t) :
    Keeps s (t.warmReset) := by
  unfold State.warmReset
  extract_lets s1 gens s2 s3 p1 p2 p3 p4 p5 s4
  have h3 : Keeps s s3 := State.ldgReset_keeps (State.hostTransfersFenced_keeps (State.flushJournal_keeps h))
  clear_value s3
  refine State.warmBoot_keeps (State.restartIslands_keeps (State.lanesReset_keeps ?_ true))
  unfold s4
  refine Keeps.ofMk h3 (List.suffix_refl _) (Nat.le_refl _) (FusesKept.refl _) ?_ ?_ id id
  · exact Mem.wf_congr rfl rfl
  · exact fun x => x.filter _

theorem State.domsOff_keeps {s t : State} (h : Keeps s t) :
    Keeps s (t.domsOff) := by
  unfold State.domsOff
  repeat' first
    | with_reducible assumption | extract_lets | intro _ | with_reducible apply State.domTo_keeps
    | with_reducible apply State.domLose_keeps | with_reducible apply Keeps.foldl | with_reducible apply Keeps.ite

theorem State.bootReset_keeps {s t : State} (h : Keeps s t) :
    Keeps s (t.bootReset) := by
  unfold State.bootReset
  extract_lets gens s2 p1 s4
  have h3 : Keeps s s2 := State.ldgReset_keeps (State.domsOff_keeps h)
  clear_value s2
  refine State.startIsland_keeps (State.lanesReset_keeps (State.setDomReq_keeps ?_ 1 true) true) 25
  unfold s4
  refine Keeps.ofMk h3 (List.suffix_refl _) (Nat.le_add_right _ _) (FusesKept.refl _) ?_ ?_ id id
  · exact fun _ => Mem.cold_wf _
  · exact fun x => x.filter _

/-! ### Machine/StgOps.lean -/

theorem State.stageHalf_keeps {s t : State} (h : Keeps s t) (p : Path) (off : Nat) (v : Nat) :
    Keeps s (t.stageHalf p off v) := by
  unfold State.stageHalf
  repeat' first
    | with_reducible assumption | extract_lets | exact List.suffix_refl _ | exact FusesKept.refl _
    | exact Nat.le_refl _ | with_reducible exact id | with_reducible apply State.setBits_keeps
    | with_reducible apply Keeps.ite | ((conv => { arg 2; arg 34; skip }); with_reducible apply Keeps.ofMk)

theorem State.stgRelease_keeps {s t : State} (h : Keeps s t) :
    Keeps s (t.stgRelease) := by
  unfold State.stgRelease
  repeat' first
    | with_reducible assumption | extract_lets | exact List.suffix_refl _ | exact FusesKept.refl _
    | exact Nat.le_refl _ | with_reducible exact id
    | ((conv => { arg 2; arg 34; skip }); with_reducible apply Keeps.ofMk)

theorem State.retireGens_keeps {s t : State} (h : Keeps s t) :
    Keeps s (t.retireGens) := by
  unfold State.retireGens
  repeat' first
    | with_reducible assumption | extract_lets | exact List.suffix_refl _ | exact FusesKept.refl _
    | exact Nat.le_refl _ | with_reducible exact id
    | ((conv => { arg 2; arg 34; skip }); with_reducible apply Keeps.ofMk) | split

/-! ### Machine/StreamOps.lean -/

theorem State.countPoison_keeps {s t : State} (h : Keeps s t) (n : Nat) :
    Keeps s (t.countPoison n) := by
  unfold State.countPoison
  repeat' first
    | with_reducible assumption | extract_lets | with_reducible apply State.bump_keeps
    | with_reducible apply Keeps.ite

theorem State.wrOne_keeps {s t : State} (h : Keeps s t) (g : Option Nat) (space : Nat) (acc : Nat) (w : Wr) :
    Keeps s (t.wrOne g space acc w) := by
  unfold State.wrOne
  repeat' first
    | with_reducible assumption | extract_lets | exact List.suffix_refl _ | exact FusesKept.refl _
    | exact Nat.le_refl _ | with_reducible exact id | exact fun hw => Mem.storeP_wf hw _ _ _
    | with_reducible apply State.hostStore_keeps | with_reducible apply State.setLastUe_keeps
    | with_reducible apply Keeps.ite
    | ((with_reducible conv => { arg 2; whnf }); (conv => { arg 2; arg 34; skip }); with_reducible apply Keeps.ofMk)

theorem State.wrAll_keeps {s t : State} (h : Keeps s t) (g : Option Nat) (space acc : Nat) (l : List Wr) :
    Keeps s (t.wrAll g space acc l).1 := by
  induction l generalizing t with
  | nil => exact h
  | cons w ws ih =>
    unfold State.wrAll; split
    · exact h
    · exact ih (State.wrOne_keeps h g space acc w)

theorem State.wrEls_keeps {s t : State} (h : Keeps s t) (d : Desc) (l : List (Nat × List Byte × Bool)) (g : Option
      Nat) :
    Keeps s (t.wrEls d l g).1 := by
  unfold State.wrEls
  repeat' first
    | with_reducible assumption | extract_lets | with_reducible apply State.wrAll_keeps

theorem State.present_keeps {s t : State} (h : Keeps s t) (n : Nat) :
    Keeps s (t.present n) := by
  unfold State.present
  repeat' first
    | with_reducible assumption | extract_lets | exact List.suffix_refl _ | exact FusesKept.refl _
    | exact Nat.le_refl _ | with_reducible exact id | with_reducible apply State.bump_keeps
    | with_reducible apply Keeps.ite | ((conv => { arg 2; arg 34; skip }); with_reducible apply Keeps.ofMk) | split
    | ((with_reducible conv => { arg 2; whnf }); (conv => { arg 2; arg 34; skip }); with_reducible apply Keeps.ofMk)

theorem State.presentAll_keeps {s t : State} (h : Keeps s t) :
    Keeps s (t.presentAll) := by
  unfold State.presentAll
  repeat' first
    | with_reducible assumption | extract_lets | intro _ | with_reducible apply State.present_keeps
    | with_reducible apply Keeps.foldl

theorem State.endStreams_keeps {s t : State} (h : Keeps s t) (t' : Nat) (k : Nat) :
    Keeps s (t.endStreams t' k) := by
  unfold State.endStreams
  repeat' first
    | with_reducible assumption | extract_lets | exact List.suffix_refl _ | exact FusesKept.refl _
    | exact Nat.le_refl _ | with_reducible exact id | intro _ | with_reducible apply State.bump_keeps
    | with_reducible apply Keeps.foldl | with_reducible apply Keeps.ite
    | ((conv => { arg 2; arg 34; skip }); with_reducible apply Keeps.ofMk) | split

/-! ### Machine/TileOps.lean -/

theorem State.bayUse_keeps {s t : State} (h : Keeps s t) (n : Nat) (bufs : List (Nat × Nat)) :
    Keeps s (t.bayUse n bufs) := by
  unfold State.bayUse
  repeat' first
    | with_reducible assumption | extract_lets | exact List.suffix_refl _ | exact FusesKept.refl _
    | exact Nat.le_refl _ | with_reducible exact id | exact fun hw => Mem.undef_wf hw _ _ _ | intro _
    | with_reducible apply State.fresh_keeps | with_reducible apply Keeps.foldl
    | ((conv => { arg 2; arg 34; skip }); with_reducible apply Keeps.ofMk)

theorem State.eng_keeps {s t : State} (h : Keeps s t) (t' : Nat) (k : Nat) (kind : Nat) (op : Nat) (f : Task →
      Stage → State → State) (hf : ∀ z0 z1 u, Keeps s u → Keeps s (f z0 z1 u)) :
    Keeps s (t.eng t' k kind op f) := by
  unfold State.eng
  repeat' first
    | with_reducible assumption | extract_lets | apply hf | with_reducible apply State.bayUse_keeps
    | with_reducible apply Keeps.ite | split

theorem State.endStage_keeps {s t : State} (h : Keeps s t) (t' : Nat) (k : Nat) (r : Res) (hand : List (List Byte)) :
    Keeps s (t.endStage t' k r hand) := by
  unfold State.endStage
  repeat' first
    | with_reducible assumption | extract_lets | with_reducible apply State.modTask_keeps
    | with_reducible apply State.endStreams_keeps | with_reducible apply State.bump_keeps
    | with_reducible refine State.fresh_keeps ?_ _ (fun _ _ h => h)
    | with_reducible apply Keeps.ite | (conv => { arg 2; zeta }; split)

theorem State.wrWork_keeps {s t : State} (h : Keeps s t) (t' : Nat) (k : Nat) (w : Work) :
    Keeps s (t.wrWork t' k w).1 := by
  unfold State.wrWork
  repeat' first
    | with_reducible assumption | extract_lets | intro _ | with_reducible apply State.wrEls_keeps
    | with_reducible apply Keeps.foldlFst | with_reducible refine Keeps.ofFst (by assumption) ?_ | split

theorem State.wrWorks_keeps {s t : State} (h : Keeps s t) (x k : Nat) (l : List Work) :
    Keeps s (t.wrWorks x k l).1 := by
  induction l generalizing t with
  | nil => exact h
  | cons w ws ih =>
    unfold State.wrWorks; split
    · exact Keeps.ofFst (by assumption) (State.wrWork_keeps h x k w)
    · exact ih (Keeps.ofFst (by assumption) (State.wrWork_keeps h x k w))

theorem State.runWorks_keeps {s t : State} (h : Keeps s t) (t' : Nat) (k : Nat) (ws : List Work) :
    Keeps s (t.runWorks t' k ws).1 := by
  unfold State.runWorks
  repeat' first
    | with_reducible assumption | extract_lets | exact List.suffix_refl _ | exact FusesKept.refl _
    | exact Nat.le_add_right _ _ | with_reducible exact id | with_reducible apply State.wrWorks_keeps
    | ((conv => { arg 2; arg 34; skip }); with_reducible apply Keeps.ofMk) | split

/-! ### Machine/EthOps.lean -/

theorem State.setEthPort_keeps {s t : State} (h : Keeps s t) (x : Nat) (p : EthPort) :
    Keeps s (t.setEthPort x p) := by
  unfold State.setEthPort
  repeat' first
    | with_reducible assumption | extract_lets | exact List.suffix_refl _ | exact FusesKept.refl _
    | exact Nat.le_refl _ | with_reducible exact id
    | ((conv => { arg 2; arg 34; skip }); with_reducible apply Keeps.ofMk)

theorem State.setConn_keeps {s t : State} (h : Keeps s t) (c : Nat) (x : Conn) :
    Keeps s (t.setConn c x) := by
  unfold State.setConn
  repeat' first
    | with_reducible assumption | extract_lets | exact List.suffix_refl _ | exact FusesKept.refl _
    | exact Nat.le_refl _ | with_reducible exact id
    | ((conv => { arg 2; arg 34; skip }); with_reducible apply Keeps.ofMk)

theorem State.ethTx_keeps {s t : State} (h : Keeps s t) (x : Nat) (kind : String) (data : List Byte) :
    Keeps s (t.ethTx x kind data) := by
  unfold State.ethTx
  repeat' first
    | with_reducible assumption | extract_lets | with_reducible apply State.setEthPort_keeps
    | with_reducible apply State.emit_keeps | with_reducible apply Keeps.ite

theorem State.arpPut_keeps {s t : State} (h : Keeps s t) (x : Nat) (hop : Nat) (e : ArpEntry) :
    Keeps s (t.arpPut x hop e) := by
  unfold State.arpPut
  repeat' first
    | with_reducible assumption | extract_lets | exact List.suffix_refl _ | exact FusesKept.refl _
    | exact Nat.le_add_right _ _ | with_reducible exact id | with_reducible apply State.setEthPort_keeps
    | with_reducible apply Keeps.ite | ((conv => { arg 2; arg 34; skip }); with_reducible apply Keeps.ofMk)

theorem State.connStart_keeps {s t : State} (h : Keeps s t) (c : Nat) :
    Keeps s (t.connStart c) := by
  unfold State.connStart
  repeat' first
    | with_reducible assumption | extract_lets | with_reducible apply State.setConn_keeps
    | with_reducible apply State.ethTx_keeps | with_reducible apply State.arpPut_keeps
    | with_reducible apply Keeps.ite | split

theorem State.arpAsk_keeps {s t : State} (h : Keeps s t) (x : Nat) (hop : Nat) :
    Keeps s (t.arpAsk x hop) := by
  unfold State.arpAsk
  repeat' first
    | with_reducible assumption | with_reducible apply State.emit_keeps

theorem State.roceSend_keeps {s t : State} (h : Keeps s t) (c : Nat) (kind : String) (data : List Byte) :
    Keeps s (t.roceSend c kind data) := by
  unfold State.roceSend
  repeat' first
    | with_reducible assumption | extract_lets | with_reducible apply State.setConn_keeps
    | with_reducible apply State.ethTx_keeps

theorem State.ethDiscard_keeps {s t : State} (h : Keeps s t) (x : Nat) :
    Keeps s (t.ethDiscard x) := by
  unfold State.ethDiscard
  repeat' first
    | with_reducible assumption | with_reducible apply State.bump_keeps

/-! ### Machine/Boot.lean -/

theorem State.setResult_keeps {s t : State} (h : Keeps s t) (copy : Nat) (r : Nat) :
    Keeps s (t.setResult copy r) := by
  unfold State.setResult
  repeat' first
    | with_reducible assumption | extract_lets | exact List.suffix_refl _ | exact FusesKept.refl _
    | exact Nat.le_refl _ | with_reducible exact id
    | ((conv => { arg 2; arg 34; skip }); with_reducible apply Keeps.ofMk)

theorem State.endRetry_keeps {s t : State} (h : Keeps s t) :
    Keeps s (t.endRetry) := by
  unfold State.endRetry
  repeat' first
    | with_reducible assumption | extract_lets | exact List.suffix_refl _ | exact FusesKept.refl _
    | exact Nat.le_refl _ | with_reducible exact id | with_reducible apply Keeps.ite
    | ((conv => { arg 2; arg 34; skip }); with_reducible apply Keeps.ofMk)

theorem State.toNoImage_keeps {s t : State} (h : Keeps s t) :
    Keeps s (t.toNoImage) := by
  unfold State.toNoImage
  repeat' first
    | with_reducible assumption | extract_lets | exact List.suffix_refl _ | exact FusesKept.refl _
    | exact Nat.le_refl _ | with_reducible exact id | with_reducible apply State.endRetry_keeps
    | ((with_reducible conv => { arg 2; whnf }); (conv => { arg 2; arg 34; skip }); with_reducible apply Keeps.ofMk)

theorem State.nextCopy_keeps {s t : State} (h : Keeps s t) (copy : Nat) :
    Keeps s (t.nextCopy copy) := by
  unfold State.nextCopy
  repeat' first
    | with_reducible assumption | extract_lets | exact List.suffix_refl _ | exact FusesKept.refl _
    | exact Nat.le_refl _ | with_reducible exact id | with_reducible apply State.toNoImage_keeps
    | with_reducible apply Keeps.ite | ((conv => { arg 2; arg 34; skip }); with_reducible apply Keeps.ofMk)

theorem State.vaultTests_keeps {s t : State} (h : Keeps s t) (ok : Bool) :
    Keeps s (t.vaultTests ok) := by
  unfold State.vaultTests
  repeat' first
    | with_reducible assumption | extract_lets | exact List.suffix_refl _ | exact FusesKept.refl _
    | exact Nat.le_refl _ | with_reducible exact id | with_reducible apply State.faultC3_keeps
    | with_reducible apply State.faultC1_keeps | with_reducible apply Keeps.ite
    | ((conv => { arg 2; arg 34; skip }); with_reducible apply Keeps.ofMk)

theorem execFlashInitDone_keeps {s t : State} (h : Keeps s t) (ok : Bool) (octal : Bool) (vaultOk : Bool) (densLog2
      : Nat) :
    NextKeeps s (execFlashInitDone ok octal vaultOk densLog2 t) := by
  unfold execFlashInitDone
  repeat' first
    | with_reducible assumption | extract_lets | exact List.suffix_refl _ | exact FusesKept.refl _
    | exact Nat.le_refl _ | with_reducible exact id | intro _ | with_reducible apply State.vaultTests_keeps
    | with_reducible apply State.setResult_keeps | with_reducible apply State.whenB_keeps
    | with_reducible apply State.toNoImage_keeps | with_reducible apply NextKeeps.next
    | with_reducible apply NextKeeps.ite | ((conv => { arg 2; arg 34; skip }); with_reducible apply Keeps.ofMk)

theorem State.calApply_keeps {s t : State} (h : Keeps s t) :
    Keeps s (t.calApply) := by
  unfold State.calApply
  repeat' first
    | with_reducible assumption | extract_lets | exact List.suffix_refl _ | exact FusesKept.refl _
    | exact Nat.le_refl _ | with_reducible exact id
    | ((conv => { arg 2; arg 34; skip }); with_reducible apply Keeps.ofMk)

theorem execCalDone_keeps {s t : State} (h : Keeps s t) :
    NextKeeps s (execCalDone t) := by
  unfold execCalDone
  repeat' first
    | with_reducible assumption | extract_lets | exact List.suffix_refl _ | exact FusesKept.refl _
    | exact Nat.le_refl _ | with_reducible exact id | with_reducible apply State.calApply_keeps
    | with_reducible apply State.faultC0_keeps | with_reducible apply State.lanesReset_keeps
    | with_reducible apply State.restartIslands_keeps | with_reducible apply NextKeeps.next
    | with_reducible apply NextKeeps.ite | with_reducible apply Keeps.ite
    | ((conv => { arg 2; arg 34; skip }); with_reducible apply Keeps.ofMk)
    | ((with_reducible conv => { arg 2; whnf }); (conv => { arg 2; arg 34; skip }); with_reducible apply Keeps.ofMk)

theorem State.recFail_keeps {s t : State} (h : Keeps s t) (code : Nat) :
    Keeps s (t.recFail code) := by
  unfold State.recFail
  repeat' first
    | with_reducible assumption | extract_lets | exact List.suffix_refl _ | exact FusesKept.refl _
    | exact Nat.le_refl _ | with_reducible exact id | with_reducible apply State.setResult_keeps
    | with_reducible apply State.bootReset_keeps | with_reducible apply State.toNoImage_keeps
    | with_reducible apply State.nextCopy_keeps | with_reducible apply Keeps.ite
    | ((with_reducible conv => { arg 2; whnf }); (conv => { arg 2; arg 34; skip }); with_reducible apply Keeps.ofMk)

theorem State.settle_keeps {s t : State} (h : Keeps s t) :
    Keeps s (t.settle) := by
  unfold State.settle
  repeat' first
    | with_reducible assumption | extract_lets | with_reducible apply State.recFail_keeps
    | with_reducible apply Keeps.ite | split

theorem Vlt.accept_fuses (v : Vlt) (p : List Byte) : (v.accept p).fuses = v.fuses := by
  unfold Vlt.accept; dsimp only; split <;> rfl

theorem execVerifyDone_keeps {s t : State} (h : Keeps s t) :
    NextKeeps s (execVerifyDone t) := by
  unfold execVerifyDone
  repeat' first
    | with_reducible assumption | extract_lets | exact List.suffix_refl _ | exact Nat.le_refl _
    | with_reducible exact id | exact FusesKept.of_eq (Vlt.accept_fuses ..)
    | with_reducible apply State.setResult_keeps | with_reducible apply State.nextCopy_keeps
    | with_reducible apply State.settle_keeps | with_reducible apply NextKeeps.next
    | with_reducible apply NextKeeps.ite | ((conv => { arg 2; arg 34; skip }); with_reducible apply Keeps.ofMk)

theorem State.bootRetry_keeps {s t : State} (h : Keeps s t) :
    Keeps s (t.bootRetry) := by
  unfold State.bootRetry
  repeat' first
    | with_reducible assumption | extract_lets | with_reducible apply State.restartBoot_keeps
    | with_reducible apply Keeps.ite

theorem execBootRetry_keeps {s t : State} (h : Keeps s t) (p : Path) :
    NextKeeps s (execBootRetry p t) := by
  unfold execBootRetry
  repeat' first
    | with_reducible assumption | extract_lets | with_reducible apply State.bootRetry_keeps
    | with_reducible apply NextKeeps.next | with_reducible apply NextKeeps.ite

theorem State.setFlBuf_keeps {s t : State} (h : Keeps s t) (b : List Byte) :
    Keeps s (t.setFlBuf b) := by
  unfold State.setFlBuf
  repeat' first
    | with_reducible assumption | extract_lets | intro _ | with_reducible apply State.setReg_keeps
    | with_reducible apply Keeps.foldl

theorem State.flEnd_keeps {s t : State} (h : Keeps s t) (op : FlOp) (res : Nat) :
    Keeps s (t.flEnd op res) := by
  unfold State.flEnd
  repeat' first
    | with_reducible assumption | extract_lets | exact List.suffix_refl _ | exact FusesKept.refl _
    | exact Nat.le_refl _ | with_reducible exact id | with_reducible apply State.setReg_keeps
    | with_reducible apply Keeps.ite
    | ((with_reducible conv => { arg 2; whnf }); (conv => { arg 2; arg 34; skip }); with_reducible apply Keeps.ofMk)

theorem State.flCmd_keeps {s t : State} (h : Keeps s t) (op : FlOp) :
    Keeps s (t.flCmd op) := by
  unfold State.flCmd
  repeat' first
    | with_reducible assumption | extract_lets | exact List.suffix_refl _ | exact FusesKept.refl _
    | exact Nat.le_refl _ | with_reducible exact id | with_reducible apply State.setBits_keeps
    | with_reducible apply State.flEnd_keeps | with_reducible apply Keeps.ite
    | ((conv => { arg 2; arg 34; skip }); with_reducible apply Keeps.ofMk)

theorem execFlashRead_keeps {s t : State} (h : Keeps s t) (p : Path) :
    NextKeeps s (execFlashRead p t) := by
  unfold execFlashRead
  repeat' first
    | with_reducible assumption | extract_lets | with_reducible apply State.flCmd_keeps
    | with_reducible apply NextKeeps.next | with_reducible apply NextKeeps.ite

theorem execFlashProgram_keeps {s t : State} (h : Keeps s t) (p : Path) :
    NextKeeps s (execFlashProgram p t) := by
  unfold execFlashProgram
  repeat' first
    | with_reducible assumption | extract_lets | with_reducible apply State.flCmd_keeps
    | with_reducible apply NextKeeps.next | with_reducible apply NextKeeps.ite

theorem execFlashErase_keeps {s t : State} (h : Keeps s t) (p : Path) :
    NextKeeps s (execFlashErase p t) := by
  unfold execFlashErase
  repeat' first
    | with_reducible assumption | extract_lets | with_reducible apply State.flCmd_keeps
    | with_reducible apply NextKeeps.next | with_reducible apply NextKeeps.ite

theorem execFlashStatus_keeps {s t : State} (h : Keeps s t) (p : Path) :
    NextKeeps s (execFlashStatus p t) := by
  unfold execFlashStatus
  repeat' first
    | with_reducible assumption | extract_lets | with_reducible apply State.flCmd_keeps
    | with_reducible apply NextKeeps.next | with_reducible apply NextKeeps.ite

theorem execFlashCmdDone_keeps {s t : State} (h : Keeps s t) (status : Byte) :
    NextKeeps s (execFlashCmdDone status t) := by
  unfold execFlashCmdDone
  repeat' first
    | with_reducible assumption | extract_lets | exact List.suffix_refl _ | exact FusesKept.refl _
    | exact Nat.le_refl _ | with_reducible exact id | exact fun hw => twf_tsplice hw _ _
    | exact fun hw => twf_tclear hw _ _ | with_reducible apply State.setFlBuf_keeps
    | with_reducible apply State.flEnd_keeps | with_reducible apply NextKeeps.next
    | ((conv => { arg 2; arg 34; skip }); with_reducible apply Keeps.ofMk) | split

theorem execFlashCmdTimeout_keeps {s t : State} (h : Keeps s t) :
    NextKeeps s (execFlashCmdTimeout t) := by
  unfold execFlashCmdTimeout
  repeat' first
    | with_reducible assumption | extract_lets | with_reducible apply State.flashAbort_keeps
    | with_reducible apply State.flEnd_keeps | with_reducible apply NextKeeps.next | split

theorem execConfigRetryEnd_keeps {s t : State} (h : Keeps s t) :
    NextKeeps s (execConfigRetryEnd t) := by
  unfold execConfigRetryEnd
  repeat' first
    | with_reducible assumption | extract_lets | exact List.suffix_refl _ | exact FusesKept.refl _
    | exact Nat.le_refl _ | with_reducible exact id | with_reducible apply State.endRetry_keeps
    | with_reducible apply NextKeeps.next | with_reducible apply NextKeeps.ite
    | ((conv => { arg 2; arg 34; skip }); with_reducible apply Keeps.ofMk)

/-! ### Machine/VaultOps.lean -/

theorem State.setVpath_keeps {s t : State} (h : Keeps s t) (dbg : Bool) (v : VPath) :
    Keeps s (t.setVpath dbg v) := by
  unfold State.setVpath
  repeat' first
    | with_reducible assumption | extract_lets | exact List.suffix_refl _ | exact FusesKept.refl _
    | exact Nat.le_refl _ | with_reducible exact id
    | ((conv => { arg 2; arg 34; skip }); with_reducible apply Keeps.ofMk) | split

theorem State.mbxGo_keeps {s t : State} (h : Keeps s t) (dbg : Bool) :
    Keeps s (t.mbxGo dbg) := by
  unfold State.mbxGo
  repeat' first
    | with_reducible assumption | extract_lets | exact List.suffix_refl _ | exact FusesKept.refl _
    | exact Nat.le_refl _ | with_reducible exact id | with_reducible apply State.setVpath_keeps
    | with_reducible apply Keeps.ite | ((conv => { arg 2; arg 34; skip }); with_reducible apply Keeps.ofMk)

theorem State.mbxRespond_keeps {s t : State} (h : Keeps s t) (dbg : Bool) (status : Nat) (payload : List Byte) :
    Keeps s (t.mbxRespond dbg status payload) := by
  unfold State.mbxRespond
  repeat' first
    | with_reducible assumption | extract_lets | exact List.suffix_refl _ | exact FusesKept.refl _
    | exact Nat.le_refl _ | with_reducible exact id | intro _ | with_reducible apply State.setReg_keeps
    | with_reducible apply State.setVpath_keeps | with_reducible apply State.event_keeps
    | with_reducible apply Keeps.foldl | with_reducible apply Keeps.ite
    | ((with_reducible conv => { arg 2; whnf }); (conv => { arg 2; arg 34; skip }); with_reducible apply Keeps.ofMk)

theorem State.serve_keeps {s t : State} (h : Keeps s t) (dbg : Bool) (c : Nat) (need : Need) (f : State → State)
      (hf : ∀ u, Keeps s u → Keeps s (f u)) :
    Keeps s (t.serve dbg c need f) := by
  unfold State.serve
  repeat' first
    | with_reducible assumption | extract_lets | apply hf | with_reducible apply State.mbxRespond_keeps
    | with_reducible apply Keeps.ite

theorem State.draw_keeps {s t : State} (h : Keeps s t) (n : Nat) (f : List Byte → State → State) (hf : ∀ z0 u,
      Keeps s u → Keeps s (f z0 u)) :
    Keeps s (t.draw n f) := by
  unfold State.draw
  repeat' first
    | with_reducible assumption | extract_lets | apply hf | exact List.suffix_refl _ | exact FusesKept.refl _
    | exact Nat.le_refl _ | exact Nat.le_add_right _ _ | with_reducible exact id
    | ((conv => { arg 2; arg 34; skip }); with_reducible apply Keeps.ofMk)

theorem State.vaultError_keeps {s t : State} (h : Keeps s t) :
    Keeps s (t.vaultError) := by
  unfold State.vaultError
  repeat' first
    | with_reducible assumption | extract_lets | exact List.suffix_refl _ | exact FusesKept.refl _
    | exact Nat.le_refl _ | with_reducible exact id | with_reducible apply State.faultC1_keeps
    | with_reducible apply Keeps.ite | ((conv => { arg 2; arg 34; skip }); with_reducible apply Keeps.ofMk)

end Sys2Proof.Machine
end

