-- ==== Sys2Proof/Laws/KeepsUnits.lean ====
section
/-!
SUPPORT. `Keeps` for ingest, the media engines, the fabric ports and gathering:
one lemma per operation and one per meaning.
-/

namespace Sys2Proof.Machine

/-! ### Machine/IngOps.lean -/

theorem State.hostAsk_keeps {s t : State} (h : Keeps s t) (a : Nat) (n : Nat) (x : HostRead) :
    Keeps s (t.hostAsk a n x) := by
  unfold State.hostAsk
  repeat' first
    | with_reducible assumption | extract_lets | exact List.suffix_refl _ | exact FusesKept.refl _
    | exact Nat.le_refl _ | with_reducible exact id | intro _ | with_reducible apply State.emit_keeps
    | with_reducible apply Keeps.foldl | ((conv => { arg 2; arg 34; skip }); with_reducible apply Keeps.ofMk)

theorem State.setRec_keeps {s t : State} (h : Keeps s t) (r : IngRec) :
    Keeps s (t.setRec r) := by
  unfold State.setRec
  repeat' first
    | with_reducible assumption | extract_lets | exact List.suffix_refl _ | exact FusesKept.refl _
    | exact Nat.le_refl _ | with_reducible exact id
    | ((conv => { arg 2; arg 34; skip }); with_reducible apply Keeps.ofMk)

theorem State.sendReads_keeps {s t : State} (h : Keeps s t) (r : IngRec) :
    Keeps s (t.sendReads r) := by
  unfold State.sendReads
  repeat' first
    | with_reducible assumption | extract_lets | exact List.suffix_refl _ | exact FusesKept.refl _
    | exact Nat.le_refl _ | with_reducible exact id | intro _ | with_reducible apply State.setConn_keeps
    | with_reducible apply State.setRec_keeps | with_reducible apply State.roceSend_keeps
    | with_reducible apply Keeps.foldl | ((conv => { arg 2; arg 34; skip }); with_reducible apply Keeps.ofMk) | split

theorem State.planReads_keeps {s t : State} (h : Keeps s t) (r : IngRec) :
    Keeps s (t.planReads r).1 := by
  unfold State.planReads
  repeat' first
    | with_reducible assumption | extract_lets | with_reducible apply State.sendReads_keeps
    | with_reducible apply State.setRec_keeps | split

theorem State.askSource_keeps {s t : State} (h : Keeps s t) (r : IngRec) :
    Keeps s (t.askSource r).1 := by
  unfold State.askSource
  repeat' first
    | with_reducible assumption | extract_lets | intro _ | with_reducible apply State.setRec_keeps
    | with_reducible apply State.hostAsk_keeps | with_reducible apply State.connStart_keeps
    | with_reducible apply State.planReads_keeps | with_reducible apply Keeps.foldl | split

theorem State.pinKey_keeps {s t u : State} (h : Keeps s t) {inst : Nat} {m : List Byte} {p : Option (Nat × Nat)}
    (e : t.pinKey inst m = .ok (u, p)) : Keeps s u := by
  unfold State.pinKey at e
  have hb := State.bump_keeps h (bVLT + 0x48) 1
  repeat' first
    | contradiction
    | split at e
    | extract_lets at e
  all_goals (injection e with e; injection e with e _; subst e)
  · exact h.same rfl rfl rfl rfl rfl rfl rfl rfl
  · exact hb.same rfl rfl rfl rfl rfl rfl rfl rfl
  · exact hb.same rfl rfl rfl rfl rfl rfl rfl rfl
  · exact hb

theorem State.recKey_keeps {s t : State} (h : Keeps s t) (r : IngRec) :
    Keeps s (t.recKey r).1 := by
  unfold State.recKey
  split
  · exact State.askSource_keeps h _
  split
  · exact State.setRec_keeps h _
  · exact State.setRec_keeps (State.pinKey_keeps h ‹_›) _
  · exact State.askSource_keeps (State.pinKey_keeps h ‹_›) _

theorem State.recStart_keeps {s t : State} (h : Keeps s t) (g : Nat) (r : IngRec) :
    Keeps s (t.recStart g r).1 := by
  unfold State.recStart
  repeat' first
    | with_reducible assumption | extract_lets | with_reducible apply State.ccRead_keeps
    | with_reducible apply State.recKey_keeps | with_reducible apply Keeps.ite | split

theorem State.recCount_keeps {s t : State} (h : Keeps s t) (st : Nat) :
    Keeps s (t.recCount st) := by
  unfold State.recCount
  repeat' first
    | with_reducible assumption | extract_lets | with_reducible apply State.err_keeps
    | with_reducible apply Keeps.ite

theorem State.ringReturn_keeps {s t : State} (h : Keeps s t) (p : Nat) (es : List (List Byte)) (taken : Nat) :
    Keeps s (t.ringReturn p es taken) := by
  unfold State.ringReturn
  repeat' first
    | with_reducible assumption | extract_lets | exact List.suffix_refl _ | exact FusesKept.refl _
    | exact Nat.le_refl _ | with_reducible exact id | intro _ | with_reducible apply State.store_keeps
    | with_reducible apply Keeps.foldl | ((conv => { arg 2; arg 34; skip }); with_reducible apply Keeps.ofMk)

theorem State.ingFail_keeps {s t : State} (h : Keeps s t) (t' : Nat) (bad : List (Nat × Nat)) :
    Keeps s (t.ingFail t' bad) := by
  unfold State.ingFail
  repeat' first
    | with_reducible assumption | extract_lets | exact List.suffix_refl _ | exact FusesKept.refl _
    | exact Nat.le_refl _ | with_reducible exact id | intro _ | with_reducible apply State.recCount_keeps
    | with_reducible apply State.ingForget_keeps | with_reducible apply State.ringReturn_keeps
    | with_reducible apply State.bump_keeps | with_reducible apply State.endStage_keeps
    | with_reducible apply Keeps.foldl | split
    | ((with_reducible conv => { arg 2; whnf }); (conv => { arg 2; arg 34; skip }); with_reducible apply Keeps.ofMk)
    | ((with_reducible conv => { arg 2; whnf }); split)

theorem State.recsDo_keeps {s t : State} (h : Keeps s t) (rs : List IngRec) (f : State → IngRec → State × Option
      Nat) (hf : ∀ u z1, Keeps s u → Keeps s (f u z1).1) :
    Keeps s (t.recsDo rs f).1 := by
  unfold State.recsDo
  apply Keeps.foldlFst
  · exact h
  · intro u a x k
    have hx := hf u x k
    simp only
    split <;> exact hx

theorem State.failAllOf_keeps {s t : State} (h : Keeps s t) (bad : List (Nat × Nat × Nat)) :
    Keeps s (t.failAllOf bad) := by
  unfold State.failAllOf
  repeat' first
    | with_reducible assumption | extract_lets | intro _ | with_reducible apply State.ingFail_keeps
    | with_reducible apply Keeps.foldl

theorem State.keyRetry_keeps {s t : State} (h : Keeps s t) (inst : Nat) :
    Keeps s (t.keyRetry inst) := by
  unfold State.keyRetry
  repeat' first
    | with_reducible assumption | extract_lets | intro _ | with_reducible apply State.recsDo_keeps
    | with_reducible apply State.recKey_keeps | with_reducible apply State.failAllOf_keeps

theorem State.pumpReads_keeps {s t : State} (h : Keeps s t) (tgt : Nat) :
    Keeps s (t.pumpReads tgt) := by
  unfold State.pumpReads
  repeat' first
    | with_reducible assumption | extract_lets | intro _ | with_reducible apply State.recsDo_keeps
    | with_reducible apply State.planReads_keeps | with_reducible apply State.failAllOf_keeps

theorem State.tgtLost_keeps {s t : State} (h : Keeps s t) (tgt : Nat) :
    Keeps s (t.tgtLost tgt) := by
  unfold State.tgtLost
  repeat' first
    | with_reducible assumption | extract_lets | with_reducible apply State.failAllOf_keeps
    | with_reducible apply Keeps.ite

theorem State.ingTiles_keeps {s t : State} (h : Keeps s t) (t' : Nat) (i : Nat) :
    Keeps s (t.ingTiles t' i) := by
  unfold State.ingTiles
  repeat' first
    | with_reducible assumption | extract_lets | with_reducible apply State.runWorks_keeps
    | with_reducible apply State.endStage_keeps | with_reducible apply Keeps.ite
    | with_reducible refine Keeps.ofFst (by assumption) ?_ | split

theorem State.ingTaskEnd_keeps {s t : State} (h : Keeps s t) (t' : Nat) :
    Keeps s (t.ingTaskEnd t') := by
  unfold State.ingTaskEnd
  repeat' first
    | with_reducible assumption | extract_lets | exact List.suffix_refl _ | exact FusesKept.refl _
    | exact Nat.le_refl _ | with_reducible exact id | with_reducible apply State.ingForget_keeps
    | with_reducible apply State.ringReturn_keeps | split
    | ((with_reducible conv => { arg 2; whnf }); (conv => { arg 2; arg 34; skip }); with_reducible apply Keeps.ofMk)

/-! ### Machine/Ing.lean -/

theorem State.ringTake_keeps {s t : State} (h : Keeps s t) (t' : Nat) (inst : Nat) (p : Nat) (n : Nat) :
    Keeps s (t.ringTake t' inst p n) := by
  unfold State.ringTake
  repeat' first
    | with_reducible assumption | extract_lets | exact List.suffix_refl _ | exact FusesKept.refl _
    | exact Nat.le_refl _ | with_reducible exact id
    | ((conv => { arg 2; arg 34; skip }); with_reducible apply Keeps.ofMk)

theorem State.startRecs_keeps {s t : State} (h : Keeps s t) (t' : Nat) (inst : Nat) (g : Nat) :
    Keeps s (t.startRecs t' inst g) := by
  unfold State.startRecs
  repeat' first
    | with_reducible assumption | extract_lets | intro _ | with_reducible apply State.recsDo_keeps
    | with_reducible apply State.recStart_keeps | with_reducible apply State.failAllOf_keeps

theorem execFetch_keeps {s t : State} (h : Keeps s t) (t' : Nat) (k : Nat) :
    NextKeeps s (execFetch t' k t) := by
  unfold execFetch
  repeat' first
    | with_reducible assumption | extract_lets | intro _ | with_reducible apply State.eng_keeps
    | with_reducible apply State.startRecs_keeps | with_reducible apply State.endStage_keeps
    | with_reducible apply State.modTask_keeps | with_reducible apply State.ringTake_keeps
    | with_reducible apply NextKeeps.next | with_reducible apply Keeps.ite

theorem execFetchWaitExpiry_keeps {s t : State} (h : Keeps s t) (t' : Nat) :
    NextKeeps s (execFetchWaitExpiry t' t) := by
  unfold execFetchWaitExpiry
  repeat' first
    | with_reducible assumption | extract_lets | with_reducible apply State.modTask_keeps
    | with_reducible apply NextKeeps.next

theorem execRecordDone_keeps {s t : State} (h : Keeps s t) (t' : Nat) (i : Nat) (data : List Byte) :
    NextKeeps s (execRecordDone t' i data t) := by
  unfold execRecordDone
  repeat' first
    | with_reducible assumption | extract_lets | exact List.suffix_refl _ | exact FusesKept.refl _
    | exact Nat.le_refl _ | with_reducible exact id | intro _ | with_reducible apply State.whenB_keeps
    | with_reducible apply State.countPoison_keeps | with_reducible apply State.ingFail_keeps
    | with_reducible apply State.bump_keeps | with_reducible apply State.keyRetry_keeps
    | with_reducible apply State.unpinKey_keeps | with_reducible apply State.setRec_keeps
    | with_reducible apply State.ingTiles_keeps | with_reducible apply NextKeeps.next
    | with_reducible apply NextKeeps.ite | with_reducible apply Keeps.ite
    | ((conv => { arg 2; arg 34; skip }); with_reducible apply Keeps.ofMk) | split

theorem execHostFetchTimeout_keeps {s t : State} (h : Keeps s t) (t' : Nat) (i : Nat) :
    NextKeeps s (execHostFetchTimeout t' i t) := by
  unfold execHostFetchTimeout
  repeat' first
    | with_reducible assumption | extract_lets | with_reducible apply State.ingFail_keeps
    | with_reducible apply State.keyRetry_keeps | with_reducible apply NextKeeps.next
    | with_reducible apply NextKeeps.ite | split

theorem execNvmeConnect_keeps {s t : State} (h : Keeps s t) (tgt : Nat) (port : Nat) (ok : Bool) (ns : List (Nat ×
      Nat)) :
    NextKeeps s (execNvmeConnect tgt port ok ns t) := by
  unfold execNvmeConnect
  repeat' first
    | with_reducible assumption | extract_lets | with_reducible apply State.setConn_keeps
    | with_reducible apply State.pumpReads_keeps | with_reducible apply State.tgtLost_keeps
    | with_reducible apply NextKeeps.next | with_reducible apply NextKeeps.ite

theorem execNvmeResponse_keeps {s t : State} (h : Keeps s t) (tgt : Nat) (port : Nat) (cid : Nat) (status : Nat) :
    NextKeeps s (execNvmeResponse tgt port cid status t) := by
  unfold execNvmeResponse
  repeat' first
    | with_reducible assumption | extract_lets | with_reducible apply State.setConn_keeps
    | with_reducible apply State.pumpReads_keeps | with_reducible apply State.ingFail_keeps
    | with_reducible apply State.keyRetry_keeps | with_reducible apply State.setRec_keeps
    | with_reducible apply NextKeeps.next | with_reducible apply NextKeeps.ite | split

theorem execFabricCmdTimeout_keeps {s t : State} (h : Keeps s t) (tgt : Nat) (port : Nat) (cid : Nat) :
    NextKeeps s (execFabricCmdTimeout tgt port cid t) := by
  unfold execFabricCmdTimeout
  repeat' first
    | with_reducible assumption | extract_lets | with_reducible apply State.setConn_keeps
    | with_reducible apply State.ingFail_keeps | with_reducible apply State.keyRetry_keeps
    | with_reducible apply NextKeeps.next | with_reducible apply NextKeeps.ite | split

theorem execQuarantineReconnect_keeps {s t : State} (h : Keeps s t) (tgt : Nat) (port : Nat) (cid : Nat) :
    NextKeeps s (execQuarantineReconnect tgt port cid t) := by
  unfold execQuarantineReconnect
  repeat' first
    | with_reducible assumption | extract_lets | with_reducible apply State.setConn_keeps
    | with_reducible apply State.bump_keeps | with_reducible apply State.connStart_keeps
    | with_reducible apply NextKeeps.next | with_reducible apply NextKeeps.ite | split

theorem execKeepAlive_keeps {s t : State} (h : Keeps s t) (tgt : Nat) :
    NextKeeps s (execKeepAlive tgt t) := by
  unfold execKeepAlive
  repeat' first
    | with_reducible assumption | extract_lets | intro _ | with_reducible apply State.roceSend_keeps
    | with_reducible apply NextKeeps.next | with_reducible apply Keeps.foldl | with_reducible apply Keeps.ite

/-! ### Machine/Dec.lean -/

theorem State.decCount_keeps {s t : State} (h : Keeps s t) (bay : Nat) (d : DecOut) :
    Keeps s (t.decCount bay d) := by
  unfold State.decCount
  repeat' first
    | with_reducible assumption | extract_lets | intro _ | with_reducible apply State.err_keeps
    | with_reducible apply State.bump_keeps | with_reducible apply State.whenB_keeps | with_reducible apply Keeps.ite

theorem State.workUsed_keeps {s t : State} (h : Keeps s t) (wk : Desc) (l : List (Nat × Nat)) :
    Keeps s (t.workUsed wk l) := by
  unfold State.workUsed
  repeat' first
    | with_reducible assumption | extract_lets | intro _ | with_reducible apply State.fresh_keeps
    | with_reducible apply State.wrAll_keeps | with_reducible apply Keeps.foldl | with_reducible apply Keeps.ite

theorem State.decRun_keeps {s t : State} (h : Keeps s t) (video : Bool) (t' : Nat) (k : Nat) (x : Task) (g : Stage) :
    Keeps s (t.decRun video t' k x g) := by
  unfold State.decRun
  repeat' first
    | with_reducible assumption | extract_lets | intro _ | with_reducible apply State.countPoison_keeps
    | with_reducible apply State.runWorks_keeps | with_reducible apply State.workUsed_keeps
    | with_reducible apply State.endStage_keeps | with_reducible apply State.decCount_keeps
    | with_reducible apply Keeps.foldl | with_reducible refine Keeps.ofFst (by assumption) ?_ | split

theorem execDecodeImage_keeps {s t : State} (h : Keeps s t) (t' : Nat) (k : Nat) :
    NextKeeps s (execDecodeImage t' k t) := by
  unfold execDecodeImage
  repeat' first
    | with_reducible assumption | extract_lets | intro _ | with_reducible apply State.eng_keeps
    | with_reducible apply State.decRun_keeps | with_reducible apply NextKeeps.next

theorem execDecodeVideo_keeps {s t : State} (h : Keeps s t) (t' : Nat) (k : Nat) :
    NextKeeps s (execDecodeVideo t' k t) := by
  unfold execDecodeVideo
  repeat' first
    | with_reducible assumption | extract_lets | intro _ | with_reducible apply State.eng_keeps
    | with_reducible apply State.decRun_keeps | with_reducible apply NextKeeps.next

/-! ### Machine/Lex.lean -/

theorem State.lexCount_keeps {s t : State} (h : Keeps s t) (bay : Nat) (r : LexRes) (o : Outcome) :
    Keeps s (t.lexCount bay r o) := by
  unfold State.lexCount
  repeat' first
    | with_reducible assumption | extract_lets | intro _ | with_reducible apply State.bump_keeps
    | with_reducible apply State.err_keeps | with_reducible apply State.whenB_keeps | with_reducible apply Keeps.ite

theorem State.lexRun_keeps {s t : State} (h : Keeps s t) (t' : Nat) (k : Nat) (x : Task) (g : Stage) :
    Keeps s (t.lexRun t' k x g) := by
  unfold State.lexRun
  repeat' first
    | with_reducible assumption | extract_lets | intro _ | with_reducible apply State.whenB_keeps
    | with_reducible apply State.err_keeps | with_reducible apply State.endStage_keeps
    | with_reducible apply State.countPoison_keeps | with_reducible apply State.runWorks_keeps
    | with_reducible apply State.lexCount_keeps | with_reducible apply State.fresh_keeps
    | with_reducible apply State.bump_keeps | with_reducible apply Keeps.foldl
    | with_reducible refine Keeps.ofFst (by assumption) ?_ | split

theorem execTokenize_keeps {s t : State} (h : Keeps s t) (t' : Nat) (k : Nat) :
    NextKeeps s (execTokenize t' k t) := by
  unfold execTokenize
  repeat' first
    | with_reducible assumption | extract_lets | intro _ | with_reducible apply State.eng_keeps
    | with_reducible apply State.lexRun_keeps | with_reducible apply NextKeeps.next

/-! ### Machine/Grt.lean -/

theorem State.grtRun_keeps {s t : State} (h : Keeps s t) (t' : Nat) (k : Nat) (x : Task) (g : Stage) :
    Keeps s (t.grtRun t' k x g) := by
  unfold State.grtRun
  repeat' first
    | with_reducible assumption | extract_lets | intro _ | with_reducible apply State.countPoison_keeps
    | with_reducible apply State.runWorks_keeps | with_reducible apply State.endStage_keeps
    | with_reducible apply State.bump_keeps | with_reducible apply State.fresh_keeps
    | with_reducible apply State.errN_keeps | with_reducible refine Keeps.ofFst (by assumption) ?_ | split

theorem execTransform_keeps {s t : State} (h : Keeps s t) (t' : Nat) (k : Nat) :
    NextKeeps s (execTransform t' k t) := by
  unfold execTransform
  repeat' first
    | with_reducible assumption | extract_lets | intro _ | with_reducible apply State.eng_keeps
    | with_reducible apply State.grtRun_keeps | with_reducible apply NextKeeps.next

/-! ### Machine/Ory.lean -/

theorem State.oryRun_keeps {s t : State} (h : Keeps s t) (op : Nat) (t' : Nat) (k : Nat) (x : Task) (g : Stage) :
    Keeps s (t.oryRun op t' k x g) := by
  unfold State.oryRun
  repeat' first
    | with_reducible assumption | extract_lets | intro _ | with_reducible apply State.countPoison_keeps
    | with_reducible apply State.endStage_keeps | with_reducible apply State.runWorks_keeps
    | with_reducible apply State.bump_keeps | with_reducible apply State.fresh_keeps
    | with_reducible apply State.errN_keeps | with_reducible apply Keeps.ite
    | with_reducible refine Keeps.ofFst (by assumption) ?_ | split

theorem execMatmul_keeps {s t : State} (h : Keeps s t) (t' : Nat) (k : Nat) :
    NextKeeps s (execMatmul t' k t) := by
  unfold execMatmul
  repeat' first
    | with_reducible assumption | extract_lets | intro _ | with_reducible apply State.eng_keeps
    | with_reducible apply State.oryRun_keeps | with_reducible apply NextKeeps.next

theorem execVqSearch_keeps {s t : State} (h : Keeps s t) (t' : Nat) (k : Nat) :
    NextKeeps s (execVqSearch t' k t) := by
  unfold execVqSearch
  repeat' first
    | with_reducible assumption | extract_lets | intro _ | with_reducible apply State.eng_keeps
    | with_reducible apply State.oryRun_keeps | with_reducible apply NextKeeps.next

theorem execRowop_keeps {s t : State} (h : Keeps s t) (t' : Nat) (k : Nat) :
    NextKeeps s (execRowop t' k t) := by
  unfold execRowop
  repeat' first
    | with_reducible assumption | extract_lets | intro _ | with_reducible apply State.eng_keeps
    | with_reducible apply State.oryRun_keeps | with_reducible apply NextKeeps.next

/-! ### Machine/GthOps.lean -/

theorem State.rowReadAt_keeps {s t : State} (h : Keeps s t) (d : TblDesc) (table : Nat) (v : Nat) (i : Nat) (slot :
      Nat) (base : Nat) :
    Keeps s (t.rowReadAt d table v i slot base).1 := by
  unfold State.rowReadAt
  repeat' first
    | with_reducible assumption | extract_lets | with_reducible apply State.countPoison_keeps | split

theorem State.rowRead_keeps {s t : State} (h : Keeps s t) (d : TblDesc) (table : Nat) (v : Nat) (i : Nat) (slot :
      Nat) :
    Keeps s (t.rowRead d table v i slot).1 := by
  unfold State.rowRead
  repeat' first
    | with_reducible assumption | with_reducible apply State.rowReadAt_keeps | split

theorem State.hotDrop_keeps {s t : State} (h : Keeps s t) (d : TblDesc) (i : Nat) (w : Nat) :
    Keeps s (t.hotDrop d i w) := by
  unfold State.hotDrop
  repeat' first
    | with_reducible assumption | with_reducible apply State.store_keeps

theorem State.hotRead_keeps {s t : State} (h : Keeps s t) (d : TblDesc) (v : Nat) (i : Nat) :
    Keeps s (t.hotRead d v i).1 := by
  unfold State.hotRead
  repeat' first
    | with_reducible assumption | extract_lets | with_reducible apply State.countPoison_keeps
    | with_reducible apply State.hotDrop_keeps | split

theorem State.hotPlace_keeps {s t : State} (h : Keeps s t) (d : TblDesc) (inst : Nat) (v : Nat) (i : Nat) (row :
      List Byte) (pre : Bool) :
    Keeps s (t.hotPlace d inst v i row pre).1 := by
  unfold State.hotPlace
  repeat' first
    | with_reducible assumption | extract_lets | with_reducible apply State.hotDrop_keeps
    | with_reducible apply State.store_keeps | with_reducible apply State.bump_keeps | split

theorem State.heatAdd_keeps {s t : State} (h : Keeps s t) (table : Nat) (i : Nat) :
    Keeps s (t.heatAdd table i) := by
  unfold State.heatAdd
  repeat' first
    | with_reducible assumption | extract_lets | exact List.suffix_refl _ | exact FusesKept.refl _
    | exact Nat.le_refl _ | with_reducible exact id
    | ((conv => { arg 2; arg 34; skip }); with_reducible apply Keeps.ofMk)

theorem State.hotFetched_keeps {s t : State} (h : Keeps s t) (d : TblDesc) (inst : Nat) (table : Nat) (v : Nat) (i
      : Nat) (row : List Byte) (pre : Bool) :
    Keeps s (t.hotFetched d inst table v i row pre) := by
  unfold State.hotFetched
  repeat' first
    | with_reducible assumption | extract_lets | with_reducible apply State.hotPlace_keeps
    | with_reducible apply State.bump_keeps | with_reducible apply Keeps.ite

theorem State.gthSend_keeps {s t : State} (h : Keeps s t) (inst : Nat) (r : GthReq) (idx : List Nat) (wts : List
      Nat) :
    Keeps s (t.gthSend inst r idx wts) := by
  unfold State.gthSend
  repeat' first
    | with_reducible assumption | extract_lets | exact List.suffix_refl _ | exact FusesKept.refl _
    | exact Nat.le_refl _ | with_reducible exact id | with_reducible apply State.gateMsg_keeps | split
    | ((with_reducible conv => { arg 2; whnf }); (conv => { arg 2; arg 34; skip }); with_reducible apply Keeps.ofMk)

/-! ### Machine/NglOps.lean -/

theorem State.sendFlit_keeps {s t : State} (h : Keeps s t) (p : Nat) (kind : Nat) (vc : Nat) (seq : Nat) (nak :
      Nat) (payload : List Byte) :
    Keeps s (t.sendFlit p kind vc seq nak payload) := by
  unfold State.sendFlit
  repeat' first
    | with_reducible assumption | extract_lets | with_reducible apply State.emit_keeps

theorem State.sendData_keeps {s t : State} (h : Keeps s t) (p : Nat) (v : Nat) :
    Keeps s (t.sendData p v) := by
  unfold State.sendData
  repeat' first
    | with_reducible assumption | extract_lets | with_reducible apply State.sendFlit_keeps
    | with_reducible apply State.bump_keeps | with_reducible apply State.setPort_keeps

theorem State.startReplay_keeps {s t : State} (h : Keeps s t) (p : Nat) (i : Nat) :
    Keeps s (t.startReplay p i) := by
  unfold State.startReplay
  repeat' first
    | with_reducible assumption | extract_lets | with_reducible apply State.setPort_keeps
    | with_reducible apply State.bump_keeps

theorem State.trainTo_keeps {s t : State} (h : Keeps s t) (p : Nat) (st : PortState) (sub : Nat) :
    Keeps s (t.trainTo p st sub) := by
  unfold State.trainTo
  repeat' first
    | with_reducible assumption | extract_lets | with_reducible apply State.setPort_keeps
    | with_reducible apply State.portTo_keeps | with_reducible apply Keeps.ite

theorem State.toRetrain_keeps {s t : State} (h : Keeps s t) (p : Nat) (cause : Nat) (code : Nat) :
    Keeps s (t.toRetrain p cause code) := by
  unfold State.toRetrain
  repeat' first
    | with_reducible assumption | extract_lets | with_reducible apply State.portTo_keeps
    | with_reducible apply State.err_keeps | with_reducible apply State.setPort_keeps
    | with_reducible apply State.faultC1_keeps

theorem State.toActive_keeps {s t : State} (h : Keeps s t) (p : Nat) (adv : List Nat) :
    Keeps s (t.toActive p adv) := by
  unfold State.toActive
  repeat' first
    | with_reducible assumption | extract_lets | with_reducible apply State.setPort_keeps
    | with_reducible apply State.portTo_keeps | with_reducible apply State.recovered_keeps
    | with_reducible apply State.flushWait_keeps | with_reducible apply Keeps.ite

/-! ### Machine/Ngl.lean -/

theorem execPmdTrainDone_keeps {s t : State} (h : Keeps s t) (p : Nat) :
    NextKeeps s (execPmdTrainDone p t) := by
  unfold execPmdTrainDone
  repeat' first
    | with_reducible assumption | extract_lets | with_reducible apply State.portTo_keeps
    | with_reducible apply NextKeeps.next | with_reducible apply NextKeeps.ite

theorem execFecLockDone_keeps {s t : State} (h : Keeps s t) (p : Nat) :
    NextKeeps s (execFecLockDone p t) := by
  unfold execFecLockDone
  repeat' first
    | with_reducible assumption | extract_lets | with_reducible apply State.trainTo_keeps
    | with_reducible apply NextKeeps.next | with_reducible apply NextKeeps.ite

theorem execFlitSyncDone_keeps {s t : State} (h : Keeps s t) (p : Nat) :
    NextKeeps s (execFlitSyncDone p t) := by
  unfold execFlitSyncDone
  repeat' first
    | with_reducible assumption | extract_lets | with_reducible apply State.trainTo_keeps
    | with_reducible apply NextKeeps.next | with_reducible apply NextKeeps.ite

theorem State.paramRefuse_keeps {s t : State} (h : Keeps s t) (p : Nat) :
    Keeps s (t.paramRefuse p) := by
  unfold State.paramRefuse
  repeat' first
    | with_reducible assumption | extract_lets | with_reducible apply State.portTo_keeps
    | with_reducible apply State.detectExit_keeps

theorem execInitFlit_keeps {s t : State} (h : Keeps s t) (p : Nat) (version : Nat) (kind : Nat) (port : Nat) (id :
      Nat) (count : Nat) (adv : List Nat) (seen : Bool) (ack : Option Nat) (cum : List Nat) :
    NextKeeps s (execInitFlit p version kind port id count adv seen ack cum t) := by
  unfold execInitFlit
  repeat' first
    | with_reducible assumption | extract_lets | with_reducible apply State.setPort_keeps
    | with_reducible apply State.paramRefuse_keeps | with_reducible apply State.toActive_keeps
    | with_reducible apply NextKeeps.next | with_reducible apply NextKeeps.ite

theorem execTrainingTimeout_keeps {s t : State} (h : Keeps s t) (p : Nat) :
    NextKeeps s (execTrainingTimeout p t) := by
  unfold execTrainingTimeout
  repeat' first
    | with_reducible assumption | extract_lets | with_reducible apply State.portTo_keeps
    | with_reducible apply State.detectExit_keeps | with_reducible apply NextKeeps.next
    | with_reducible apply NextKeeps.ite

theorem execRetrainAttemptTimeout_keeps {s t : State} (h : Keeps s t) (p : Nat) :
    NextKeeps s (execRetrainAttemptTimeout p t) := by
  unfold execRetrainAttemptTimeout
  repeat' first
    | with_reducible assumption | extract_lets | with_reducible apply State.portTo_keeps
    | with_reducible apply State.detectExit_keeps | with_reducible apply State.setPort_keeps
    | with_reducible apply NextKeeps.next | with_reducible apply NextKeeps.ite

theorem State.paramSlot_keeps {s t : State} (h : Keeps s t) (p : Nat) :
    Keeps s (t.paramSlot p) := by
  unfold State.paramSlot
  repeat' first
    | with_reducible assumption | extract_lets | with_reducible apply State.setPort_keeps
    | with_reducible apply State.sendFlit_keeps | with_reducible apply State.toActive_keeps
    | with_reducible apply Keeps.ite

theorem State.replaySlot_keeps {s t : State} (h : Keeps s t) (p : Nat) (i : Nat) :
    Keeps s (t.replaySlot p i) := by
  unfold State.replaySlot
  repeat' first
    | with_reducible assumption | extract_lets | with_reducible apply State.setPort_keeps
    | with_reducible apply State.toRetrain_keeps | with_reducible apply State.sendFlit_keeps
    | with_reducible apply State.bump_keeps | with_reducible apply Keeps.ite | split

theorem execFlitSlotTx_keeps {s t : State} (h : Keeps s t) (p : Nat) :
    NextKeeps s (execFlitSlotTx p t) := by
  unfold execFlitSlotTx
  repeat' first
    | with_reducible assumption | extract_lets | with_reducible apply State.paramSlot_keeps
    | with_reducible apply State.sendFlit_keeps | with_reducible apply State.setPort_keeps
    | with_reducible apply State.bump_keeps | with_reducible apply State.replaySlot_keeps
    | with_reducible apply State.sendData_keeps | with_reducible apply NextKeeps.next
    | with_reducible apply NextKeeps.ite | split

theorem execDataFlitRx_keeps {s t : State} (h : Keeps s t) (p : Nat) (vc : Nat) (seq : Nat) (payload : List Byte)
      (ack : Option Nat) (cum : List Nat) :
    NextKeeps s (execDataFlitRx p vc seq payload ack cum t) := by
  unfold execDataFlitRx
  repeat' first
    | with_reducible assumption | extract_lets | with_reducible apply State.setPort_keeps
    | with_reducible apply State.bump_keeps | with_reducible apply NextKeeps.next
    | with_reducible apply NextKeeps.ite

theorem execBadFlit_keeps {s t : State} (h : Keeps s t) (p : Nat) :
    NextKeeps s (execBadFlit p t) := by
  unfold execBadFlit
  repeat' first
    | with_reducible assumption | extract_lets | with_reducible apply State.setPort_keeps
    | with_reducible apply State.err_keeps | with_reducible apply NextKeeps.next | with_reducible apply NextKeeps.ite

theorem execNakRepeat_keeps {s t : State} (h : Keeps s t) (p : Nat) :
    NextKeeps s (execNakRepeat p t) := by
  unfold execNakRepeat
  repeat' first
    | with_reducible assumption | extract_lets | with_reducible apply State.setPort_keeps
    | with_reducible apply NextKeeps.next | with_reducible apply NextKeeps.ite

theorem execNakRx_keeps {s t : State} (h : Keeps s t) (p : Nat) (nak : Nat) (ack : Option Nat) (cum : List Nat) :
    NextKeeps s (execNakRx p nak ack cum t) := by
  unfold execNakRx
  repeat' first
    | with_reducible assumption | extract_lets | with_reducible apply State.setPort_keeps
    | with_reducible apply State.startReplay_keeps | with_reducible apply NextKeeps.next
    | with_reducible apply NextKeeps.ite | split

theorem execReplayTimer_keeps {s t : State} (h : Keeps s t) (p : Nat) :
    NextKeeps s (execReplayTimer p t) := by
  unfold execReplayTimer
  repeat' first
    | with_reducible assumption | extract_lets | with_reducible apply State.startReplay_keeps
    | with_reducible apply NextKeeps.next | with_reducible apply NextKeeps.ite

theorem execRetryExhausted_keeps {s t : State} (h : Keeps s t) (p : Nat) :
    NextKeeps s (execRetryExhausted p t) := by
  unfold execRetryExhausted
  repeat' first
    | with_reducible assumption | extract_lets | with_reducible apply State.toRetrain_keeps
    | with_reducible apply NextKeeps.next | with_reducible apply NextKeeps.ite

theorem execIdleFlitRx_keeps {s t : State} (h : Keeps s t) (p : Nat) (ack : Option Nat) (cum : List Nat) :
    NextKeeps s (execIdleFlitRx p ack cum t) := by
  unfold execIdleFlitRx
  repeat' first
    | with_reducible assumption | extract_lets | with_reducible apply State.setPort_keeps
    | with_reducible apply NextKeeps.next | with_reducible apply NextKeeps.ite

theorem execFecWarn_keeps {s t : State} (h : Keeps s t) (p : Nat) (uncorrectable : Nat) :
    NextKeeps s (execFecWarn p uncorrectable t) := by
  unfold execFecWarn
  repeat' first
    | with_reducible assumption | extract_lets | with_reducible apply State.faultC0_keeps
    | with_reducible apply NextKeeps.next | with_reducible apply NextKeeps.ite

theorem State.msgDiscard_keeps {s t : State} (h : Keeps s t) (p : Nat) :
    Keeps s (t.msgDiscard p) := by
  unfold State.msgDiscard
  repeat' first
    | with_reducible assumption | with_reducible apply State.err_keeps

theorem execMessageRx_keeps {s t : State} (h : Keeps s t) (p : Nat) (v : Nat) :
    NextKeeps s (execMessageRx p v t) := by
  unfold execMessageRx
  repeat' first
    | with_reducible assumption | extract_lets | exact List.suffix_refl _ | exact FusesKept.refl _
    | exact Nat.le_refl _ | with_reducible exact id | with_reducible apply State.toRetrain_keeps
    | with_reducible apply State.setPort_keeps | with_reducible apply State.msgDiscard_keeps
    | with_reducible apply NextKeeps.next | with_reducible apply NextKeeps.ite
    | ((conv => { arg 2; arg 34; skip }); with_reducible apply Keeps.ofMk)

theorem execUnreachTimeout_keeps {s t : State} (h : Keeps s t) (toEp : Bool) (d : Nat) :
    NextKeeps s (execUnreachTimeout toEp d t) := by
  unfold execUnreachTimeout
  repeat' first
    | with_reducible assumption | extract_lets | exact List.suffix_refl _ | exact FusesKept.refl _
    | exact Nat.le_refl _ | with_reducible exact id | intro _ | with_reducible apply State.unreachMsg_keeps
    | with_reducible apply NextKeeps.next | with_reducible apply NextKeeps.ite | with_reducible apply Keeps.foldl
    | ((with_reducible conv => { arg 2; whnf }); (conv => { arg 2; arg 34; skip }); with_reducible apply Keeps.ofMk)

theorem State.popMsg_keeps {s t : State} (h : Keeps s t) (m : RxMsg) :
    Keeps s (t.popMsg m) := by
  unfold State.popMsg
  repeat' first
    | with_reducible assumption | extract_lets | exact List.suffix_refl _ | exact FusesKept.refl _
    | exact Nat.le_refl _ | with_reducible exact id
    | ((conv => { arg 2; arg 34; skip }); with_reducible apply Keeps.ofMk)

theorem execEchoReq_keeps {s t : State} (h : Keeps s t) :
    NextKeeps s (execEchoReq t) := by
  unfold execEchoReq
  repeat' first
    | with_reducible assumption | extract_lets | with_reducible apply State.popMsg_keeps
    | with_reducible apply State.gateMsg_keeps | with_reducible apply NextKeeps.next | split

/-! ### Machine/Gth.lean -/

theorem GthRun.look_keeps {s t : State} (h : Keeps s t) (w : GthRun) (f : Fetch) (p : Nat) (i : Nat) (home : Nat)
      (slot : Nat) :
    Keeps s (GthRun.look w t f p i home slot).1 := by
  unfold GthRun.look
  repeat' first
    | with_reducible assumption | extract_lets | intro _ | with_reducible apply State.whenB_keeps
    | with_reducible apply State.heatAdd_keeps | with_reducible apply State.hotRead_keeps
    | with_reducible apply State.rowRead_keeps | with_reducible apply State.hotFetched_keeps
    | with_reducible refine Keeps.ofFst (by assumption) ?_ | split

theorem GthRun.ask_keeps {s t : State} (h : Keeps s t) (w : GthRun) (f : Fetch) (bag : Nat) (home : Nat) (miss :
      List Nat) :
    Keeps s (GthRun.ask w t f bag home miss).1 := by
  unfold GthRun.ask
  repeat' first
    | with_reducible assumption | extract_lets | intro _ | with_reducible apply State.gthSend_keeps
    | with_reducible apply Keeps.foldl | split

theorem GthRun.finish_keeps {s t : State} (h : Keeps s t) (w : GthRun) (f : Fetch) (x : Task) (g : Stage) :
    Keeps s (GthRun.finish w t f x g) := by
  unfold GthRun.finish
  repeat' first
    | with_reducible assumption | extract_lets | exact List.suffix_refl _ | exact FusesKept.refl _
    | exact Nat.le_add_right _ _ | with_reducible exact id | with_reducible apply State.countPoison_keeps
    | with_reducible apply State.runWorks_keeps | with_reducible apply State.bump_keeps
    | with_reducible apply State.errN_keeps | with_reducible apply State.endStage_keeps
    | with_reducible apply Keeps.ite | with_reducible refine Keeps.ofFst (by assumption) ?_ | split
    | ((with_reducible conv => { arg 2; whnf }); (conv => { arg 2; arg 34; skip }); with_reducible apply Keeps.ofMk)

theorem GthRun.bag_keeps {s : State} (w : GthRun) {r : State × Fetch} (h : Keeps s r.1) (n : Nat) :
    Keeps s (w.bag r n).1 := by
  unfold GthRun.bag
  extract_lets out todo
  split
  rename_i s2 f2 m2 heq
  have h2 : Keeps s s2 := by
    refine Keeps.ofFst heq (Keeps.foldlFst (p := (r.1, r.2, [])) h _ (fun u a p k => ?_) todo)
    obtain ⟨f, m⟩ := a
    dsimp only
    split
    all_goals first
      | exact k
      | exact Keeps.ofFst rfl (GthRun.look_keeps k ..)
  exact Keeps.foldlFst h2 _ (fun u a i k => GthRun.ask_keeps k ..) _

theorem State.gthRun_keeps {s t : State} (h : Keeps s t) (op : Nat) (t' : Nat) (k : Nat) (x : Task) (g : Stage) :
    Keeps s (t.gthRun op t' k x g) := by
  unfold State.gthRun
  repeat' first
    | with_reducible assumption | extract_lets | exact List.suffix_refl _ | exact FusesKept.refl _
    | exact Nat.le_refl _ | with_reducible exact id | intro _ | with_reducible apply GthRun.bag_keeps
    | with_reducible apply GthRun.finish_keeps | with_reducible apply Keeps.foldlFst | with_reducible apply Keeps.ite
    | ((conv => { arg 2; arg 34; skip }); with_reducible apply Keeps.ofMk)

theorem execGather_keeps {s t : State} (h : Keeps s t) (t' : Nat) (k : Nat) :
    NextKeeps s (execGather t' k t) := by
  unfold execGather
  repeat' first
    | with_reducible assumption | extract_lets | intro _ | with_reducible apply State.eng_keeps
    | with_reducible apply State.gthRun_keeps | with_reducible apply NextKeeps.next

theorem execPool_keeps {s t : State} (h : Keeps s t) (t' : Nat) (k : Nat) :
    NextKeeps s (execPool t' k t) := by
  unfold execPool
  repeat' first
    | with_reducible assumption | extract_lets | intro _ | with_reducible apply State.eng_keeps
    | with_reducible apply State.gthRun_keeps | with_reducible apply NextKeeps.next

theorem execPrefetch_keeps {s t : State} (h : Keeps s t) (t' : Nat) (k : Nat) :
    NextKeeps s (execPrefetch t' k t) := by
  unfold execPrefetch
  repeat' first
    | with_reducible assumption | extract_lets | intro _ | with_reducible apply State.eng_keeps
    | with_reducible apply State.gthRun_keeps | with_reducible apply NextKeeps.next

theorem execGatherReq_keeps {s t : State} (h : Keeps s t) :
    NextKeeps s (execGatherReq t) := by
  unfold execGatherReq
  repeat' first
    | with_reducible assumption | extract_lets | with_reducible apply State.popMsg_keeps
    | with_reducible apply State.bump_keeps | with_reducible apply State.gateMsg_keeps
    | with_reducible apply NextKeeps.next | with_reducible apply NextKeeps.ite | split

theorem State.lateRsp_keeps {s t : State} (h : Keeps s t) (id : Nat) :
    Keeps s (t.lateRsp id) := by
  unfold State.lateRsp
  repeat' first
    | with_reducible assumption | with_reducible apply State.bump_keeps

theorem State.slotDone_keeps {s t : State} (h : Keeps s t) (k : Nat) :
    Keeps s (t.slotDone k) := by
  unfold State.slotDone
  repeat' first
    | with_reducible assumption | extract_lets | exact List.suffix_refl _ | exact FusesKept.refl _
    | exact Nat.le_refl _ | with_reducible exact id
    | ((conv => { arg 2; arg 34; skip }); with_reducible apply Keeps.ofMk)

theorem State.modFetch_keeps {s t : State} (h : Keeps s t) (r : GthReq) (h' : Fetch → Fetch) :
    Keeps s (t.modFetch r h') := by
  unfold State.modFetch
  repeat' first
    | with_reducible assumption | extract_lets | exact List.suffix_refl _ | exact FusesKept.refl _
    | exact Nat.le_refl _ | with_reducible exact id
    | ((conv => { arg 2; arg 34; skip }); with_reducible apply Keeps.ofMk)

theorem execGatherRsp_keeps {s t : State} (h : Keeps s t) :
    NextKeeps s (execGatherRsp t) := by
  unfold execGatherRsp
  repeat' first
    | with_reducible assumption | extract_lets | intro _ | with_reducible apply State.popMsg_keeps
    | with_reducible apply State.lateRsp_keeps | with_reducible apply State.slotDone_keeps
    | with_reducible apply State.modFetch_keeps | with_reducible apply State.hotFetched_keeps
    | with_reducible apply NextKeeps.next | with_reducible apply Keeps.foldl | with_reducible apply Keeps.ite | split

theorem execPooledSum_keeps {s t : State} (h : Keeps s t) :
    NextKeeps s (execPooledSum t) := by
  unfold execPooledSum
  repeat' first
    | with_reducible assumption | extract_lets | with_reducible apply State.popMsg_keeps
    | with_reducible apply State.lateRsp_keeps | with_reducible apply State.slotDone_keeps
    | with_reducible apply State.modFetch_keeps | with_reducible apply NextKeeps.next | split

theorem execRemoteTimeout_keeps {s t : State} (h : Keeps s t) (n : Nat) :
    NextKeeps s (execRemoteTimeout n t) := by
  unfold execRemoteTimeout
  repeat' first
    | with_reducible assumption | extract_lets | exact List.suffix_refl _ | exact FusesKept.refl _
    | exact Nat.le_refl _ | with_reducible exact id | with_reducible apply State.gthFailReq_keeps
    | with_reducible apply NextKeeps.next | with_reducible apply NextKeeps.ite
    | ((conv => { arg 2; arg 34; skip }); with_reducible apply Keeps.ofMk)

theorem execReadSlotRelease_keeps {s t : State} (h : Keeps s t) (n : Nat) :
    NextKeeps s (execReadSlotRelease n t) := by
  unfold execReadSlotRelease
  repeat' first
    | with_reducible assumption | extract_lets | exact List.suffix_refl _ | exact FusesKept.refl _
    | exact Nat.le_refl _ | with_reducible exact id | with_reducible apply NextKeeps.next
    | ((conv => { arg 2; arg 34; skip }); with_reducible apply Keeps.ofMk)

theorem execRepairWaitTimeout_keeps {s t : State} (h : Keeps s t) (t' : Nat) (k : Nat) :
    NextKeeps s (execRepairWaitTimeout t' k t) := by
  unfold execRepairWaitTimeout
  repeat' first
    | with_reducible assumption | extract_lets | exact List.suffix_refl _ | exact FusesKept.refl _
    | exact Nat.le_refl _ | with_reducible exact id | with_reducible apply NextKeeps.next
    | ((conv => { arg 2; arg 34; skip }); with_reducible apply Keeps.ofMk)

theorem execHeatWindowEnd_keeps {s t : State} (h : Keeps s t) :
    NextKeeps s (execHeatWindowEnd t) := by
  unfold execHeatWindowEnd
  repeat' first
    | with_reducible assumption | extract_lets | exact List.suffix_refl _ | exact FusesKept.refl _
    | exact Nat.le_refl _ | with_reducible exact id | with_reducible apply NextKeeps.next
    | ((conv => { arg 2; arg 34; skip }); with_reducible apply Keeps.ofMk)

theorem execVersionSlotFree_keeps {s t : State} (h : Keeps s t) (t' : Nat) (v : Nat) :
    NextKeeps s (execVersionSlotFree t' v t) := by
  unfold execVersionSlotFree
  repeat' first
    | with_reducible assumption | extract_lets | exact List.suffix_refl _ | exact FusesKept.refl _
    | exact Nat.le_refl _ | with_reducible exact id | with_reducible apply NextKeeps.next
    | with_reducible apply NextKeeps.ite | ((conv => { arg 2; arg 34; skip }); with_reducible apply Keeps.ofMk)

end Sys2Proof.Machine
end

