-- ==== Sys2Proof/Laws/KeepsFabric.lean ====
section
/-!
SUPPORT. `Keeps` for the Ledger, packing, the domain, sampling, sensors and exchange:
one lemma per operation and one per meaning.
-/

namespace Sys2Proof.Machine

/-! ### Machine/LdgOps.lean -/

theorem State.leavePin_keeps {s t : State} (h : Keeps s t) (p : Nat) :
    Keeps s (t.leavePin p) := by
  unfold State.leavePin
  repeat' first
    | with_reducible assumption | extract_lets | exact List.suffix_refl _ | exact FusesKept.refl _
    | exact Nat.le_refl _ | with_reducible exact id | with_reducible apply Keeps.ite
    | ((conv => { arg 2; arg 34; skip }); with_reducible apply Keeps.ofMk)
    | ((with_reducible conv => { arg 2; whnf }); (conv => { arg 2; arg 34; skip }); with_reducible apply Keeps.ofMk)

theorem State.newPin_keeps {s t : State} (h : Keeps s t) (p : Nat) :
    Keeps s (t.newPin p) := by
  unfold State.newPin
  repeat' first
    | with_reducible assumption | extract_lets | exact List.suffix_refl _ | exact FusesKept.refl _
    | exact Nat.le_refl _ | with_reducible exact id | with_reducible apply State.leavePin_keeps
    | with_reducible apply Keeps.ite | ((conv => { arg 2; arg 34; skip }); with_reducible apply Keeps.ofMk) | split

theorem State.batchTrace_keeps {s t : State} (h : Keeps s t) (id : Nat) (event : Nat) (dsn : Nat) :
    Keeps s (t.batchTrace id event dsn) := by
  unfold State.batchTrace
  repeat' first
    | with_reducible assumption | with_reducible apply State.trace_keeps

theorem State.ldgDelivered_keeps {s t : State} (h : Keeps s t) (e : Nat) (dsn : Nat) :
    Keeps s (t.ldgDelivered e dsn) := by
  unfold State.ldgDelivered
  repeat' first
    | with_reducible assumption | extract_lets | exact List.suffix_refl _ | exact FusesKept.refl _
    | exact Nat.le_refl _ | with_reducible exact id | intro _ | with_reducible apply State.journal_keeps
    | with_reducible apply State.batchTrace_keeps | with_reducible apply State.freeCtx_keeps
    | with_reducible apply Keeps.foldl | ((conv => { arg 2; arg 34; skip }); with_reducible apply Keeps.ofMk) | split

theorem State.ldgUndelivered_keeps {s t : State} (h : Keeps s t) (e : Nat) (dsn : Nat) :
    Keeps s (t.ldgUndelivered e dsn) := by
  unfold State.ldgUndelivered
  repeat' first
    | with_reducible assumption | extract_lets | with_reducible apply State.journal_keeps
    | with_reducible apply State.batchTrace_keeps | split

/-! ### Machine/PakOps.lean -/

theorem State.setPakPipe_keeps {s t : State} (h : Keeps s t) (p : Nat) (x : PakPipe) :
    Keeps s (t.setPakPipe p x) := by
  unfold State.setPakPipe
  repeat' first
    | with_reducible assumption | extract_lets | exact List.suffix_refl _ | exact FusesKept.refl _
    | exact Nat.le_refl _ | with_reducible exact id
    | ((conv => { arg 2; arg 34; skip }); with_reducible apply Keeps.ofMk)

theorem State.setPakBatch_keeps {s t : State} (h : Keeps s t) (e : Nat) (x : Option PakBatch) :
    Keeps s (t.setPakBatch e x) := by
  unfold State.setPakBatch
  repeat' first
    | with_reducible assumption | extract_lets | exact List.suffix_refl _ | exact FusesKept.refl _
    | exact Nat.le_refl _ | with_reducible exact id
    | ((conv => { arg 2; arg 34; skip }); with_reducible apply Keeps.ofMk)

theorem State.setPakDest_keeps {s t : State} (h : Keeps s t) (k : Nat) (x : Dest) :
    Keeps s (t.setPakDest k x) := by
  unfold State.setPakDest
  repeat' first
    | with_reducible assumption | extract_lets | exact List.suffix_refl _ | exact FusesKept.refl _
    | exact Nat.le_refl _ | with_reducible exact id
    | ((conv => { arg 2; arg 34; skip }); with_reducible apply Keeps.ofMk)

theorem State.setBuf_keeps {s t : State} (h : Keeps s t) (k : Nat) (b : PakBuf) :
    Keeps s (t.setBuf k b) := by
  unfold State.setBuf
  repeat' first
    | with_reducible assumption | extract_lets | exact List.suffix_refl _ | exact FusesKept.refl _
    | exact Nat.le_refl _ | with_reducible exact id
    | ((conv => { arg 2; arg 34; skip }); with_reducible apply Keeps.ofMk)

theorem State.takeBuf_keeps {s t : State} (h : Keeps s t) (p : Nat) (e : Nat) :
    Keeps s (t.takeBuf p e) := by
  unfold State.takeBuf
  repeat' first
    | with_reducible assumption | extract_lets | intro _ | with_reducible apply State.setBuf_keeps
    | with_reducible apply State.store_keeps | with_reducible apply Keeps.foldl | split

theorem State.dropBuf_keeps {s t : State} (h : Keeps s t) (p : Nat) (e : Nat) :
    Keeps s (t.dropBuf p e) := by
  unfold State.dropBuf
  repeat' first
    | with_reducible assumption | with_reducible apply State.setBuf_keeps | split

theorem State.pakTaskEnd_keeps {s t : State} (h : Keeps s t) (t' : Nat) :
    Keeps s (t.pakTaskEnd t') := by
  unfold State.pakTaskEnd
  repeat' first
    | with_reducible assumption | extract_lets | intro _ | with_reducible apply State.setBuf_keeps
    | with_reducible apply Keeps.foldl | with_reducible apply Keeps.ite | split

theorem State.pakAssign_keeps {s t : State} (h : Keeps s t) :
    Keeps s (t.pakAssign) := by
  unfold State.pakAssign
  repeat' first
    | with_reducible assumption | extract_lets | intro _ | with_reducible apply State.setPakBatch_keeps
    | with_reducible apply Keeps.foldl | with_reducible apply Keeps.ite | split

theorem State.declareLoss_keeps {s t : State} (h : Keeps s t) (p : Nat) (key : Nat) (bay : Nat) :
    Keeps s (t.declareLoss p key bay) := by
  unfold State.declareLoss
  repeat' first
    | with_reducible assumption | extract_lets | with_reducible apply State.journal_keeps
    | with_reducible apply State.logOnly_keeps | with_reducible apply State.err_keeps

theorem State.offerReport_keeps {s t : State} (h : Keeps s t) (b : PakBatch) (dsn : Nat) (status : Nat) :
    Keeps s (t.offerReport b dsn status) := by
  unfold State.offerReport
  repeat' first
    | with_reducible assumption | extract_lets | exact List.suffix_refl _ | exact FusesKept.refl _
    | exact Nat.le_refl _ | with_reducible exact id | with_reducible apply State.store_keeps
    | with_reducible apply Keeps.ite
    | ((with_reducible conv => { arg 2; whnf }); (conv => { arg 2; arg 34; skip }); with_reducible apply Keeps.ofMk)

theorem State.purge_keeps {s t : State} (h : Keeps s t) (hit : Nat × Nat × Nat → Nat → Bool) :
    Keeps s (t.purge hit) := by
  unfold State.purge
  repeat' first
    | with_reducible assumption | extract_lets | exact List.suffix_refl _ | exact FusesKept.refl _
    | exact Nat.le_refl _ | with_reducible exact id
    | ((conv => { arg 2; arg 34; skip }); with_reducible apply Keeps.ofMk)

theorem State.sendLoss_keeps {s t : State} (h : Keeps s t) (b : PakBatch) (bay : Nat) :
    Keeps s (t.sendLoss b bay) := by
  unfold State.sendLoss
  repeat' first
    | with_reducible assumption | extract_lets | intro _ | with_reducible apply State.declareLoss_keeps
    | with_reducible apply Keeps.foldl | with_reducible apply Keeps.ite

theorem State.pushOffer_keeps {s t : State} (h : Keeps s t) (k : Nat) :
    Keeps s (t.pushOffer k) := by
  unfold State.pushOffer
  repeat' first
    | with_reducible assumption | extract_lets | intro _ | with_reducible apply State.setPakDest_keeps
    | with_reducible apply State.sendLoss_keeps | with_reducible apply State.bump_keeps
    | with_reducible apply State.hostStore_keeps | with_reducible apply State.sendMsg_keeps
    | with_reducible apply State.gateMsg_keeps | with_reducible apply Keeps.foldl | with_reducible apply Keeps.ite
    | split

theorem State.endOffer_keeps {s t : State} (h : Keeps s t) (k : Nat) (timeout : Bool) :
    Keeps s (t.endOffer k timeout) := by
  unfold State.endOffer
  repeat' first
    | with_reducible assumption | extract_lets | intro _ | with_reducible apply State.setPakDest_keeps
    | with_reducible apply State.purge_keeps | with_reducible apply State.ldgUndelivered_keeps
    | with_reducible apply State.offerReport_keeps | with_reducible apply State.bump_keeps
    | with_reducible apply State.whenB_keeps | with_reducible apply State.err_keeps | split

theorem State.endOffers_keeps {s t : State} (h : Keeps s t) (which : Option Nat) :
    Keeps s (t.endOffers which) := by
  unfold State.endOffers
  repeat' first
    | with_reducible assumption | extract_lets | intro _ | with_reducible apply State.endOffer_keeps
    | with_reducible apply Keeps.foldl | with_reducible apply Keeps.ite | split

theorem State.pakLeave_keeps {s t : State} (h : Keeps s t) (n : Nat) :
    Keeps s (t.pakLeave n) := by
  unfold State.pakLeave
  repeat' first
    | with_reducible assumption | extract_lets | exact List.suffix_refl _ | exact FusesKept.refl _
    | exact Nat.le_refl _ | with_reducible exact id | with_reducible apply State.endOffers_keeps
    | with_reducible apply State.pakAssign_keeps
    | ((with_reducible conv => { arg 2; whnf }); (conv => { arg 2; arg 34; skip }); with_reducible apply Keeps.ofMk)

theorem State.pakSync_keeps {s t : State} (h : Keeps s t) :
    Keeps s (t.pakSync) := by
  unfold State.pakSync
  repeat' first
    | with_reducible assumption | extract_lets | intro _ | with_reducible apply State.pakLeave_keeps
    | with_reducible apply Keeps.foldl | with_reducible apply Keeps.ite

theorem State.delivered_keeps {s t : State} (h : Keeps s t) (k : Nat) :
    Keeps s (t.delivered k) := by
  unfold State.delivered
  repeat' first
    | with_reducible assumption | extract_lets | with_reducible apply State.setPakDest_keeps
    | with_reducible apply State.bump_keeps | with_reducible apply State.offerReport_keeps
    | with_reducible apply State.setPakBatch_keeps | with_reducible apply State.dropBuf_keeps
    | with_reducible apply State.ldgDelivered_keeps | split

/-! ### Machine/FabOps.lean -/

theorem State.setDomn_keeps {s t : State} (h : Keeps s t) (d : Domn) :
    Keeps s (t.setDomn d) := by
  unfold State.setDomn
  repeat' first
    | with_reducible assumption | extract_lets | exact List.suffix_refl _ | exact FusesKept.refl _
    | exact Nat.le_refl _ | with_reducible exact id
    | ((conv => { arg 2; arg 34; skip }); with_reducible apply Keeps.ofMk)

theorem State.domSet_keeps {s t : State} (h : Keeps s t) (st : DomRole) :
    Keeps s (t.domSet st) := by
  unfold State.domSet
  repeat' first
    | with_reducible assumption | extract_lets | with_reducible apply State.setDomn_keeps
    | with_reducible apply State.trace_keeps | with_reducible apply Keeps.ite

theorem State.domSend_keeps {s t : State} (h : Keeps s t) (m : Msg) :
    Keeps s (t.domSend m) := by
  unfold State.domSend
  repeat' first
    | with_reducible assumption | with_reducible apply State.gateMsg_keeps

theorem State.domSendAll_keeps {s t : State} (h : Keeps s t) (m : Nat → Msg) (ds : List Nat) :
    Keeps s (t.domSendAll m ds) := by
  unfold State.domSendAll
  repeat' first
    | with_reducible assumption | extract_lets | intro _ | with_reducible apply State.domSend_keeps
    | with_reducible apply Keeps.foldl

theorem State.issueToken_keeps {s t : State} (h : Keeps s t) (t' : Nat × Nat) :
    Keeps s (t.issueToken t') := by
  unfold State.issueToken
  repeat' first
    | with_reducible assumption | extract_lets | intro _ | with_reducible apply State.setDomn_keeps
    | with_reducible apply State.domSend_keeps | with_reducible apply State.domSendAll_keeps
    | with_reducible apply State.bump_keeps | with_reducible apply Keeps.foldl

theorem State.enterRoot_keeps {s t : State} (h : Keeps s t) :
    Keeps s (t.enterRoot) := by
  unfold State.enterRoot
  repeat' first
    | with_reducible assumption | extract_lets | intro _ | with_reducible apply State.domSet_keeps
    | with_reducible apply State.setDomn_keeps | with_reducible apply State.whenB_keeps
    | with_reducible apply State.servoHold_keeps | with_reducible apply State.issueToken_keeps

theorem State.startClaim_keeps {s t : State} (h : Keeps s t) :
    Keeps s (t.startClaim) := by
  unfold State.startClaim
  repeat' first
    | with_reducible assumption | extract_lets | with_reducible apply State.domSet_keeps
    | with_reducible apply State.setDomn_keeps

theorem State.leaveDomain_keeps {s t : State} (h : Keeps s t) (cause : Nat) :
    Keeps s (t.leaveDomain cause) := by
  unfold State.leaveDomain
  repeat' first
    | with_reducible assumption | extract_lets | with_reducible apply State.domSendAll_keeps
    | with_reducible apply State.domSet_keeps | with_reducible apply Keeps.ite

theorem State.startRole_keeps {s t : State} (h : Keeps s t) :
    Keeps s (t.startRole) := by
  unfold State.startRole
  repeat' first
    | with_reducible assumption | with_reducible apply State.domSet_keeps
    | with_reducible apply State.startClaim_keeps | split

/-! ### Machine/FltOps.lean -/

theorem State.spineInit_keeps {s t : State} (h : Keeps s t) :
    Keeps s (t.spineInit) := by
  unfold State.spineInit
  repeat' first
    | with_reducible assumption | extract_lets | exact List.suffix_refl _ | exact FusesKept.refl _
    | exact Nat.le_refl _ | with_reducible exact id
    | ((conv => { arg 2; arg 34; skip }); with_reducible apply Keeps.ofMk)

theorem State.faultC2_keeps {s t : State} (h : Keeps s t) (code : Nat) (unit : Nat) (detail : Nat) (fl : LogFlags) :
    Keeps s (t.faultC2 code unit detail fl) := by
  unfold State.faultC2
  repeat' first
    | with_reducible assumption | extract_lets | exact List.suffix_refl _ | exact FusesKept.refl _
    | exact Nat.le_refl _ | with_reducible exact id | intro _ | with_reducible apply State.faultRec_keeps
    | with_reducible apply State.noteFault_keeps | with_reducible apply State.lateVoid_keeps
    | with_reducible apply State.logOnly_keeps | with_reducible apply State.leaveDomain_keeps
    | with_reducible apply State.setTask_keeps | with_reducible apply State.dropStreamsOf_keeps
    | with_reducible apply State.ingForget_keeps | with_reducible apply State.endOffers_keeps
    | with_reducible apply State.flushJournal_keeps | with_reducible apply State.freeAll_keeps
    | with_reducible apply State.clrBits_keeps | with_reducible apply State.spineInit_keeps
    | with_reducible apply Keeps.foldl | with_reducible apply Keeps.ite
    | ((conv => { arg 2; arg 34; skip }); with_reducible apply Keeps.ofMk)
    | ((with_reducible conv => { arg 2; whnf }); (conv => { arg 2; arg 34; skip }); with_reducible apply Keeps.ofMk)

/-! ### Machine/Ldg.lean -/

theorem State.corrupt_keeps {s t : State} (h : Keeps s t) (n : Nat) (cause : Nat) (stage : Nat) :
    Keeps s (t.corrupt n cause stage) := by
  unfold State.corrupt
  repeat' first
    | with_reducible assumption | extract_lets | with_reducible apply State.setCtx_keeps
    | with_reducible apply State.bump_keeps

theorem State.bindOne_keeps {s t : State} (h : Keeps s t) (e : Nat) (sh : Nat) :
    Keeps s (t.bindOne e sh).1 := by
  unfold State.bindOne
  repeat' first
    | with_reducible assumption | extract_lets | exact List.suffix_refl _ | exact FusesKept.refl _
    | exact Nat.le_refl _ | with_reducible exact id | intro _ | with_reducible apply State.setCtx_keeps
    | with_reducible apply State.bump_keeps | with_reducible apply Keeps.foldl | split
    | ((with_reducible conv => { arg 2; whnf }); (conv => { arg 2; arg 34; skip }); with_reducible apply Keeps.ofMk)
    | ((with_reducible conv => { arg 2; whnf }); split)

theorem State.closeNow_keeps {s t : State} (h : Keeps s t) (e : Nat) (b : Batch) :
    Keeps s (t.closeNow e b) := by
  unfold State.closeNow
  repeat' first
    | with_reducible assumption | extract_lets | exact List.suffix_refl _ | exact FusesKept.refl _
    | exact Nat.le_refl _ | with_reducible exact id | intro _ | with_reducible apply State.setCtx_keeps
    | with_reducible apply State.freeCtx_keeps | with_reducible apply State.bump_keeps
    | with_reducible apply State.whenB_keeps | with_reducible apply State.journal_keeps
    | with_reducible apply State.batchTrace_keeps | with_reducible apply State.setPakBatch_keeps
    | with_reducible apply State.pakAssign_keeps | with_reducible apply Keeps.foldl
    | ((with_reducible conv => { arg 2; whnf }); (conv => { arg 2; arg 34; skip }); with_reducible apply Keeps.ofMk)

theorem State.tryClose_keeps {s t : State} (h : Keeps s t) (e : Nat) :
    Keeps s (t.tryClose e) := by
  unfold State.tryClose
  repeat' first
    | with_reducible assumption | extract_lets | intro _ | with_reducible apply State.bindOne_keeps
    | with_reducible apply State.closeNow_keeps | with_reducible apply Keeps.foldlFst
    | with_reducible apply Keeps.ite | with_reducible refine Keeps.ofFst (by assumption) ?_ | split

theorem State.applyReport_keeps {s t : State} (h : Keeps s t) (r : Report) :
    Keeps s (t.applyReport r) := by
  unfold State.applyReport
  repeat' first
    | with_reducible assumption | extract_lets | with_reducible apply State.faultC2_keeps
    | with_reducible apply State.bump_keeps | with_reducible apply State.corrupt_keeps
    | with_reducible apply State.setCtx_keeps | with_reducible apply State.tryClose_keeps
    | with_reducible apply Keeps.ite

theorem execSampleDeadline_keeps {s t : State} (h : Keeps s t) (slot : Nat) :
    NextKeeps s (execSampleDeadline slot t) := by
  unfold execSampleDeadline
  repeat' first
    | with_reducible assumption | extract_lets | with_reducible apply State.faultC2_keeps
    | with_reducible apply State.corrupt_keeps | with_reducible apply State.bump_keeps
    | with_reducible apply State.tryClose_keeps | with_reducible apply NextKeeps.next
    | with_reducible apply NextKeeps.ite

theorem execLedgerInitDone_keeps {s t : State} (h : Keeps s t) :
    NextKeeps s (execLedgerInitDone t) := by
  unfold execLedgerInitDone
  repeat' first
    | with_reducible assumption | extract_lets | exact List.suffix_refl _ | exact FusesKept.refl _
    | exact Nat.le_refl _ | with_reducible exact id | with_reducible apply NextKeeps.next
    | with_reducible apply NextKeeps.ite | ((conv => { arg 2; arg 34; skip }); with_reducible apply Keeps.ofMk)

theorem State.admEntry_keeps {s t : State} (h : Keeps s t) (p : Nat) (key : Nat) (ticket : Nat) (slot : Nat) (res :
      Bool) :
    Keeps s (t.admEntry p key ticket slot res) := by
  unfold State.admEntry
  repeat' first
    | with_reducible assumption | extract_lets | exact List.suffix_refl _ | exact FusesKept.refl _
    | exact Nat.le_refl _ | with_reducible exact id | with_reducible apply State.store_keeps
    | ((conv => { arg 2; arg 34; skip }); with_reducible apply Keeps.ofMk)

theorem State.admitOne_keeps {s t : State} (h : Keeps s t) (p : Nat) (e : Nat) (slot : Nat) (key : Nat) (res : Bool) :
    Keeps s (t.admitOne p e slot key res).1 := by
  unfold State.admitOne
  repeat' first
    | with_reducible assumption | extract_lets | exact List.suffix_refl _ | exact FusesKept.refl _
    | exact Nat.le_refl _ | with_reducible exact id | with_reducible apply State.setCtx_keeps
    | with_reducible apply State.admEntry_keeps | with_reducible apply Keeps.ite
    | ((conv => { arg 2; arg 34; skip }); with_reducible apply Keeps.ofMk) | split
    | ((with_reducible conv => { arg 2; whnf }); (conv => { arg 2; arg 34; skip }); with_reducible apply Keeps.ofMk)

theorem State.admitAll_keeps {s t : State} (h : Keeps s t) (p e : Nat) (res : Bool) (slot : Nat)
    (l : List (Nat × Option Nat)) : Keeps s (t.admitAll p e res slot l).1 := by
  induction l generalizing t slot with
  | nil => exact h
  | cons x l ih =>
    obtain ⟨sh, _ | key⟩ := x
    · exact ih h (slot + 1)
    · exact ih (State.admitOne_keeps h p e slot key res) (slot + 1)

theorem State.admit_keeps {s t : State} (h : Keeps s t) (p : Nat) (e : Nat) (c : Cand) :
    Keeps s (t.admitBatch p e c) := by
  unfold State.admitBatch
  repeat' first
    | with_reducible assumption | extract_lets | exact List.suffix_refl _ | exact FusesKept.refl _
    | exact Nat.le_refl _ | with_reducible exact id | with_reducible apply State.journal_keeps
    | with_reducible apply State.takeBuf_keeps | with_reducible apply State.admitAll_keeps
    | with_reducible apply State.bump_keeps | with_reducible apply Keeps.ite
    | with_reducible refine Keeps.ofFst (by assumption) ?_
    | ((conv => { arg 2; arg 34; skip }); with_reducible apply Keeps.ofMk) | split
    | ((with_reducible conv => { arg 2; whnf }); (conv => { arg 2; arg 34; skip }); with_reducible apply Keeps.ofMk)

theorem State.admitTurn_keeps {s t : State} (h : Keeps s t) (l : List Nat) : Keeps s (t.admitTurn l) := by
  induction l generalizing t with
  | nil => exact h
  | cons p l ih =>
    unfold State.admitTurn; extract_lets; split
    · exact State.admit_keeps h ..
    · exact ih (State.bump_keeps h ..)
    · refine ih (Keeps.same (t := _) (State.whenB_keeps h _ _ (fun u k => State.bump_keeps k ..))
        rfl rfl rfl rfl rfl rfl rfl rfl)
    · exact ih (h.same rfl rfl rfl rfl rfl rfl rfl rfl)
    · exact ih h

theorem execBatchAdmit_keeps {s t : State} (h : Keeps s t) :
    NextKeeps s (execBatchAdmit t) := by
  unfold execBatchAdmit
  repeat' first
    | with_reducible assumption | extract_lets | with_reducible apply State.admitTurn_keeps
    | with_reducible apply NextKeeps.next | with_reducible apply NextKeeps.ite

theorem execPinSetCreate_keeps {s t : State} (h : Keeps s t) (p : Nat) (table : Nat) (version : Nat) :
    NextKeeps s (execPinSetCreate p table version t) := by
  unfold execPinSetCreate
  repeat' first
    | with_reducible assumption | extract_lets | exact List.suffix_refl _ | exact FusesKept.refl _
    | exact Nat.le_refl _ | with_reducible exact id | with_reducible apply State.newPin_keeps
    | with_reducible apply State.journal_keeps | with_reducible apply NextKeeps.next
    | with_reducible apply NextKeeps.ite
    | ((with_reducible conv => { arg 2; whnf }); (conv => { arg 2; arg 34; skip }); with_reducible apply Keeps.ofMk)

theorem execCheckpointTimer_keeps {s t : State} (h : Keeps s t) :
    NextKeeps s (execCheckpointTimer t) := by
  unfold execCheckpointTimer
  repeat' first
    | with_reducible assumption | extract_lets | intro _ | with_reducible apply State.checkpoint_keeps
    | with_reducible apply NextKeeps.next | with_reducible apply NextKeeps.ite | with_reducible apply Keeps.foldl

theorem State.retryCloses_keeps {s t : State} (h : Keeps s t) :
    Keeps s (t.retryCloses) := by
  unfold State.retryCloses
  repeat' first
    | with_reducible assumption | extract_lets | intro _ | with_reducible apply State.tryClose_keeps
    | with_reducible apply Keeps.foldl

theorem execJournalEntryWrite_keeps {s t : State} (h : Keeps s t) :
    NextKeeps s (execJournalEntryWrite t) := by
  unfold execJournalEntryWrite
  repeat' first
    | with_reducible assumption | extract_lets | exact List.suffix_refl _ | exact FusesKept.refl _
    | exact Nat.le_refl _ | with_reducible exact id | with_reducible apply State.jrnWrite_keeps
    | with_reducible apply State.retryCloses_keeps | with_reducible apply NextKeeps.next
    | ((conv => { arg 2; arg 34; skip }); with_reducible apply Keeps.ofMk) | split

/-! ### Machine/Smp.lean -/

theorem State.seqWrite_keeps {s t : State} (h : Keeps s t) (a : Nat) (state : Nat) (reason : Nat) (step : Nat)
      (length : Nat) (received : Nat) :
    Keeps s (t.seqWrite a state reason step length received) := by
  unfold State.seqWrite
  repeat' first
    | with_reducible assumption | extract_lets | with_reducible apply State.store_keeps

theorem State.seqStep_keeps {s t : State} (h : Keeps s t) (g : Nat) (inst : Nat) (id : Nat) (waitOver : Bool) :
    Keeps s (t.seqStep g inst id waitOver).1 := by
  unfold State.seqStep
  repeat' first
    | with_reducible assumption | extract_lets | intro _ | with_reducible apply State.countPoison_keeps
    | with_reducible apply State.seqWrite_keeps | with_reducible apply State.bump_keeps
    | with_reducible apply State.err_keeps | with_reducible apply State.store_keeps
    | with_reducible apply State.whenB_keeps | with_reducible apply Keeps.ite | split

theorem State.seqLoop_keeps {s t : State} (h : Keeps s t) (g inst : Nat) (waitOver : Bool) (ids l done : List Nat) :
    Keeps s (t.seqLoop g inst waitOver ids l done).1 := by
  induction l generalizing t done with
  | nil => exact h
  | cons i l ih =>
    unfold State.seqLoop; split
    · exact ih h _
    · have k := State.seqStep_keeps h g inst i waitOver
      split
      · exact ih (Keeps.ofFst (by assumption) k) _
      · exact Keeps.ofFst (by assumption) k
      · exact Keeps.ofFst (by assumption) k

theorem execSample_keeps {s t : State} (h : Keeps s t) (t' : Nat) (k : Nat) :
    NextKeeps s (execSample t' k t) := by
  unfold execSample
  repeat' first
    | with_reducible assumption | extract_lets | intro _ | with_reducible apply State.eng_keeps
    | with_reducible apply State.endStage_keeps | with_reducible apply State.countPoison_keeps
    | with_reducible apply State.seqLoop_keeps | with_reducible apply State.modTask_keeps
    | with_reducible apply State.runWorks_keeps | with_reducible apply NextKeeps.next
    | with_reducible apply Keeps.ite | with_reducible refine Keeps.ofFst (by assumption) ?_ | split

theorem execSampleWaitExpiry_keeps {s t : State} (h : Keeps s t) (t' : Nat) :
    NextKeeps s (execSampleWaitExpiry t' t) := by
  unfold execSampleWaitExpiry
  repeat' first
    | with_reducible assumption | extract_lets | with_reducible apply State.modTask_keeps
    | with_reducible apply NextKeeps.next

theorem execLogitPage_keeps {s t : State} (h : Keeps s t) :
    NextKeeps s (execLogitPage t) := by
  unfold execLogitPage
  repeat' first
    | with_reducible assumption | extract_lets | with_reducible apply State.popMsg_keeps
    | with_reducible apply State.err_keeps | with_reducible apply State.store_keeps
    | with_reducible apply State.bump_keeps | with_reducible apply NextKeeps.next
    | with_reducible apply NextKeeps.ite | split

theorem State.seqKill_keeps {s t : State} (h : Keeps s t) (id : Nat) :
    Keeps s (t.seqKill id) := by
  unfold State.seqKill
  repeat' first
    | with_reducible assumption | extract_lets | intro _ | with_reducible apply State.seqWrite_keeps
    | with_reducible apply State.fresh_keeps | with_reducible apply State.gatePut_keeps
    | with_reducible apply Keeps.ite

theorem execSmpSeqKill_keeps {s t : State} (h : Keeps s t) (p : Path) (id : Nat) :
    NextKeeps s (execSmpSeqKill p id t) := by
  unfold execSmpSeqKill
  repeat' first
    | with_reducible assumption | extract_lets | with_reducible apply State.setReg_keeps
    | with_reducible apply State.seqKill_keeps | with_reducible apply NextKeeps.next
    | with_reducible apply NextKeeps.ite

/-! ### Machine/Pak.lean -/

theorem State.depositOne_keeps {s t : State} (h : Keeps s t) (t' : Nat) (inst : Nat) (fld : Nat) (tk : Nat) (fits :
      PakField → Bool) (cnt : Nat) (elem : Nat) (data : List Byte) (bad : Bool) :
    Keeps s (t.depositOne t' inst fld tk fits cnt elem data bad).1 := by
  unfold State.depositOne
  repeat' first
    | with_reducible assumption | extract_lets | with_reducible apply State.store_keeps
    | with_reducible apply State.setBuf_keeps | with_reducible apply State.bump_keeps | split

theorem depLoop_keeps {s t : State} (h : Keeps s t) (l : List DepItem) (done : List Outcome)
    (hl : ∀ x ∈ l, ∀ u, Keeps s u → Keeps s (x.act u).1) : Keeps s (depLoop t l done).1 := by
  induction l generalizing t done with
  | nil => exact h
  | cons x l ih =>
    unfold depLoop; split
    · exact Keeps.ofFst (by assumption) (hl x (List.mem_cons_self ..) _ h)
    · exact ih (Keeps.ofFst (by assumption) (hl x (List.mem_cons_self ..) _ h)) _
        (fun y hy => hl y (List.mem_cons_of_mem _ hy))

theorem State.depRun_keeps {s t : State} (h : Keeps s t) (items : List DepItem)
    (hl : ∀ x ∈ items, ∀ u, Keeps s u → Keeps s (x.act u).1) : Keeps s (t.depRun items).1 := by
  unfold State.depRun
  extract_lets v
  have hv : Keeps s v := State.countPoison_keeps h _
  split
  · exact depLoop_keeps hv _ _ hl
  · exact depLoop_keeps (hv.fwd 1) _ _ (fun x hx => hl x (List.mem_of_mem_take hx))

theorem actKeeps_map {β : Type} {s : State} (f : β → DepItem) (l : List β)
    (hf : ∀ y u, Keeps s u → Keeps s ((f y).act u).1) : ∀ x ∈ l.map f, ∀ u, Keeps s u → Keeps s (x.act u).1 := by
  intro x hx
  obtain ⟨y, _, rfl⟩ := List.mem_map.mp hx
  exact hf y

theorem execDeposit_keeps {s t : State} (h : Keeps s t) (t' : Nat) (k : Nat) :
    NextKeeps s (execDeposit t' k t) := by
  unfold execDeposit
  repeat' first
    | with_reducible assumption | extract_lets | exact actKeeps_map _ _ (fun y u k => State.depositOne_keeps k ..)
    | intro _ | with_reducible apply State.eng_keeps | with_reducible apply State.depRun_keeps
    | with_reducible apply State.endStage_keeps | with_reducible apply NextKeeps.next
    | with_reducible refine Keeps.ofFst (by assumption) ?_ | split

theorem State.sendStep_keeps {s t : State} (h : Keeps s t) (bay : Nat) (ep : Nat) (l : List (List Byte)) (poison :
      Bool) :
    Keeps s (t.sendStep bay ep l poison) := by
  unfold State.sendStep
  repeat' first
    | with_reducible assumption | extract_lets | exact List.suffix_refl _ | exact FusesKept.refl _
    | exact Nat.le_add_right _ _ | with_reducible exact id | with_reducible apply State.sendMsg_keeps
    | with_reducible apply State.bump_keeps
    | ((with_reducible conv => { arg 2; whnf }); (conv => { arg 2; arg 34; skip }); with_reducible apply Keeps.ofMk)

theorem execDepositSeq_keeps {s t : State} (h : Keeps s t) (t' : Nat) (k : Nat) :
    NextKeeps s (execDepositSeq t' k t) := by
  unfold execDepositSeq
  refine NextKeeps.next (State.eng_keeps h _ _ _ _ _ (fun x g u k => ?_))
  extract_lets hin d e ext n els outcome item
  have hl : ∀ y ∈ els.map item, ∀ v, Keeps s v → Keeps s (y.act v).1 := by
    refine actKeeps_map _ _ (fun y v k => ?_)
    show Keeps s (ite _ _ _ : State × Except Nat Outcome).1
    exact Keeps.iteFst (State.depositOne_keeps k ..) k
  have hr := State.depRun_keeps k _ hl
  clear_value item
  split
  · exact State.endStage_keeps (Keeps.ofFst (by assumption) hr) ..
  · exact State.endStage_keeps (Keeps.foldl (Keeps.ofFst (by assumption) hr) _
      (fun u l k => State.sendStep_keeps k ..) _) ..

theorem execStepPageDrop_keeps {s t : State} (h : Keeps s t) (ep : Nat) (ctr : Nat) :
    NextKeeps s (execStepPageDrop ep ctr t) := by
  unfold execStepPageDrop
  repeat' first
    | with_reducible assumption | extract_lets | with_reducible apply State.purge_keeps
    | with_reducible apply State.err_keeps | with_reducible apply NextKeeps.next | with_reducible apply NextKeeps.ite

theorem execLayoutRead_keeps {s t : State} (h : Keeps s t) (p : Nat) :
    NextKeeps s (execLayoutRead p t) := by
  unfold execLayoutRead
  repeat' first
    | with_reducible assumption | extract_lets | with_reducible apply State.setPakPipe_keeps
    | with_reducible apply NextKeeps.next | with_reducible apply NextKeeps.ite | split

theorem execBatchBuildDone_keeps {s t : State} (h : Keeps s t) (e : Nat) :
    NextKeeps s (execBatchBuildDone e t) := by
  unfold execBatchBuildDone
  repeat' first
    | with_reducible assumption | extract_lets | intro _ | with_reducible apply State.pakAssign_keeps
    | with_reducible apply State.store_keeps | with_reducible apply State.setPakBatch_keeps
    | with_reducible apply State.declareLoss_keeps | with_reducible apply State.bump_keeps
    | with_reducible apply State.setPakDest_keeps | with_reducible apply NextKeeps.next
    | with_reducible apply NextKeeps.ite | with_reducible apply Keeps.foldl | split

theorem State.stampOffer_keeps {s t : State} (h : Keeps s t) (b : PakBatch) (dsn : Nat) (offer : Nat) :
    Keeps s (t.stampOffer b dsn offer) := by
  unfold State.stampOffer
  repeat' first
    | with_reducible assumption | extract_lets | with_reducible apply State.store_keeps

theorem execOfferStart_keeps {s t : State} (h : Keeps s t) (k : Nat) :
    NextKeeps s (execOfferStart k t) := by
  unfold execOfferStart
  repeat' first
    | with_reducible assumption | extract_lets | with_reducible apply State.pushOffer_keeps
    | with_reducible apply State.setPakBatch_keeps | with_reducible apply State.setPakDest_keeps
    | with_reducible apply State.stampOffer_keeps | with_reducible apply NextKeeps.next
    | with_reducible apply NextKeeps.ite | split | (conv => { arg 2; zeta }; split)

theorem execBatchAck_keeps {s t : State} (h : Keeps s t) :
    NextKeeps s (execBatchAck t) := by
  unfold execBatchAck
  repeat' first
    | with_reducible assumption | extract_lets | with_reducible apply State.popMsg_keeps
    | with_reducible apply State.delivered_keeps | with_reducible apply State.bump_keeps
    | with_reducible apply NextKeeps.next | with_reducible apply NextKeeps.ite | split

theorem execHostOfferDone_keeps {s t : State} (h : Keeps s t) (p : Nat) :
    NextKeeps s (execHostOfferDone p t) := by
  unfold execHostOfferDone
  repeat' first
    | with_reducible assumption | extract_lets | with_reducible apply State.delivered_keeps
    | with_reducible apply NextKeeps.next | with_reducible apply NextKeeps.ite | split

theorem execHoldTimeout_keeps {s t : State} (h : Keeps s t) (k : Nat) :
    NextKeeps s (execHoldTimeout k t) := by
  unfold execHoldTimeout
  repeat' first
    | with_reducible assumption | extract_lets | with_reducible apply State.endOffer_keeps
    | with_reducible apply NextKeeps.next | with_reducible apply NextKeeps.ite

theorem execPakHostHead_keeps {s t : State} (h : Keeps s t) (p : Path) (n : Nat) (v : Nat) :
    NextKeeps s (execPakHostHead p n v t) := by
  unfold execPakHostHead
  repeat' first
    | with_reducible assumption | extract_lets | with_reducible apply State.setReg_keeps
    | with_reducible apply State.pushOffer_keeps | with_reducible apply NextKeeps.next
    | with_reducible apply NextKeeps.ite

/-! ### Machine/SenOps.lean -/

theorem State.setLayer_keeps {s t : State} (h : Keeps s t) (l : Nat) (x : Layer) :
    Keeps s (t.setLayer l x) := by
  unfold State.setLayer
  repeat' first
    | with_reducible assumption | extract_lets | exact List.suffix_refl _ | exact FusesKept.refl _
    | exact Nat.le_refl _ | with_reducible exact id
    | ((conv => { arg 2; arg 34; skip }); with_reducible apply Keeps.ofMk)

theorem State.setGroup_keeps {s t : State} (h : Keeps s t) (g : Nat) (x : Group) :
    Keeps s (t.setGroup g x) := by
  unfold State.setGroup
  repeat' first
    | with_reducible assumption | extract_lets | exact List.suffix_refl _ | exact FusesKept.refl _
    | exact Nat.le_refl _ | with_reducible exact id
    | ((conv => { arg 2; arg 34; skip }); with_reducible apply Keeps.ofMk)

theorem State.putLine_keeps {s t : State} (h : Keeps s t) (f : SFrame) (y : Nat) (b : List Byte) :
    Keeps s (t.putLine f y b) := by
  unfold State.putLine
  repeat' first
    | with_reducible assumption | extract_lets | with_reducible apply State.store_keeps
    | with_reducible apply Keeps.ite

theorem State.latchFrame_keeps {s t : State} (h : Keeps s t) (l : Nat) :
    Keeps s (t.latchFrame l) := by
  unfold State.latchFrame
  repeat' first
    | with_reducible assumption | extract_lets | with_reducible apply State.setLayer_keeps
    | with_reducible apply Keeps.ite | split

theorem State.closeFrame_keeps {s t : State} (h : Keeps s t) (l : Nat) :
    Keeps s (t.closeFrame l) := by
  unfold State.closeFrame
  repeat' first
    | with_reducible assumption | extract_lets | intro _ | with_reducible apply State.latchFrame_keeps
    | with_reducible apply State.putLine_keeps | with_reducible apply State.setLayer_keeps
    | with_reducible apply State.bump_keeps | with_reducible apply State.setGroup_keeps
    | with_reducible apply Keeps.foldl | with_reducible apply Keeps.ite | split

theorem State.trigLevel_keeps {s t : State} (h : Keeps s t) (t' : Nat) (high : Bool) :
    Keeps s (t.trigLevel t' high) := by
  unfold State.trigLevel
  repeat' first
    | with_reducible assumption | extract_lets | exact List.suffix_refl _ | exact FusesKept.refl _
    | exact Nat.le_refl _ | with_reducible exact id | with_reducible apply State.emit_keeps
    | with_reducible apply Keeps.ite
    | ((with_reducible conv => { arg 2; whnf }); (conv => { arg 2; arg 34; skip }); with_reducible apply Keeps.ofMk)

theorem State.setTrig_keeps {s t : State} (h : Keeps s t) (t' : Nat) (x : Trig) :
    Keeps s (t.setTrig t' x) := by
  unfold State.setTrig
  repeat' first
    | with_reducible assumption | extract_lets | exact List.suffix_refl _ | exact FusesKept.refl _
    | exact Nat.le_refl _ | with_reducible exact id
    | ((conv => { arg 2; arg 34; skip }); with_reducible apply Keeps.ofMk)

theorem State.grpStart_keeps {s t : State} (h : Keeps s t) (g : Nat) :
    Keeps s (t.grpStart g) := by
  unfold State.grpStart
  repeat' first
    | with_reducible assumption | extract_lets | with_reducible apply State.setGroup_keeps

theorem State.trigStart_keeps {s t : State} (h : Keeps s t) (t' : Nat) :
    Keeps s (t.trigStart t') := by
  unfold State.trigStart
  repeat' first
    | with_reducible assumption | extract_lets | with_reducible apply State.setTrig_keeps
    | with_reducible apply State.trigLevel_keeps | with_reducible apply Keeps.ite

theorem State.senGain_keeps {s t : State} (h : Keeps s t) :
    Keeps s (t.senGain) := by
  unfold State.senGain
  repeat' first
    | with_reducible assumption | extract_lets | intro _ | with_reducible apply State.grpStart_keeps
    | with_reducible apply State.trigStart_keeps | with_reducible apply Keeps.foldl

theorem State.senApply_keeps {s t : State} (h : Keeps s t) (old : Tbl Word) :
    Keeps s (t.senApply old) := by
  unfold State.senApply
  repeat' first
    | with_reducible assumption | extract_lets | intro _ | with_reducible apply State.grpStart_keeps
    | with_reducible apply State.setGroup_keeps | with_reducible apply State.setLayer_keeps
    | with_reducible apply State.trigStart_keeps | with_reducible apply Keeps.foldl | with_reducible apply Keeps.ite
    | split

/-! ### Machine/Sen.lean -/

theorem State.openFrame_keeps {s t : State} (h : Keeps s t) (num : Nat) (l : Nat) :
    Keeps s (t.openFrame num l) := by
  unfold State.openFrame
  repeat' first
    | with_reducible assumption | extract_lets | with_reducible apply State.closeFrame_keeps
    | with_reducible apply State.err_keeps | with_reducible apply State.setLayer_keeps
    | with_reducible apply State.bump_keeps | with_reducible apply Keeps.ite

theorem execFrameStart_keeps {s t : State} (h : Keeps s t) (port : Nat) (vc : Nat) (num : Nat) :
    NextKeeps s (execFrameStart port vc num t) := by
  unfold execFrameStart
  repeat' first
    | with_reducible assumption | extract_lets | intro _ | with_reducible apply State.openFrame_keeps
    | with_reducible apply NextKeeps.next | with_reducible apply NextKeeps.ite | with_reducible apply Keeps.foldl

theorem execFrameEnd_keeps {s t : State} (h : Keeps s t) (port : Nat) (vc : Nat) (num : Nat) :
    NextKeeps s (execFrameEnd port vc num t) := by
  unfold execFrameEnd
  repeat' first
    | with_reducible assumption | extract_lets | intro _ | with_reducible apply State.closeFrame_keeps
    | with_reducible apply NextKeeps.next | with_reducible apply NextKeeps.ite | with_reducible apply Keeps.foldl

theorem execLongPacket_keeps {s t : State} (h : Keeps s t) (port : Nat) (vc : Nat) (dt : Nat) (hdrOk : Bool) (crcOk
      : Bool) (data : List Byte) :
    NextKeeps s (execLongPacket port vc dt hdrOk crcOk data t) := by
  unfold execLongPacket
  repeat' first
    | with_reducible assumption | extract_lets | intro _ | with_reducible apply State.err_keeps
    | with_reducible apply State.bump_keeps | with_reducible apply State.whenB_keeps
    | with_reducible apply State.putLine_keeps | with_reducible apply State.setLayer_keeps
    | with_reducible apply NextKeeps.next | with_reducible apply NextKeeps.ite | split

theorem execFrameLatch_keeps {s t : State} (h : Keeps s t) (l : Nat) :
    NextKeeps s (execFrameLatch l t) := by
  unfold execFrameLatch
  repeat' first
    | with_reducible assumption | extract_lets | with_reducible apply State.latchFrame_keeps
    | with_reducible apply NextKeeps.next | with_reducible apply NextKeeps.ite | split

theorem execPtpSync_keeps {s t : State} (h : Keeps s t) (src : Nat) (off : Int) :
    NextKeeps s (execPtpSync src off t) := by
  unfold execPtpSync
  repeat' first
    | with_reducible assumption | extract_lets | with_reducible apply State.servoSync_keeps
    | with_reducible apply NextKeeps.next | with_reducible apply NextKeeps.ite

theorem execPtpMessage_keeps {s t : State} (h : Keeps s t) (src : Nat) (off : Option Int) :
    NextKeeps s (execPtpMessage src off t) := by
  unfold execPtpMessage
  repeat' first
    | with_reducible assumption | extract_lets | with_reducible apply State.servoSync_keeps
    | with_reducible apply NextKeeps.next | with_reducible apply NextKeeps.ite | split

theorem execServoHoldover_keeps {s t : State} (h : Keeps s t) :
    NextKeeps s (execServoHoldover t) := by
  unfold execServoHoldover
  repeat' first
    | with_reducible assumption | extract_lets | with_reducible apply State.servoLost_keeps
    | with_reducible apply NextKeeps.next

theorem execTsInCapture_keeps {s t : State} (h : Keeps s t) (n : Nat) (rising : Bool) :
    NextKeeps s (execTsInCapture n rising t) := by
  unfold execTsInCapture
  repeat' first
    | with_reducible assumption | extract_lets | exact List.suffix_refl _ | exact FusesKept.refl _
    | exact Nat.le_refl _ | with_reducible exact id | with_reducible apply State.setBits_keeps
    | with_reducible apply NextKeeps.next | with_reducible apply NextKeeps.ite
    | ((conv => { arg 2; arg 34; skip }); with_reducible apply Keeps.ofMk)

theorem execTrigEdge_keeps {s t : State} (h : Keeps s t) (t' : Nat) :
    NextKeeps s (execTrigEdge t' t) := by
  unfold execTrigEdge
  repeat' first
    | with_reducible assumption | extract_lets | with_reducible apply State.setTrig_keeps
    | with_reducible apply State.trigLevel_keeps | with_reducible apply NextKeeps.next
    | with_reducible apply NextKeeps.ite | split

theorem State.senFault_keeps {s t : State} (h : Keeps s t) (g : Nat) (ticket : Nat) :
    Keeps s (t.senFault g ticket) := by
  unfold State.senFault
  repeat' first
    | with_reducible assumption | with_reducible apply State.gatePut_keeps

theorem State.takeEntry_keeps {s t : State} (h : Keeps s t) (p : Nat) :
    Keeps s (t.takeEntry p).1 := by
  unfold State.takeEntry
  repeat' first
    | with_reducible assumption | extract_lets | exact List.suffix_refl _ | exact FusesKept.refl _
    | exact Nat.le_refl _ | with_reducible exact id | split
    | ((with_reducible conv => { arg 2; whnf }); (conv => { arg 2; arg 34; skip }); with_reducible apply Keeps.ofMk)

theorem State.emitFused_keeps {s t : State} (h : Keeps s t) (g : Nat) (f : Fused) :
    Keeps s (t.emitFused g f) := by
  unfold State.emitFused
  repeat' first
    | with_reducible assumption | extract_lets | with_reducible apply State.senFault_keeps
    | with_reducible apply State.err_keeps | with_reducible apply State.setGroup_keeps
    | with_reducible apply State.bump_keeps | with_reducible apply Keeps.ite | split

theorem execFusionClose_keeps {s t : State} (h : Keeps s t) (g : Nat) :
    NextKeeps s (execFusionClose g t) := by
  unfold execFusionClose
  repeat' first
    | with_reducible assumption | extract_lets | intro _ | with_reducible apply State.bump_keeps
    | with_reducible apply State.setGroup_keeps | with_reducible apply State.whenB_keeps
    | with_reducible apply State.err_keeps | with_reducible apply State.takeEntry_keeps
    | with_reducible apply State.senFault_keeps | with_reducible apply State.emitFused_keeps
    | with_reducible apply NextKeeps.next | with_reducible apply NextKeeps.ite
    | with_reducible refine Keeps.ofFst (by assumption) ?_ | split

theorem State.capRun_keeps {s t : State} (h : Keeps s t) (t' : Nat) (k : Nat) (x : Task) (g : Stage) :
    Keeps s (t.capRun t' k x g) := by
  unfold State.capRun
  repeat' first
    | with_reducible assumption | extract_lets | exact List.suffix_refl _ | exact FusesKept.refl _
    | exact Nat.le_refl _ | with_reducible exact id | with_reducible apply State.endStage_keeps
    | with_reducible apply State.countPoison_keeps | with_reducible apply State.runWorks_keeps
    | with_reducible apply Keeps.ite | with_reducible refine Keeps.ofFst (by assumption) ?_ | split
    | ((with_reducible conv => { arg 2; whnf }); (conv => { arg 2; arg 34; skip }); with_reducible apply Keeps.ofMk)

theorem execCapture_keeps {s t : State} (h : Keeps s t) (t' : Nat) (k : Nat) :
    NextKeeps s (execCapture t' k t) := by
  unfold execCapture
  repeat' first
    | with_reducible assumption | extract_lets | intro _ | with_reducible apply State.eng_keeps
    | with_reducible apply State.capRun_keeps | with_reducible apply NextKeeps.next

theorem execCaptureWaitExpiry_keeps {s t : State} (h : Keeps s t) (t' : Nat) :
    NextKeeps s (execCaptureWaitExpiry t' t) := by
  unfold execCaptureWaitExpiry
  repeat' first
    | with_reducible assumption | extract_lets | with_reducible apply State.modTask_keeps
    | with_reducible apply NextKeeps.next | with_reducible apply NextKeeps.ite | split

theorem State.senTaskEnd_keeps {s t : State} (h : Keeps s t) (t' : Nat) :
    Keeps s (t.senTaskEnd t') := by
  unfold State.senTaskEnd
  repeat' first
    | with_reducible assumption | extract_lets | exact List.suffix_refl _ | exact FusesKept.refl _
    | exact Nat.le_refl _ | with_reducible exact id | intro _ | with_reducible apply State.setGroup_keeps
    | with_reducible apply Keeps.foldl | with_reducible apply Keeps.ite
    | ((conv => { arg 2; arg 34; skip }); with_reducible apply Keeps.ofMk)

/-! ### Machine/Xch.lean -/

theorem execCopy_keeps {s t : State} (h : Keeps s t) (t' : Nat) (k : Nat) :
    NextKeeps s (execCopy t' k t) := by
  unfold execCopy
  repeat' first
    | with_reducible assumption | extract_lets | intro _ | with_reducible apply State.eng_keeps
    | with_reducible apply State.runWorks_keeps | with_reducible apply State.bump_keeps
    | with_reducible apply State.countPoison_keeps | with_reducible apply State.endStage_keeps
    | with_reducible apply NextKeeps.next | with_reducible apply Keeps.ite
    | with_reducible refine Keeps.ofFst (by assumption) ?_ | split

theorem State.rowsRun_keeps {s t : State} (h : Keeps s t) (sc : Bool) (t' : Nat) (k : Nat) (g : Stage) :
    Keeps s (t.rowsRun sc t' k g) := by
  unfold State.rowsRun
  repeat' first
    | with_reducible assumption | extract_lets | with_reducible apply State.runWorks_keeps
    | with_reducible apply State.bump_keeps | with_reducible apply State.countPoison_keeps
    | with_reducible apply State.endStage_keeps | with_reducible apply State.err_keeps
    | with_reducible apply Keeps.ite | with_reducible refine Keeps.ofFst (by assumption) ?_ | split

theorem execGatherRows_keeps {s t : State} (h : Keeps s t) (t' : Nat) (k : Nat) :
    NextKeeps s (execGatherRows t' k t) := by
  unfold execGatherRows
  repeat' first
    | with_reducible assumption | extract_lets | intro _ | with_reducible apply State.eng_keeps
    | with_reducible apply State.rowsRun_keeps | with_reducible apply NextKeeps.next

theorem execScatterRows_keeps {s t : State} (h : Keeps s t) (t' : Nat) (k : Nat) :
    NextKeeps s (execScatterRows t' k t) := by
  unfold execScatterRows
  repeat' first
    | with_reducible assumption | extract_lets | intro _ | with_reducible apply State.eng_keeps
    | with_reducible apply State.rowsRun_keeps | with_reducible apply NextKeeps.next

end Sys2Proof.Machine
end

