-- ==== Sys2Proof/Laws/KeepsQueue.lean ====
section
/-!
SUPPORT. `Keeps` for queues, faults, commits, debug, telemetry and the Vault:
one lemma per operation and one per meaning.
-/

namespace Sys2Proof.Machine

/-! ### Machine/QueOps.lean -/

theorem State.setSem_keeps {s t : State} (h : Keeps s t) (n : Nat) (v : Nat) :
    Keeps s (t.setSem n v) := by
  unfold State.setSem
  repeat' first
    | with_reducible assumption | extract_lets | with_reducible apply State.setReg_keeps

theorem State.semAdd_keeps {s t : State} (h : Keeps s t) (n : Nat) (v : Nat) :
    Keeps s (t.semAdd n v) := by
  unfold State.semAdd
  repeat' first
    | with_reducible assumption | extract_lets | with_reducible apply State.setSem_keeps
    | with_reducible apply State.setReg_keeps | with_reducible apply State.faultC0_keeps
    | with_reducible apply Keeps.ite

theorem State.takeSems_keeps {s t : State} (h : Keeps s t) (w : List Nat) :
    Keeps s (t.takeSems w) := by
  unfold State.takeSems
  repeat' first
    | with_reducible assumption | extract_lets | intro _ | with_reducible apply State.setSem_keeps
    | with_reducible apply Keeps.foldl

theorem State.signal_keeps {s t : State} (h : Keeps s t) (w : List Nat) (status : Nat) :
    Keeps s (t.signal w status) := by
  unfold State.signal
  repeat' first
    | with_reducible assumption | extract_lets | with_reducible apply State.semAdd_keeps
    | with_reducible apply Keeps.ite

theorem State.qIrq_keeps {s t : State} (h : Keeps s t) (g : Nat) (q : Nat) :
    Keeps s (t.qIrq g q) := by
  unfold State.qIrq
  repeat' first
    | with_reducible assumption | extract_lets | with_reducible apply State.setQueue_keeps
    | with_reducible apply State.msix_keeps | with_reducible apply Keeps.ite

theorem State.record_keeps {s t : State} (h : Keeps s t) (c : Cpl) :
    Keeps s (t.record c) := by
  unfold State.record
  repeat' first
    | with_reducible assumption | extract_lets | with_reducible apply State.hostStore_keeps
    | with_reducible apply State.setBits_keeps | with_reducible apply State.store_keeps
    | with_reducible apply State.setQueue_keeps | with_reducible apply Keeps.ite

theorem State.recordIrq_keeps {s t : State} (h : Keeps s t) (c : Cpl) :
    Keeps s (t.recordIrq c) := by
  unfold State.recordIrq
  repeat' first
    | with_reducible assumption | extract_lets | intro _ | with_reducible apply State.whenB_keeps
    | with_reducible apply State.qIrq_keeps

theorem State.drainAborted_keeps {s t : State} (h : Keeps s t) (q : Nat) :
    Keeps s (t.drainAborted q) := by
  unfold State.drainAborted
  repeat' first
    | with_reducible assumption | extract_lets | intro _ | with_reducible apply State.fresh_keeps
    | with_reducible apply State.record_keeps | with_reducible apply State.setQueue_keeps
    | with_reducible apply State.recordIrq_keeps | with_reducible apply Keeps.foldl | with_reducible apply Keeps.ite

/-! ### Machine/Flt.lean -/

theorem State.linkFenced_keeps {s t : State} (h : Keeps s t) (u : Nat) :
    Keeps s (t.linkFenced u) := by
  unfold State.linkFenced
  repeat' first
    | with_reducible assumption | extract_lets | intro _ | with_reducible apply State.portTo_keeps
    | with_reducible apply State.tgtLost_keeps | with_reducible apply State.ethDown_keeps
    | with_reducible apply State.hostTransfersFenced_keeps | with_reducible apply Keeps.foldl
    | with_reducible apply Keeps.ite

theorem State.faultUnit_keeps {s t : State} (h : Keeps s t) (code : Nat) (u : Nat) (detail : Nat) (fl : LogFlags) :
    Keeps s (t.faultUnit code u detail fl) := by
  unfold State.faultUnit
  repeat' first
    | with_reducible assumption | extract_lets | intro _ | with_reducible apply State.faultC1_keeps
    | with_reducible apply State.linkFenced_keeps | with_reducible apply State.pakSync_keeps
    | with_reducible apply Keeps.foldl | with_reducible apply Keeps.ite

theorem State.faultClock_keeps {s t : State} (h : Keeps s t) (detail : Nat) :
    Keeps s (t.faultClock detail) := by
  unfold State.faultClock
  repeat' first
    | with_reducible assumption | extract_lets | with_reducible apply State.lateVoid_keeps
    | with_reducible apply State.faultRec_keeps | with_reducible apply State.noteFault_keeps

theorem execRefclkLoss_keeps {s t : State} (h : Keeps s t) (c : RefClk) :
    NextKeeps s (execRefclkLoss c t) := by
  unfold execRefclkLoss
  repeat' first
    | with_reducible assumption | extract_lets | exact List.suffix_refl _ | exact FusesKept.refl _
    | exact Nat.le_refl _ | with_reducible exact id | intro _ | with_reducible apply State.faultC3_keeps
    | with_reducible apply State.hifReset_keeps | with_reducible apply State.fence_keeps
    | with_reducible apply State.faultClock_keeps | with_reducible apply State.tgtLost_keeps
    | with_reducible apply State.ethDown_keeps | with_reducible apply State.portTo_keeps
    | with_reducible apply NextKeeps.next | with_reducible apply Keeps.foldl | with_reducible apply Keeps.ite | split
    | ((with_reducible conv => { arg 2; whnf }); (conv => { arg 2; arg 34; skip }); with_reducible apply Keeps.ofMk)

theorem execTimingLimitFault_keeps {s t : State} (h : Keeps s t) (n : Nat) :
    NextKeeps s (execTimingLimitFault n t) := by
  unfold execTimingLimitFault
  repeat' first
    | with_reducible assumption | extract_lets | with_reducible apply State.faultC3_keeps
    | with_reducible apply State.faultUnit_keeps | with_reducible apply NextKeeps.next
    | with_reducible apply NextKeeps.ite

theorem execHealthFaultConfirm_keeps {s t : State} (h : Keeps s t) (u : Nat) (pair : Fin 4) (prevGood : Bool)
      (released : Bool) :
    NextKeeps s (execHealthFaultConfirm u pair prevGood released t) := by
  unfold execHealthFaultConfirm
  repeat' first
    | with_reducible assumption | extract_lets | exact List.suffix_refl _ | exact FusesKept.refl _
    | exact Nat.le_refl _ | with_reducible exact id | with_reducible apply State.setUnit_keeps
    | with_reducible apply State.faultC0_keeps | with_reducible apply State.faultUnit_keeps
    | with_reducible apply State.faultC2_keeps | with_reducible apply State.faultC3_keeps
    | with_reducible apply NextKeeps.next | with_reducible apply NextKeeps.ite
    | ((conv => { arg 2; arg 34; skip }); with_reducible apply Keeps.ofMk) | split

theorem execWatchdogExpiry_keeps {s t : State} (h : Keeps s t) (n : Nat) :
    NextKeeps s (execWatchdogExpiry n t) := by
  unfold execWatchdogExpiry
  repeat' first
    | with_reducible assumption | extract_lets | with_reducible apply State.faultUnit_keeps
    | with_reducible apply NextKeeps.next | with_reducible apply NextKeeps.ite

theorem execReleaseGatePass_keeps {s t : State} (h : Keeps s t) :
    NextKeeps s (execReleaseGatePass t) := by
  unfold execReleaseGatePass
  repeat' first
    | with_reducible assumption | extract_lets | exact List.suffix_refl _ | exact FusesKept.refl _
    | exact Nat.le_refl _ | with_reducible exact id | with_reducible apply State.applyReport_keeps
    | with_reducible apply State.sendMsg_keeps | with_reducible apply NextKeeps.next | split
    | ((with_reducible conv => { arg 2; whnf }); (conv => { arg 2; arg 34; skip }); with_reducible apply Keeps.ofMk)

theorem State.selfTestPass_keeps {s t : State} (h : Keeps s t) (u : Nat) :
    Keeps s (t.selfTestPass u) := by
  unfold State.selfTestPass
  repeat' first
    | with_reducible assumption | extract_lets | with_reducible apply State.setUnit_keeps
    | with_reducible apply State.portStart_keeps | with_reducible apply State.recovered_keeps
    | with_reducible apply State.bayUse_keeps | with_reducible apply State.retryWaiting_keeps
    | with_reducible apply State.pakSync_keeps | with_reducible apply Keeps.ite

theorem execRecoverySelfTestDone_keeps {s t : State} (h : Keeps s t) (u : Nat) (pass : Bool) :
    NextKeeps s (execRecoverySelfTestDone u pass t) := by
  unfold execRecoverySelfTestDone
  repeat' first
    | with_reducible assumption | extract_lets | with_reducible apply State.selfTestPass_keeps
    | with_reducible apply State.setUnit_keeps | with_reducible apply State.refreshFlt_keeps
    | with_reducible apply NextKeeps.next | with_reducible apply NextKeeps.ite

theorem execFltUnfence_keeps {s t : State} (h : Keeps s t) (p : Path) (u : Nat) :
    NextKeeps s (execFltUnfence p u t) := by
  unfold execFltUnfence
  repeat' first
    | with_reducible assumption | extract_lets | with_reducible apply State.setUnit_keeps
    | with_reducible apply State.refreshFlt_keeps | with_reducible apply NextKeeps.next
    | with_reducible apply NextKeeps.ite

theorem execFltInject_keeps {s t : State} (h : Keeps s t) (p : Path) (u : Nat) (wire : Bool) :
    NextKeeps s (execFltInject p u wire t) := by
  unfold execFltInject
  repeat' first
    | with_reducible assumption | extract_lets | with_reducible apply State.setUnit_keeps
    | with_reducible apply NextKeeps.next | with_reducible apply NextKeeps.ite

theorem execFltFirstClr_keeps {s t : State} (h : Keeps s t) (p : Path) :
    NextKeeps s (execFltFirstClr p t) := by
  unfold execFltFirstClr
  repeat' first
    | with_reducible assumption | extract_lets | exact List.suffix_refl _ | exact FusesKept.refl _
    | exact Nat.le_refl _ | with_reducible exact id | with_reducible apply NextKeeps.next
    | with_reducible apply NextKeeps.ite | ((conv => { arg 2; arg 34; skip }); with_reducible apply Keeps.ofMk)

theorem State.resumePipe_keeps {s t : State} (h : Keeps s t) (p : Nat) (id : Nat) :
    Keeps s (t.resumePipe p id) := by
  unfold State.resumePipe
  repeat' first
    | with_reducible assumption | extract_lets | exact List.suffix_refl _ | exact FusesKept.refl _
    | exact Nat.le_refl _ | exact Mem.wf_congr rfl rfl | intro _ | with_reducible apply State.newPin_keeps
    | ((with_reducible conv => { arg 2; whnf }); (conv => { arg 2; arg 34; skip }); with_reducible apply Keeps.ofMk)

theorem execC2RecoveryDone_keeps {s t : State} (h : Keeps s t) :
    NextKeeps s (execC2RecoveryDone t) := by
  unfold execC2RecoveryDone
  repeat' first
    | with_reducible assumption | extract_lets | exact List.suffix_refl _ | exact FusesKept.refl _
    | exact Nat.le_refl _ | with_reducible exact id | intro _ | with_reducible apply State.resumePipe_keeps
    | with_reducible apply State.refreshFlt_keeps | with_reducible apply State.logOnly_keeps
    | with_reducible apply State.whenB_keeps | with_reducible apply State.err_keeps
    | with_reducible apply State.startRole_keeps | with_reducible apply NextKeeps.next
    | with_reducible apply NextKeeps.ite | with_reducible apply Keeps.foldl | with_reducible apply Keeps.ite
    | ((conv => { arg 2; arg 34; skip }); with_reducible apply Keeps.ofMk)
    | ((with_reducible conv => { arg 2; whnf }); (conv => { arg 2; arg 34; skip }); with_reducible apply Keeps.ofMk)

/-! ### Machine/Queue.lean -/

theorem State.ringDoorbell_keeps {s t : State} (h : Keeps s t) (q : Nat) (tail : Nat) :
    Keeps s (t.ringDoorbell q tail) := by
  unfold State.ringDoorbell
  repeat' first
    | with_reducible assumption | extract_lets | with_reducible apply State.setQueue_keeps
    | with_reducible apply State.setBits_keeps | with_reducible apply Keeps.ite

theorem execGlbQDb_keeps {s t : State} (h : Keeps s t) (p : Path) (q : Nat) (tail : Nat) :
    NextKeeps s (execGlbQDb p q tail t) := by
  unfold execGlbQDb
  repeat' first
    | with_reducible assumption | extract_lets | with_reducible apply State.ringDoorbell_keeps
    | with_reducible apply NextKeeps.next | with_reducible apply NextKeeps.ite

theorem State.writeCplHead_keeps {s t : State} (h : Keeps s t) (q : Nat) (v : Nat) :
    Keeps s (t.writeCplHead q v) := by
  unfold State.writeCplHead
  repeat' first
    | with_reducible assumption | extract_lets | with_reducible apply State.setQueue_keeps
    | with_reducible apply State.drainAborted_keeps | with_reducible apply State.setBits_keeps
    | with_reducible apply Keeps.ite

theorem execGlbQCplhead_keeps {s t : State} (h : Keeps s t) (p : Path) (q : Nat) (v : Nat) :
    NextKeeps s (execGlbQCplhead p q v t) := by
  unfold execGlbQCplhead
  repeat' first
    | with_reducible assumption | extract_lets | with_reducible apply State.writeCplHead_keeps
    | with_reducible apply NextKeeps.next | with_reducible apply NextKeeps.ite

theorem State.abortQueue_keeps {s t : State} (h : Keeps s t) (q : Nat) :
    Keeps s (t.abortQueue q) := by
  unfold State.abortQueue
  repeat' first
    | with_reducible assumption | extract_lets | exact List.suffix_refl _ | exact FusesKept.refl _
    | exact Nat.le_add_right _ _ | with_reducible exact id | with_reducible apply State.setQueue_keeps
    | with_reducible apply State.drainAborted_keeps | with_reducible apply Keeps.ite
    | ((conv => { arg 2; arg 34; skip }); with_reducible apply Keeps.ofMk)

theorem execQueueAbort_keeps {s t : State} (h : Keeps s t) (p : Path) (q : Nat) :
    NextKeeps s (execQueueAbort p q t) := by
  unfold execQueueAbort
  repeat' first
    | with_reducible assumption | extract_lets | with_reducible apply State.abortQueue_keeps
    | with_reducible apply NextKeeps.next | with_reducible apply NextKeeps.ite

theorem State.resumeQueue_keeps {s t : State} (h : Keeps s t) (q : Nat) :
    Keeps s (t.resumeQueue q) := by
  unfold State.resumeQueue
  repeat' first
    | with_reducible assumption | extract_lets | with_reducible apply State.setQueue_keeps
    | with_reducible apply Keeps.ite

theorem execQueueResume_keeps {s t : State} (h : Keeps s t) (p : Path) (q : Nat) :
    NextKeeps s (execQueueResume p q t) := by
  unfold execQueueResume
  repeat' first
    | with_reducible assumption | extract_lets | with_reducible apply State.resumeQueue_keeps
    | with_reducible apply NextKeeps.next | with_reducible apply NextKeeps.ite

theorem execGlbSem_keeps {s t : State} (h : Keeps s t) (p : Path) (n : Nat) (v : Nat) :
    NextKeeps s (execGlbSem p n v t) := by
  unfold execGlbSem
  repeat' first
    | with_reducible assumption | extract_lets | with_reducible apply State.setSem_keeps
    | with_reducible apply NextKeeps.next | with_reducible apply NextKeeps.ite

theorem execGlbSemAdd_keeps {s t : State} (h : Keeps s t) (p : Path) (n : Nat) (v : Nat) :
    NextKeeps s (execGlbSemAdd p n v t) := by
  unfold execGlbSemAdd
  repeat' first
    | with_reducible assumption | extract_lets | with_reducible apply State.semAdd_keeps
    | with_reducible apply NextKeeps.next | with_reducible apply NextKeeps.ite

theorem execCommandFetch_keeps {s t : State} (h : Keeps s t) (q : Nat) :
    NextKeeps s (execCommandFetch q t) := by
  unfold execCommandFetch
  repeat' first
    | with_reducible assumption | extract_lets | with_reducible apply State.setQueue_keeps
    | with_reducible apply State.ccRead_keeps | with_reducible apply State.bump_keeps
    | with_reducible apply NextKeeps.next | with_reducible apply NextKeeps.ite | with_reducible apply Keeps.ite

theorem State.addStreams_keeps {s t : State} (h : Keeps s t) (t' : Nat) (k : Nat) (c : Chk) :
    Keeps s (t.addStreams t' k c) := by
  unfold State.addStreams
  repeat' first
    | with_reducible assumption | extract_lets | exact List.suffix_refl _ | exact FusesKept.refl _
    | exact Nat.le_refl _ | with_reducible exact id | intro _ | with_reducible apply Keeps.foldl
    | ((conv => { arg 2; arg 34; skip }); with_reducible apply Keeps.ofMk)

theorem State.claimBank_keeps {s t : State} (h : Keeps s t) (n : Nat) (t' : Nat) (g : Nat) (addr : Int) (bytes :
      Nat) :
    OptKeeps s (t.claimBank n t' g addr bytes) := by
  unfold State.claimBank
  repeat' first
    | with_reducible assumption | extract_lets | exact List.suffix_refl _ | exact FusesKept.refl _
    | exact Nat.le_refl _ | with_reducible exact id | with_reducible apply OptKeeps.some | exact OptKeeps.none
    | ((conv => { arg 2; arg 34; skip }); with_reducible apply Keeps.ofMk) | split

theorem State.takeBank_keeps {s t : State} (h : Keeps s t) (n : Nat) (t' : Nat) (g : Nat) (reuse : Bool) (d : Desc) :
    Keeps s (t.takeBank n t' g reuse d) := by
  unfold State.takeBank
  repeat' first
    | with_reducible assumption | extract_lets | exact List.suffix_refl _ | exact FusesKept.refl _
    | exact Nat.le_refl _ | with_reducible exact id | with_reducible apply State.bump_keeps
    | with_reducible apply State.claimBank_keeps | with_reducible apply Keeps.ite
    | with_reducible refine OptKeeps.getD ?_ ?_
    | ((conv => { arg 2; arg 34; skip }); with_reducible apply Keeps.ofMk)
    | ((with_reducible conv => { arg 2; whnf }); (conv => { arg 2; arg 34; skip }); with_reducible apply Keeps.ofMk)

theorem State.startTask_keeps {s t : State} (h : Keeps s t) (q : Nat) (w : List Nat) (cs : List Chk) (ns : List Nat) :
    Keeps s (t.startTask q w cs ns) := by
  unfold State.startTask
  repeat' first
    | with_reducible assumption | extract_lets | exact List.suffix_refl _ | exact FusesKept.refl _
    | exact Nat.le_refl _ | with_reducible exact id | intro _ | with_reducible apply State.setTask_keeps
    | with_reducible apply State.takeSems_keeps | with_reducible apply State.setQueue_keeps
    | with_reducible apply State.fresh_keeps | with_reducible apply State.trace_keeps
    | with_reducible apply State.addStreams_keeps | with_reducible apply State.takeBank_keeps
    | with_reducible apply State.presentAll_keeps | with_reducible apply Keeps.foldl | with_reducible apply Keeps.ite
    | split
    | ((with_reducible conv => { arg 2; whnf }); (conv => { arg 2; arg 34; skip }); with_reducible apply Keeps.ofMk)

theorem State.failHead_keeps {s t : State} (h : Keeps s t) (q : Nat) (c : Cpl) :
    Keeps s (t.failHead q c) := by
  unfold State.failHead
  repeat' first
    | with_reducible assumption | extract_lets | with_reducible apply State.record_keeps
    | with_reducible apply State.setQueue_keeps | with_reducible apply State.recordIrq_keeps
    | with_reducible apply State.trace_keeps

theorem execCommandIssue_keeps {s t : State} (h : Keeps s t) (q : Nat) :
    NextKeeps s (execCommandIssue q t) := by
  unfold execCommandIssue
  repeat' first
    | with_reducible assumption | extract_lets | intro _ | with_reducible apply State.failHead_keeps
    | with_reducible apply State.fresh_keeps | with_reducible apply State.startTask_keeps
    | with_reducible apply NextKeeps.next | with_reducible apply NextKeeps.ite | split

theorem execNop_keeps {s t : State} (h : Keeps s t) (t' : Nat) :
    NextKeeps s (execNop t' t) := by
  unfold execNop
  repeat' first
    | with_reducible assumption | extract_lets | intro _ | with_reducible apply State.eng_keeps
    | with_reducible apply State.endStage_keeps | with_reducible apply NextKeeps.next | split

theorem State.dropTask_keeps {s t : State} (h : Keeps s t) (t' : Nat) (x : Task) :
    Keeps s (t.dropTask t' x) := by
  unfold State.dropTask
  repeat' first
    | with_reducible assumption | extract_lets | intro _ | with_reducible apply State.dropFetch_keeps
    | with_reducible apply State.pakTaskEnd_keeps | with_reducible apply State.senTaskEnd_keeps
    | with_reducible apply State.ingTaskEnd_keeps | with_reducible apply State.dropStreamsOf_keeps
    | with_reducible apply State.leaveBank_keeps | with_reducible apply State.setTask_keeps
    | with_reducible apply State.setQueue_keeps | with_reducible apply State.retireGens_keeps
    | with_reducible apply State.retryWaiting_keeps | with_reducible apply State.presentAll_keeps
    | with_reducible apply Keeps.foldl

theorem State.complete_keeps {s t : State} (h : Keeps s t) (t' : Nat) (x : Task) :
    Keeps s (t.complete t' x) := by
  unfold State.complete
  repeat' first
    | with_reducible assumption | extract_lets | exact List.suffix_refl _ | exact FusesKept.refl _
    | exact Nat.le_add_right _ _ | with_reducible exact id | intro _ | with_reducible apply State.record_keeps
    | with_reducible apply State.signal_keeps | with_reducible apply State.recordIrq_keeps
    | with_reducible apply State.gatePut_keeps | with_reducible apply State.trace_keeps
    | with_reducible apply State.dropTask_keeps | with_reducible apply Keeps.foldl | with_reducible apply Keeps.ite
    | ((conv => { arg 2; arg 34; skip }); with_reducible apply Keeps.ofMk)

theorem State.tryComplete_keeps {s t : State} (h : Keeps s t) (t' : Nat) (x : Task) :
    Keeps s (t.tryComplete t' x) := by
  unfold State.tryComplete
  repeat' first
    | with_reducible assumption | extract_lets | with_reducible apply State.setTask_keeps
    | with_reducible apply State.complete_keeps | with_reducible apply Keeps.ite

theorem execCommandComplete_keeps {s t : State} (h : Keeps s t) (t' : Nat) :
    NextKeeps s (execCommandComplete t' t) := by
  unfold execCommandComplete
  repeat' first
    | with_reducible assumption | extract_lets | with_reducible apply State.tryComplete_keeps
    | with_reducible apply NextKeeps.next | split

theorem execCompletionStallRelease_keeps {s t : State} (h : Keeps s t) (t' : Nat) :
    NextKeeps s (execCompletionStallRelease t' t) := by
  unfold execCompletionStallRelease
  repeat' first
    | with_reducible assumption | extract_lets | with_reducible apply State.tryComplete_keeps
    | with_reducible apply NextKeeps.next | with_reducible apply NextKeeps.ite | split

theorem execIrqHoldoffExpiry_keeps {s t : State} (h : Keeps s t) (q : Nat) :
    NextKeeps s (execIrqHoldoffExpiry q t) := by
  unfold execIrqHoldoffExpiry
  repeat' first
    | with_reducible assumption | extract_lets | with_reducible apply State.setQueue_keeps
    | with_reducible apply State.qIrq_keeps | with_reducible apply NextKeeps.next
    | with_reducible apply NextKeeps.ite | with_reducible apply Keeps.ite

/-! ### Machine/Str.lean -/

theorem State.setStrm_keeps {s t : State} (h : Keeps s t) (n : Nat) (x : Strm) :
    Keeps s (t.setStrm n x) := by
  unfold State.setStrm
  repeat' first
    | with_reducible assumption | extract_lets | exact List.suffix_refl _ | exact FusesKept.refl _
    | exact Nat.le_refl _ | with_reducible exact id
    | ((conv => { arg 2; arg 34; skip }); with_reducible apply Keeps.ofMk)

theorem State.grantHome_keeps {s t : State} (h : Keeps s t) (n : Nat) (x : Strm) (t' : Tr) :
    Keeps s (t.grantHome n x t') := by
  unfold State.grantHome
  repeat' first
    | with_reducible assumption | extract_lets | exact List.suffix_refl _ | exact FusesKept.refl _
    | exact Nat.le_refl _ | with_reducible exact id | intro _ | with_reducible apply State.setStrm_keeps
    | with_reducible apply State.whenB_keeps | with_reducible apply State.bump_keeps
    | with_reducible apply State.ccRead_keeps | with_reducible apply State.hostAsk_keeps
    | with_reducible apply Keeps.ite
    | ((with_reducible conv => { arg 2; whnf }); (conv => { arg 2; arg 34; skip }); with_reducible apply Keeps.ofMk)

theorem execTransferGrant_keeps {s t : State} (h : Keeps s t) (port : MemPort) :
    NextKeeps s (execTransferGrant port t) := by
  unfold execTransferGrant
  repeat' first
    | with_reducible assumption | extract_lets | with_reducible apply State.setStrm_keeps
    | with_reducible apply State.grantHome_keeps | with_reducible apply State.presentAll_keeps
    | with_reducible apply NextKeeps.next | with_reducible apply NextKeeps.ite | split

theorem execTransferDone_keeps {s t : State} (h : Keeps s t) (x : Nat) (err : MemErr) :
    NextKeeps s (execTransferDone x err t) := by
  unfold execTransferDone
  repeat' first
    | with_reducible assumption | extract_lets | exact List.suffix_refl _ | exact FusesKept.refl _
    | exact Nat.le_refl _ | with_reducible exact id | with_reducible apply State.setStrm_keeps
    | with_reducible apply State.memCe_keeps | with_reducible apply State.memUe_keeps
    | with_reducible apply State.presentAll_keeps | with_reducible apply NextKeeps.next
    | with_reducible apply NextKeeps.ite | split
    | ((with_reducible conv => { arg 2; whnf }); (conv => { arg 2; arg 34; skip }); with_reducible apply Keeps.ofMk)
    | ((with_reducible conv => { arg 2; whnf }); split)

theorem State.mapStrms_keeps {s t : State} (h : Keeps s t) (f : Strm → Strm) :
    Keeps s (t.mapStrms f) := by
  unfold State.mapStrms
  repeat' first
    | with_reducible assumption | extract_lets | exact List.suffix_refl _ | exact FusesKept.refl _
    | exact Nat.le_refl _ | with_reducible exact id
    | ((conv => { arg 2; arg 34; skip }); with_reducible apply Keeps.ofMk)

theorem execRateWindowUpdate_keeps {s t : State} (h : Keeps s t) :
    NextKeeps s (execRateWindowUpdate t) := by
  unfold execRateWindowUpdate
  repeat' first
    | with_reducible assumption | extract_lets | with_reducible apply State.mapStrms_keeps
    | with_reducible apply NextKeeps.next

theorem execBucketRefill_keeps {s t : State} (h : Keeps s t) :
    NextKeeps s (execBucketRefill t) := by
  unfold execBucketRefill
  repeat' first
    | with_reducible assumption | extract_lets | with_reducible apply State.mapStrms_keeps
    | with_reducible apply State.presentAll_keeps | with_reducible apply NextKeeps.next

theorem execQRecompute_keeps {s t : State} (h : Keeps s t) :
    NextKeeps s (execQRecompute t) := by
  unfold execQRecompute
  repeat' first
    | with_reducible assumption | extract_lets | with_reducible apply State.mapStrms_keeps
    | with_reducible apply State.bump_keeps | with_reducible apply State.presentAll_keeps
    | with_reducible apply NextKeeps.next

theorem execYieldSwitch_keeps {s t : State} (h : Keeps s t) (n : Nat) (t' : Nat) :
    NextKeeps s (execYieldSwitch n t' t) := by
  unfold execYieldSwitch
  repeat' first
    | with_reducible assumption | extract_lets | exact List.suffix_refl _ | exact FusesKept.refl _
    | exact Nat.le_refl _ | with_reducible exact id | with_reducible apply State.bump_keeps
    | with_reducible apply NextKeeps.next | with_reducible apply NextKeeps.ite
    | ((conv => { arg 2; arg 34; skip }); with_reducible apply Keeps.ofMk)

theorem State.telSat_keeps {s t : State} (h : Keeps s t) (n : Nat) (c : Nat) :
    Keeps s (t.telSat n c) := by
  unfold State.telSat
  repeat' first
    | with_reducible assumption | extract_lets | with_reducible apply State.setReg_keeps
    | with_reducible apply State.setBits_keeps | with_reducible apply State.event_keeps

theorem execTelSat_keeps {s t : State} (h : Keeps s t) (n : Nat) (c : Nat) :
    NextKeeps s (execTelSat n c t) := by
  unfold execTelSat
  repeat' first
    | with_reducible assumption | extract_lets | with_reducible apply State.telSat_keeps
    | with_reducible apply NextKeeps.next | with_reducible apply NextKeeps.ite

theorem execTileComplete_keeps {s t : State} (h : Keeps s t) (t' : Nat) (k : Nat) :
    NextKeeps s (execTileComplete t' k t) := by
  unfold execTileComplete
  repeat' first
    | with_reducible assumption | extract_lets | with_reducible apply State.setTask_keeps
    | with_reducible apply State.bump_keeps | with_reducible apply State.mapStrms_keeps
    | with_reducible apply State.presentAll_keeps | with_reducible apply NextKeeps.next
    | with_reducible apply NextKeeps.ite | split

theorem execParamLoadStart_keeps {s t : State} (h : Keeps s t) (n : Nat) (t' : Nat) :
    NextKeeps s (execParamLoadStart n t' t) := by
  unfold execParamLoadStart
  repeat' first
    | with_reducible assumption | extract_lets | with_reducible apply State.claimBank_keeps
    | with_reducible apply NextKeeps.next | with_reducible apply NextKeeps.ite
    | with_reducible refine OptKeeps.getD ?_ ?_ | split

theorem State.modBank_keeps {s t : State} (h : Keeps s t) (n : Nat) (t' : Nat) (f : Bank → Option Bank) :
    Keeps s (t.modBank n t' f) := by
  unfold State.modBank
  repeat' first
    | with_reducible assumption | extract_lets | exact List.suffix_refl _ | exact FusesKept.refl _
    | exact Nat.le_refl _ | with_reducible exact id
    | ((conv => { arg 2; arg 34; skip }); with_reducible apply Keeps.ofMk)

theorem State.parFail_keeps {s t : State} (h : Keeps s t) (n : Nat) (t' : Nat) (k : Nat) (st : Nat) :
    Keeps s (t.parFail n t' k st) := by
  unfold State.parFail
  repeat' first
    | with_reducible assumption | extract_lets | with_reducible apply State.modBank_keeps
    | with_reducible apply State.endStage_keeps

theorem State.parLoad_keeps {s t : State} (h : Keeps s t) (n : Nat) (t' : Nat) (k : Nat) (g : Stage) (key : Nat)
      (off : Nat) :
    Keeps s (t.parLoad n t' k g key off) := by
  unfold State.parLoad
  repeat' first
    | with_reducible assumption | extract_lets | with_reducible apply State.err_keeps
    | with_reducible apply State.parFail_keeps | with_reducible apply State.countPoison_keeps
    | with_reducible apply State.store_keeps | with_reducible apply State.bump_keeps
    | with_reducible apply State.modBank_keeps | with_reducible apply State.presentAll_keeps
    | with_reducible apply Keeps.ite | split

theorem execParamLoadDone_keeps {s t : State} (h : Keeps s t) (n : Nat) (t' : Nat) :
    NextKeeps s (execParamLoadDone n t' t) := by
  unfold execParamLoadDone
  repeat' first
    | with_reducible assumption | extract_lets | with_reducible apply State.parLoad_keeps
    | with_reducible apply NextKeeps.next | with_reducible apply NextKeeps.ite | split

/-! ### Machine/Stg.lean -/

theorem execStagedWrite_keeps {s t : State} (h : Keeps s t) (p : Path) (off : Nat) (v : Nat) :
    NextKeeps s (execStagedWrite p off v t) := by
  unfold execStagedWrite
  repeat' first
    | with_reducible assumption | extract_lets | with_reducible apply State.stageHalf_keeps
    | with_reducible apply NextKeeps.next | with_reducible apply NextKeeps.ite

theorem State.commitTrace_keeps {s t : State} (h : Keeps s t) (res : StgResult) (check : Nat) :
    Keeps s (t.commitTrace res check) := by
  unfold State.commitTrace
  repeat' first
    | with_reducible assumption | with_reducible apply State.trace_keeps

theorem State.commitGo_keeps {s t : State} (h : Keeps s t) (p : Path) :
    Keeps s (t.commitGo p) := by
  unfold State.commitGo
  repeat' first
    | with_reducible assumption | extract_lets | exact List.suffix_refl _ | exact FusesKept.refl _
    | exact Nat.le_refl _ | with_reducible exact id | with_reducible apply State.setBits_keeps
    | with_reducible apply Keeps.ite | ((conv => { arg 2; arg 34; skip }); with_reducible apply Keeps.ofMk)

theorem execStgCommit_keeps {s t : State} (h : Keeps s t) (p : Path) :
    NextKeeps s (execStgCommit p t) := by
  unfold execStgCommit
  repeat' first
    | with_reducible assumption | extract_lets | with_reducible apply State.commitGo_keeps
    | with_reducible apply NextKeeps.next | with_reducible apply NextKeeps.ite

theorem State.discardGo_keeps {s t : State} (h : Keeps s t) (p : Path) :
    Keeps s (t.discardGo p) := by
  unfold State.discardGo
  repeat' first
    | with_reducible assumption | extract_lets | with_reducible apply State.setBits_keeps
    | with_reducible apply State.stgRelease_keeps | with_reducible apply Keeps.ite

theorem execStgDiscard_keeps {s t : State} (h : Keeps s t) (p : Path) :
    NextKeeps s (execStgDiscard p t) := by
  unfold execStgDiscard
  repeat' first
    | with_reducible assumption | extract_lets | with_reducible apply State.discardGo_keeps
    | with_reducible apply NextKeeps.next | with_reducible apply NextKeeps.ite

theorem State.commitEnd_keeps {s t : State} (h : Keeps s t) (r : StgResult) (check : Nat) :
    Keeps s (t.commitEnd r check) := by
  unfold State.commitEnd
  repeat' first
    | with_reducible assumption | extract_lets | exact List.suffix_refl _ | exact FusesKept.refl _
    | exact Nat.le_refl _ | with_reducible exact id | with_reducible apply State.err_keeps
    | with_reducible apply State.commitTrace_keeps
    | ((conv => { arg 2; arg 34; skip }); with_reducible apply Keeps.ofMk)

theorem execCommitCheckEnd_keeps {s t : State} (h : Keeps s t) :
    NextKeeps s (execCommitCheckEnd t) := by
  unfold execCommitCheckEnd
  repeat' first
    | with_reducible assumption | extract_lets | exact List.suffix_refl _ | exact FusesKept.refl _
    | exact Nat.le_refl _ | with_reducible exact id | with_reducible apply State.commitEnd_keeps
    | with_reducible apply NextKeeps.next | with_reducible apply NextKeeps.ite
    | ((conv => { arg 2; arg 34; skip }); with_reducible apply Keeps.ofMk) | split
    | ((with_reducible conv => { arg 2; whnf }); (conv => { arg 2; arg 34; skip }); with_reducible apply Keeps.ofMk)

theorem execCommitWaitEnd_keeps {s t : State} (h : Keeps s t) :
    NextKeeps s (execCommitWaitEnd t) := by
  unfold execCommitWaitEnd
  repeat' first
    | with_reducible assumption | extract_lets | exact List.suffix_refl _ | exact FusesKept.refl _
    | exact Nat.le_refl _ | with_reducible exact id | with_reducible apply NextKeeps.next
    | with_reducible apply NextKeeps.ite | ((conv => { arg 2; arg 34; skip }); with_reducible apply Keeps.ofMk)

theorem execCommitWaitTimeout_keeps {s t : State} (h : Keeps s t) :
    NextKeeps s (execCommitWaitTimeout t) := by
  unfold execCommitWaitTimeout
  repeat' first
    | with_reducible assumption | extract_lets | with_reducible apply State.commitEnd_keeps
    | with_reducible apply NextKeeps.next | with_reducible apply NextKeeps.ite

/-! ### Machine/Apply.lean -/

theorem State.queueEnable_keeps {s t : State} (h : Keeps s t) (q : Nat) :
    Keeps s (t.queueEnable q) := by
  unfold State.queueEnable
  repeat' first
    | with_reducible assumption | extract_lets | with_reducible apply State.setQueue_keeps

theorem State.queueDisable_keeps {s t : State} (h : Keeps s t) (q : Nat) :
    Keeps s (t.queueDisable q) := by
  unfold State.queueDisable
  repeat' first
    | with_reducible assumption | extract_lets | with_reducible apply State.setQueue_keeps

theorem State.islApply_keeps {s t : State} (h : Keeps s t) (old : Tbl Word) (n : Nat) :
    Keeps s (t.islApply old n) := by
  unfold State.islApply
  repeat' first
    | with_reducible assumption | extract_lets | with_reducible apply State.retarget_keeps
    | with_reducible apply Keeps.ite

theorem State.tblSwitch_keeps {s t : State} (h : Keeps s t) (t' : Nat) :
    Keeps s (t.tblSwitch t') := by
  unfold State.tblSwitch
  repeat' first
    | with_reducible assumption | extract_lets | exact List.suffix_refl _ | exact FusesKept.refl _
    | exact Nat.le_refl _ | with_reducible exact id
    | ((conv => { arg 2; arg 34; skip }); with_reducible apply Keeps.ofMk) | (conv => { arg 2; zeta }; split)

theorem State.pinDue_keeps {s t : State} (h : Keeps s t) (t' : Nat) (p : Nat) :
    Keeps s (t.pinDue t' p) := by
  unfold State.pinDue
  repeat' first
    | with_reducible assumption | extract_lets | exact List.suffix_refl _ | exact FusesKept.refl _
    | exact Nat.le_refl _ | with_reducible exact id | with_reducible apply Keeps.ite
    | ((conv => { arg 2; arg 34; skip }); with_reducible apply Keeps.ofMk)

theorem State.pipeStart_keeps {s t : State} (h : Keeps s t) (p : Nat) :
    Keeps s (t.pipeStart p) := by
  unfold State.pipeStart
  repeat' first
    | with_reducible assumption | extract_lets | exact List.suffix_refl _ | exact FusesKept.refl _
    | exact Nat.le_refl _ | with_reducible exact id | intro _ | with_reducible apply State.leavePin_keeps
    | with_reducible apply State.newPin_keeps | with_reducible apply State.pinDue_keeps
    | with_reducible apply Keeps.foldl | with_reducible apply Keeps.ite
    | ((with_reducible conv => { arg 2; whnf }); (conv => { arg 2; arg 34; skip }); with_reducible apply Keeps.ofMk)

theorem State.pipeStop_keeps {s t : State} (h : Keeps s t) (p : Nat) :
    Keeps s (t.pipeStop p) := by
  unfold State.pipeStop
  repeat' first
    | with_reducible assumption | extract_lets | exact List.suffix_refl _ | exact FusesKept.refl _
    | exact Nat.le_refl _ | with_reducible exact id
    | ((conv => { arg 2; arg 34; skip }); with_reducible apply Keeps.ofMk)

theorem State.portApply_keeps {s t : State} (h : Keeps s t) (old : Tbl Word) (p : Nat) :
    Keeps s (t.portApply old p) := by
  unfold State.portApply
  repeat' first
    | with_reducible assumption | extract_lets | with_reducible apply State.portStart_keeps
    | with_reducible apply State.portTo_keeps | with_reducible apply Keeps.ite | split

theorem State.ethApply_keeps {s t : State} (h : Keeps s t) (old : Tbl Word) (x : Nat) :
    Keeps s (t.ethApply old x) := by
  unfold State.ethApply
  repeat' first
    | with_reducible assumption | extract_lets | intro _ | with_reducible apply State.tgtLost_keeps
    | with_reducible apply State.ethDown_keeps | with_reducible apply State.setEthPort_keeps
    | with_reducible apply Keeps.foldl | with_reducible apply Keeps.ite

theorem State.timeApply_keeps {s t : State} (h : Keeps s t) (old : Tbl Word) :
    Keeps s (t.timeApply old) := by
  unfold State.timeApply
  repeat' first
    | with_reducible assumption | extract_lets | exact List.suffix_refl _ | exact FusesKept.refl _
    | exact Nat.le_refl _ | with_reducible exact id | with_reducible apply Keeps.ite
    | ((conv => { arg 2; arg 34; skip }); with_reducible apply Keeps.ofMk)

theorem State.applyHooks_keeps {s t : State} (h : Keeps s t) (old : Tbl Word) (role : Bool) :
    Keeps s (t.applyHooks old role) := by
  unfold State.applyHooks
  repeat' first
    | with_reducible assumption | extract_lets | exact List.suffix_refl _ | exact FusesKept.refl _
    | exact Nat.le_refl _ | with_reducible exact id | intro _ | with_reducible apply State.queueEnable_keeps
    | with_reducible apply State.queueDisable_keeps | with_reducible apply State.islApply_keeps
    | with_reducible apply State.tblSwitch_keeps | with_reducible apply State.pinDue_keeps
    | with_reducible apply State.pipeStop_keeps | with_reducible apply State.pipeStart_keeps
    | with_reducible apply State.portApply_keeps | with_reducible apply State.ethApply_keeps
    | with_reducible apply State.senApply_keeps | with_reducible apply State.timeApply_keeps
    | with_reducible apply State.startRole_keeps | with_reducible apply Keeps.foldl | with_reducible apply Keeps.ite
    | ((with_reducible conv => { arg 2; whnf }); (conv => { arg 2; arg 34; skip }); with_reducible apply Keeps.ofMk)

theorem State.applyCommit_keeps {s t : State} (h : Keeps s t) :
    Keeps s (t.applyCommit) := by
  unfold State.applyCommit
  repeat' first
    | with_reducible assumption | extract_lets | exact List.suffix_refl _ | exact FusesKept.refl _
    | exact Nat.le_refl _ | with_reducible exact id | with_reducible apply State.leaveDomain_keeps
    | with_reducible apply State.stgRelease_keeps | with_reducible apply State.retireGens_keeps
    | with_reducible apply State.bump_keeps | with_reducible apply State.commitTrace_keeps
    | with_reducible apply State.applyHooks_keeps | with_reducible apply State.presentAll_keeps
    | with_reducible apply Keeps.ite
    | ((with_reducible conv => { arg 2; whnf }); (conv => { arg 2; arg 34; skip }); with_reducible apply Keeps.ofMk)

theorem execCommitApply_keeps {s t : State} (h : Keeps s t) :
    NextKeeps s (execCommitApply t) := by
  unfold execCommitApply
  repeat' first
    | with_reducible assumption | extract_lets | with_reducible apply State.applyCommit_keeps
    | with_reducible apply NextKeeps.next | with_reducible apply NextKeeps.ite

/-! ### Machine/Azm.lean -/

theorem execGlbAzmGo_keeps {s t : State} (h : Keeps s t) (p : Path) :
    NextKeeps s (execGlbAzmGo p t) := by
  unfold execGlbAzmGo
  repeat' first
    | with_reducible assumption | extract_lets | exact List.suffix_refl _ | exact FusesKept.refl _
    | exact Nat.le_refl _ | with_reducible exact id | with_reducible apply NextKeeps.next
    | with_reducible apply NextKeeps.ite | ((conv => { arg 2; arg 34; skip }); with_reducible apply Keeps.ofMk)

theorem State.answer_keeps {s t : State} (h : Keeps s t) (p : Path) (size : Nat) (v : Nat) :
    Keeps s (t.answer p size v) := by
  unfold State.answer
  repeat' first
    | with_reducible assumption | extract_lets | exact List.suffix_refl _ | exact FusesKept.refl _
    | exact Nat.le_refl _ | with_reducible exact id | with_reducible apply State.emit_keeps
    | ((conv => { arg 2; arg 34; skip }); with_reducible apply Keeps.ofMk) | split

theorem State.latch_keeps {s t : State} (h : Keeps s t) (p : Path) (a : Nat) (hi : Half) :
    Keeps s (t.latch p a hi) := by
  unfold State.latch
  repeat' first
    | with_reducible assumption | extract_lets | exact List.suffix_refl _ | exact FusesKept.refl _
    | exact Nat.le_refl _ | with_reducible exact id
    | ((conv => { arg 2; arg 34; skip }); with_reducible apply Keeps.ofMk) | split

theorem State.answerHeld_keeps {s t : State} (h : Keeps s t) (h' : HeldRead) :
    Keeps s (t.answerHeld h') := by
  unfold State.answerHeld
  repeat' first
    | with_reducible assumption | extract_lets | with_reducible apply State.answer_keeps
    | with_reducible apply State.latch_keeps | with_reducible apply Keeps.ite

theorem execAzmBlockReady_keeps {s t : State} (h : Keeps s t) :
    NextKeeps s (execAzmBlockReady t) := by
  unfold execAzmBlockReady
  repeat' first
    | with_reducible assumption | extract_lets | exact List.suffix_refl _ | exact FusesKept.refl _
    | exact Nat.le_refl _ | with_reducible exact id | intro _ | with_reducible apply State.answerHeld_keeps
    | with_reducible apply NextKeeps.next | with_reducible apply Keeps.foldl | split
    | ((with_reducible conv => { arg 2; whnf }); (conv => { arg 2; arg 34; skip }); with_reducible apply Keeps.ofMk)

/-! ### Machine/Dbg.lean -/

theorem State.tapDo_keeps {s t : State} (h : Keeps s t) (f : Dbg → Dbg) :
    Keeps s (t.tapDo f) := by
  unfold State.tapDo
  repeat' first
    | with_reducible assumption | extract_lets | exact List.suffix_refl _ | exact FusesKept.refl _
    | exact Nat.le_refl _ | with_reducible exact id | with_reducible apply Keeps.ite
    | ((conv => { arg 2; arg 34; skip }); with_reducible apply Keeps.ofMk)

theorem execTapIdcode_keeps {s t : State} (h : Keeps s t) :
    NextKeeps s (execTapIdcode t) := by
  unfold execTapIdcode
  repeat' first
    | with_reducible assumption | extract_lets | with_reducible apply State.tapDo_keeps
    | with_reducible apply State.emit_keeps | with_reducible apply NextKeeps.next | with_reducible apply Keeps.ite

theorem execSamplePreload_keeps {s t : State} (h : Keeps s t) (sample : List Bool) (preload : List Bool) :
    NextKeeps s (execSamplePreload sample preload t) := by
  unfold execSamplePreload
  repeat' first
    | with_reducible assumption | extract_lets | with_reducible apply State.tapDo_keeps
    | with_reducible apply State.emit_keeps | with_reducible apply NextKeeps.next | with_reducible apply Keeps.ite

theorem execExtest_keeps {s t : State} (h : Keeps s t) (boundary : List Bool) :
    NextKeeps s (execExtest boundary t) := by
  unfold execExtest
  repeat' first
    | with_reducible assumption | extract_lets | with_reducible apply State.tapDo_keeps
    | with_reducible apply NextKeeps.next

theorem execClamp_keeps {s t : State} (h : Keeps s t) :
    NextKeeps s (execClamp t) := by
  unfold execClamp
  repeat' first
    | with_reducible assumption | extract_lets | with_reducible apply State.tapDo_keeps
    | with_reducible apply NextKeeps.next

theorem execHighz_keeps {s t : State} (h : Keeps s t) :
    NextKeeps s (execHighz t) := by
  unfold execHighz
  repeat' first
    | with_reducible assumption | extract_lets | with_reducible apply State.tapDo_keeps
    | with_reducible apply NextKeeps.next

theorem execBypass_keeps {s t : State} (h : Keeps s t) :
    NextKeeps s (execBypass t) := by
  unfold execBypass
  repeat' first
    | with_reducible assumption | extract_lets | with_reducible apply State.tapDo_keeps
    | with_reducible apply NextKeeps.next

theorem execTapReset_keeps {s t : State} (h : Keeps s t) :
    NextKeeps s (execTapReset t) := by
  unfold execTapReset
  repeat' first
    | with_reducible assumption | extract_lets | with_reducible apply State.tapDo_keeps
    | with_reducible apply NextKeeps.next

theorem State.setHalt_keeps {s t : State} (h : Keeps s t) (n : Nat) (h' : HaltState) :
    Keeps s (t.setHalt n h') := by
  unfold State.setHalt
  repeat' first
    | with_reducible assumption | extract_lets | exact List.suffix_refl _ | exact FusesKept.refl _
    | exact Nat.le_refl _ | with_reducible exact id
    | ((conv => { arg 2; arg 34; skip }); with_reducible apply Keeps.ofMk)

theorem State.haltBit_keeps {s t : State} (h : Keeps s t) (n : Nat) (on : Bool) :
    Keeps s (t.haltBit n on) := by
  unfold State.haltBit
  repeat' first
    | with_reducible assumption | extract_lets | exact List.suffix_refl _ | exact FusesKept.refl _
    | exact Nat.le_refl _ | with_reducible exact id | with_reducible apply State.setHalt_keeps
    | with_reducible apply Keeps.ite | ((conv => { arg 2; arg 34; skip }); with_reducible apply Keeps.ofMk) | split

theorem State.writeHaltInst_keeps {s t : State} (h : Keeps s t) (v : Nat) :
    Keeps s (t.writeHaltInst v) := by
  unfold State.writeHaltInst
  repeat' first
    | with_reducible assumption | extract_lets | intro _ | with_reducible apply State.setReg_keeps
    | with_reducible apply State.haltBit_keeps | with_reducible apply State.retryWaiting_keeps
    | with_reducible apply Keeps.foldl

theorem execDbgHaltInst_keeps {s t : State} (h : Keeps s t) (p : Path) (v : Nat) :
    NextKeeps s (execDbgHaltInst p v t) := by
  unfold execDbgHaltInst
  repeat' first
    | with_reducible assumption | extract_lets | with_reducible apply State.writeHaltInst_keeps
    | with_reducible apply NextKeeps.next | with_reducible apply NextKeeps.ite

theorem execDbgHaltQ_keeps {s t : State} (h : Keeps s t) (p : Path) (j : Nat) (v : Nat) :
    NextKeeps s (execDbgHaltQ p j v t) := by
  unfold execDbgHaltQ
  repeat' first
    | with_reducible assumption | extract_lets | with_reducible apply State.setReg_keeps
    | with_reducible apply NextKeeps.next | with_reducible apply NextKeeps.ite

theorem execInstanceHalted_keeps {s t : State} (h : Keeps s t) (n : Nat) :
    NextKeeps s (execInstanceHalted n t) := by
  unfold execInstanceHalted
  repeat' first
    | with_reducible assumption | extract_lets | with_reducible apply State.setHalt_keeps
    | with_reducible apply NextKeeps.next | with_reducible apply NextKeeps.ite

/-! ### Machine/Tel.lean -/

theorem execTraceRecordWrite_keeps {s t : State} (h : Keeps s t) :
    NextKeeps s (execTraceRecordWrite t) := by
  unfold execTraceRecordWrite
  repeat' first
    | with_reducible assumption | extract_lets | exact List.suffix_refl _ | exact FusesKept.refl _
    | exact Nat.le_refl _ | with_reducible exact id | with_reducible apply NextKeeps.next
    | with_reducible apply NextKeeps.ite | ((conv => { arg 2; arg 34; skip }); with_reducible apply Keeps.ofMk)
    | split

theorem execTelTraceMark_keeps {s t : State} (h : Keeps s t) (p : Path) (v : Nat) :
    NextKeeps s (execTelTraceMark p v t) := by
  unfold execTelTraceMark
  repeat' first
    | with_reducible assumption | extract_lets | with_reducible apply State.trace_keeps
    | with_reducible apply NextKeeps.next | with_reducible apply NextKeeps.ite

theorem execTelTraceCtl_keeps {s t : State} (h : Keeps s t) (p : Path) (run : Bool) :
    NextKeeps s (execTelTraceCtl p run t) := by
  unfold execTelTraceCtl
  repeat' first
    | with_reducible assumption | extract_lets | exact List.suffix_refl _ | exact FusesKept.refl _
    | exact Nat.le_refl _ | with_reducible exact id | with_reducible apply State.setReg_keeps
    | with_reducible apply NextKeeps.next | with_reducible apply NextKeeps.ite
    | ((conv => { arg 2; arg 34; skip }); with_reducible apply Keeps.ofMk)

theorem State.bistReq_keeps {s t : State} (h : Keeps s t) (p : Path) (valid : Bool) (units : List Nat) (doms : List
      Nat) (f : State → State) (hf : ∀ u, Keeps s u → Keeps s (f u)) :
    Keeps s (t.bistReq p valid units doms f) := by
  unfold State.bistReq
  repeat' first
    | with_reducible assumption | extract_lets | apply hf | exact List.suffix_refl _ | exact FusesKept.refl _
    | exact Nat.le_refl _ | with_reducible exact id | with_reducible apply State.setBits_keeps
    | with_reducible apply State.bistEnd_keeps | with_reducible apply Keeps.ite
    | ((conv => { arg 2; arg 34; skip }); with_reducible apply Keeps.ofMk)

theorem State.bistStart_keeps {s t : State} (h : Keeps s t) (scope : List Nat) (island : Nat) :
    Keeps s (t.bistStart scope island) := by
  unfold State.bistStart
  repeat' first
    | with_reducible assumption | extract_lets | exact List.suffix_refl _ | exact FusesKept.refl _
    | exact Nat.le_refl _ | with_reducible exact id
    | ((conv => { arg 2; arg 34; skip }); with_reducible apply Keeps.ofMk)

theorem execInstanceTest_keeps {s t : State} (h : Keeps s t) (p : Path) (target : Nat) :
    NextKeeps s (execInstanceTest p target t) := by
  unfold execInstanceTest
  repeat' first
    | with_reducible assumption | extract_lets | intro _ | with_reducible apply State.bistReq_keeps
    | with_reducible apply State.bistStart_keeps | with_reducible apply NextKeeps.next

theorem execIslandTest_keeps {s t : State} (h : Keeps s t) (p : Path) (target : Nat) :
    NextKeeps s (execIslandTest p target t) := by
  unfold execIslandTest
  repeat' first
    | with_reducible assumption | extract_lets | intro _ | with_reducible apply State.bistReq_keeps
    | with_reducible apply State.bistStart_keeps | with_reducible apply NextKeeps.next

theorem execBistDrained_keeps {s t : State} (h : Keeps s t) :
    NextKeeps s (execBistDrained t) := by
  unfold execBistDrained
  repeat' first
    | with_reducible assumption | extract_lets | exact List.suffix_refl _ | exact FusesKept.refl _
    | exact Nat.le_refl _ | with_reducible exact id | intro _ | with_reducible apply State.setUnit_keeps
    | with_reducible apply NextKeeps.next | with_reducible apply NextKeeps.ite | with_reducible apply Keeps.foldl
    | ((conv => { arg 2; arg 34; skip }); with_reducible apply Keeps.ofMk)

theorem execBistDeferred_keeps {s t : State} (h : Keeps s t) :
    NextKeeps s (execBistDeferred t) := by
  unfold execBistDeferred
  repeat' first
    | with_reducible assumption | extract_lets | with_reducible apply State.bistEnd_keeps
    | with_reducible apply State.retryWaiting_keeps | with_reducible apply NextKeeps.next
    | with_reducible apply NextKeeps.ite

theorem execBistTestDone_keeps {s t : State} (h : Keeps s t) (fails : List (Nat × Nat)) :
    NextKeeps s (execBistTestDone fails t) := by
  unfold execBistTestDone
  repeat' first
    | with_reducible assumption | extract_lets | intro _ | with_reducible apply State.setUnit_keeps
    | with_reducible apply State.dropBanks_keeps | with_reducible apply State.bayLose_keeps
    | with_reducible apply State.bistEnd_keeps | with_reducible apply State.faultUnit_keeps
    | with_reducible apply State.retryWaiting_keeps | with_reducible apply NextKeeps.next
    | with_reducible apply NextKeeps.ite | with_reducible apply Keeps.foldl | (conv => { arg 2; zeta }; split)

theorem execSerdesRecal_keeps {s t : State} (h : Keeps s t) (p : Path) (target : Nat) :
    NextKeeps s (execSerdesRecal p target t) := by
  unfold execSerdesRecal
  repeat' first
    | with_reducible assumption | extract_lets | exact List.suffix_refl _ | exact FusesKept.refl _
    | exact Nat.le_refl _ | with_reducible exact id | intro _ | with_reducible apply State.bistReq_keeps
    | with_reducible apply State.setLane_keeps | with_reducible apply NextKeeps.next | with_reducible apply Keeps.ite
    | ((with_reducible conv => { arg 2; whnf }); (conv => { arg 2; arg 34; skip }); with_reducible apply Keeps.ofMk)

theorem execSerdesRecalDone_keeps {s t : State} (h : Keeps s t) (eyeH : Nat) (eyeW : Nat) :
    NextKeeps s (execSerdesRecalDone eyeH eyeW t) := by
  unfold execSerdesRecalDone
  repeat' first
    | with_reducible assumption | extract_lets | with_reducible apply State.sliceSwap_keeps
    | with_reducible apply State.setLane_keeps | with_reducible apply State.bistEnd_keeps
    | with_reducible apply NextKeeps.next | with_reducible apply NextKeeps.ite | split

/-! ### Machine/Vault.lean -/

theorem execGetStatus_keeps {s t : State} (h : Keeps s t) (dbg : Bool) :
    NextKeeps s (execGetStatus dbg t) := by
  unfold execGetStatus
  repeat' first
    | with_reducible assumption | extract_lets | intro _ | with_reducible apply State.serve_keeps
    | with_reducible apply State.mbxRespond_keeps | with_reducible apply NextKeeps.next

theorem execAuthBegin_keeps {s t : State} (h : Keeps s t) (dbg : Bool) :
    NextKeeps s (execAuthBegin dbg t) := by
  unfold execAuthBegin
  repeat' first
    | with_reducible assumption | extract_lets | intro _ | with_reducible apply State.serve_keeps
    | with_reducible apply State.mbxRespond_keeps | with_reducible apply State.draw_keeps
    | with_reducible apply State.setVpath_keeps | with_reducible apply NextKeeps.next
    | with_reducible apply Keeps.ite

theorem execAuthProve_keeps {s t : State} (h : Keeps s t) (dbg : Bool) :
    NextKeeps s (execAuthProve dbg t) := by
  unfold execAuthProve
  repeat' first
    | with_reducible assumption | extract_lets | intro _ | with_reducible apply State.serve_keeps
    | with_reducible apply State.mbxRespond_keeps | with_reducible apply State.setVpath_keeps
    | with_reducible apply State.err_keeps | with_reducible apply NextKeeps.next | with_reducible apply Keeps.ite

theorem execLogout_keeps {s t : State} (h : Keeps s t) (dbg : Bool) :
    NextKeeps s (execLogout dbg t) := by
  unfold execLogout
  repeat' first
    | with_reducible assumption | extract_lets | intro _ | with_reducible apply State.serve_keeps
    | with_reducible apply State.setVpath_keeps | with_reducible apply State.mbxRespond_keeps
    | with_reducible apply NextKeeps.next

theorem execKekImport_keeps {s t : State} (h : Keeps s t) (dbg : Bool) :
    NextKeeps s (execKekImport dbg t) := by
  unfold execKekImport
  repeat' first
    | with_reducible assumption | extract_lets | exact List.suffix_refl _ | exact FusesKept.refl _
    | exact Nat.le_refl _ | with_reducible exact id | intro _ | with_reducible apply State.serve_keeps
    | with_reducible apply State.mbxRespond_keeps | with_reducible apply NextKeeps.next
    | with_reducible apply Keeps.ite | ((conv => { arg 2; arg 34; skip }); with_reducible apply Keeps.ofMk) | split

theorem execKekDestroy_keeps {s t : State} (h : Keeps s t) (dbg : Bool) :
    NextKeeps s (execKekDestroy dbg t) := by
  unfold execKekDestroy
  repeat' first
    | with_reducible assumption | extract_lets | exact List.suffix_refl _ | exact FusesKept.refl _
    | exact Nat.le_refl _ | with_reducible exact id | intro _ | with_reducible apply State.serve_keeps
    | with_reducible apply State.mbxRespond_keeps | with_reducible apply NextKeeps.next
    | with_reducible apply Keeps.ite | ((conv => { arg 2; arg 34; skip }); with_reducible apply Keeps.ofMk)

theorem execKeyLoad_keeps {s t : State} (h : Keeps s t) (dbg : Bool) :
    NextKeeps s (execKeyLoad dbg t) := by
  unfold execKeyLoad
  repeat' first
    | with_reducible assumption | extract_lets | exact List.suffix_refl _ | exact FusesKept.refl _
    | exact Nat.le_refl _ | with_reducible exact id | intro _ | with_reducible apply State.serve_keeps
    | with_reducible apply State.mbxRespond_keeps | with_reducible apply NextKeeps.next
    | with_reducible apply Keeps.ite | split
    | ((with_reducible conv => { arg 2; whnf }); (conv => { arg 2; arg 34; skip }); with_reducible apply Keeps.ofMk)

theorem execKeyDestroy_keeps {s t : State} (h : Keeps s t) (dbg : Bool) :
    NextKeeps s (execKeyDestroy dbg t) := by
  unfold execKeyDestroy
  repeat' first
    | with_reducible assumption | extract_lets | exact List.suffix_refl _ | exact FusesKept.refl _
    | exact Nat.le_refl _ | with_reducible exact id | intro _ | with_reducible apply State.serve_keeps
    | with_reducible apply State.mbxRespond_keeps | with_reducible apply NextKeeps.next
    | with_reducible apply Keeps.ite
    | ((with_reducible conv => { arg 2; whnf }); (conv => { arg 2; arg 34; skip }); with_reducible apply Keeps.ofMk)

theorem execKeyQuery_keeps {s t : State} (h : Keeps s t) (dbg : Bool) :
    NextKeeps s (execKeyQuery dbg t) := by
  unfold execKeyQuery
  repeat' first
    | with_reducible assumption | extract_lets | intro _ | with_reducible apply State.serve_keeps
    | with_reducible apply State.mbxRespond_keeps | with_reducible apply NextKeeps.next
    | with_reducible apply Keeps.ite

theorem execGetRandom_keeps {s t : State} (h : Keeps s t) (dbg : Bool) :
    NextKeeps s (execGetRandom dbg t) := by
  unfold execGetRandom
  repeat' first
    | with_reducible assumption | extract_lets | intro _ | with_reducible apply State.serve_keeps
    | with_reducible apply State.mbxRespond_keeps | with_reducible apply State.draw_keeps
    | with_reducible apply NextKeeps.next | with_reducible apply Keeps.ite

theorem State.setFuses_keeps {s t : State} (h : Keeps s t) (f : Fuses) (hf : FusesKept t.vlt.fuses f) :
    Keeps s (t.setFuses f) :=
  ⟨h.pending, h.outs, h.free, h.fuses.trans hf, h.mem, h.regs, h.flash, h.host⟩

theorem FusesKept.putKey {f : Fuses} {i : Nat} {k : List Byte} (h : ¬(tget none f.imgKey i).isSome = true) :
    FusesKept f { f with imgKey := tset none f.imgKey i (some k) } where
  imgKey j x e := by
    by_cases hj : i = j
    · subst hj; simp [e] at h
    · exact (tget_tset_ne (d := none) (d' := none) f.imgKey (some k) hj).trans e
  imgRevoked _ e := e
  svn := Nat.le_refl _
  ownerSet := id
  ownerKey _ := rfl
  debugLock := id
  approved := id
  decommissioned := id

theorem svn_le_of_not {a b c : Nat} (h : ¬(decide (b > a) || decide (b < c)) = true) : c ≤ b := by
  simp at h; omega

theorem left_of_not_or {a b : Bool} (h : ¬(a || b) = true) : ¬a = true := by
  simp at h; simp [h.1]

theorem FusesKept.revoke (f : Fuses) (i : Nat) :
    FusesKept f { f with imgRevoked := tset false f.imgRevoked i true } where
  imgKey _ _ e := e
  imgRevoked j e := by
    by_cases hj : i = j
    · subst hj; exact tget_tins_same _ _ _
    · exact (tget_tset_ne (d := false) (d' := false) f.imgRevoked true hj).trans e
  svn := Nat.le_refl _
  ownerSet := id
  ownerKey _ := rfl
  debugLock := id
  approved := id
  decommissioned := id

theorem execFuseImageKey_keeps {s t : State} (h : Keeps s t) (dbg : Bool) :
    NextKeeps s (execFuseImageKey dbg t) := by
  unfold execFuseImageKey
  repeat' first
    | with_reducible assumption | extract_lets | exact FusesKept.putKey (by assumption) | intro _
    | with_reducible apply State.serve_keeps | with_reducible apply State.mbxRespond_keeps
    | with_reducible apply State.setFuses_keeps | with_reducible apply NextKeeps.next | split

theorem execRevokeImageKey_keeps {s t : State} (h : Keeps s t) (dbg : Bool) :
    NextKeeps s (execRevokeImageKey dbg t) := by
  unfold execRevokeImageKey
  repeat' first
    | with_reducible assumption | extract_lets | exact FusesKept.revoke _ _ | intro _
    | with_reducible apply State.serve_keeps | with_reducible apply State.mbxRespond_keeps
    | with_reducible apply State.setFuses_keeps | with_reducible apply NextKeeps.next
    | with_reducible apply Keeps.ite

theorem execAdvanceSvn_keeps {s t : State} (h : Keeps s t) (dbg : Bool) :
    NextKeeps s (execAdvanceSvn dbg t) := by
  unfold execAdvanceSvn
  repeat' first
    | with_reducible assumption | extract_lets
    | exact ⟨fun _ _ e => e, fun _ e => e, svn_le_of_not (by assumption), id, fun _ => rfl, id, id, id⟩ | intro _
    | with_reducible apply State.serve_keeps | with_reducible apply State.mbxRespond_keeps
    | with_reducible apply State.setFuses_keeps | with_reducible apply NextKeeps.next | split

theorem execLockDebug_keeps {s t : State} (h : Keeps s t) (dbg : Bool) :
    NextKeeps s (execLockDebug dbg t) := by
  unfold execLockDebug
  repeat' first
    | with_reducible assumption | extract_lets
    | exact ⟨fun _ _ e => e, fun _ e => e, Nat.le_refl _, id, fun _ => rfl, fun _ => rfl, id, id⟩ | intro _
    | with_reducible apply State.serve_keeps | with_reducible apply State.setFuses_keeps
    | with_reducible apply State.mbxRespond_keeps | with_reducible apply NextKeeps.next

theorem execFuseOwnerKey_keeps {s t : State} (h : Keeps s t) (dbg : Bool) :
    NextKeeps s (execFuseOwnerKey dbg t) := by
  unfold execFuseOwnerKey
  repeat' first
    | with_reducible assumption | extract_lets
    | exact ⟨fun _ _ e => e, fun _ e => e, Nat.le_refl _, fun _ => rfl, fun e => absurd e (left_of_not_or (by assumption)), id, id, id⟩
    | intro _ | with_reducible apply State.serve_keeps | with_reducible apply State.mbxRespond_keeps
    | with_reducible apply State.setFuses_keeps | with_reducible apply NextKeeps.next | split

theorem execSetApproved_keeps {s t : State} (h : Keeps s t) (dbg : Bool) :
    NextKeeps s (execSetApproved dbg t) := by
  unfold execSetApproved
  repeat' first
    | with_reducible assumption | extract_lets
    | exact ⟨fun _ _ e => e, fun _ e => e, Nat.le_refl _, id, fun _ => rfl, id, fun _ => rfl, id⟩ | intro _
    | with_reducible apply State.serve_keeps | with_reducible apply State.setFuses_keeps
    | with_reducible apply State.mbxRespond_keeps | with_reducible apply NextKeeps.next
    | with_reducible apply Keeps.ite

theorem execZeroise_keeps {s t : State} (h : Keeps s t) (dbg : Bool) :
    NextKeeps s (execZeroise dbg t) := by
  unfold execZeroise
  repeat' first
    | with_reducible assumption | extract_lets | exact List.suffix_refl _ | exact FusesKept.refl _
    | exact Nat.le_refl _ | with_reducible exact id | intro _ | with_reducible apply State.serve_keeps
    | with_reducible apply State.mbxRespond_keeps | with_reducible apply NextKeeps.next
    | ((conv => { arg 2; arg 34; skip }); with_reducible apply Keeps.ofMk)

theorem execTamperClear_keeps {s t : State} (h : Keeps s t) (dbg : Bool) (active : Nat) :
    NextKeeps s (execTamperClear dbg active t) := by
  unfold execTamperClear
  repeat' first
    | with_reducible assumption | extract_lets | exact List.suffix_refl _ | exact FusesKept.refl _
    | exact Nat.le_refl _ | with_reducible exact id | intro _ | with_reducible apply State.serve_keeps
    | with_reducible apply State.mbxRespond_keeps | with_reducible apply NextKeeps.next
    | with_reducible apply Keeps.ite | ((conv => { arg 2; arg 34; skip }); with_reducible apply Keeps.ofMk)

theorem execDecommission_keeps {s t : State} (h : Keeps s t) (dbg : Bool) :
    NextKeeps s (execDecommission dbg t) := by
  unfold execDecommission
  repeat' first
    | with_reducible assumption | extract_lets | exact List.suffix_refl _ | exact FusesKept.refl _
    | exact Nat.le_refl _ | with_reducible exact id
    | exact ⟨fun _ _ e => e, fun _ e => e, Nat.le_refl _, id, fun _ => rfl, id, id, fun _ => rfl⟩ | intro _
    | with_reducible apply State.serve_keeps | with_reducible apply State.setFuses_keeps
    | with_reducible apply State.mbxRespond_keeps | with_reducible apply NextKeeps.next
    | ((conv => { arg 2; arg 34; skip }); with_reducible apply Keeps.ofMk)

theorem execSelfTest_keeps {s t : State} (h : Keeps s t) (dbg : Bool) (pass : Bool) :
    NextKeeps s (execSelfTest dbg pass t) := by
  unfold execSelfTest
  repeat' first
    | with_reducible assumption | extract_lets | exact List.suffix_refl _ | exact FusesKept.refl _
    | exact Nat.le_refl _ | with_reducible exact id | intro _ | with_reducible apply State.serve_keeps
    | with_reducible apply State.mbxRespond_keeps | with_reducible apply State.vaultError_keeps
    | with_reducible apply NextKeeps.next | with_reducible apply Keeps.ite
    | ((conv => { arg 2; arg 34; skip }); with_reducible apply Keeps.ofMk)

theorem execMailboxUnknownService_keeps {s t : State} (h : Keeps s t) (dbg : Bool) :
    NextKeeps s (execMailboxUnknownService dbg t) := by
  unfold execMailboxUnknownService
  repeat' first
    | with_reducible assumption | extract_lets | with_reducible apply State.mbxRespond_keeps
    | with_reducible apply NextKeeps.next | with_reducible apply NextKeeps.ite

theorem execSessionIdleTimeout_keeps {s t : State} (h : Keeps s t) (dbg : Bool) :
    NextKeeps s (execSessionIdleTimeout dbg t) := by
  unfold execSessionIdleTimeout
  repeat' first
    | with_reducible assumption | extract_lets | with_reducible apply State.setVpath_keeps
    | with_reducible apply NextKeeps.next

theorem execAuthLockoutEnd_keeps {s t : State} (h : Keeps s t) (dbg : Bool) :
    NextKeeps s (execAuthLockoutEnd dbg t) := by
  unfold execAuthLockoutEnd
  repeat' first
    | with_reducible assumption | extract_lets | with_reducible apply State.setVpath_keeps
    | with_reducible apply NextKeeps.next

theorem execDrbgReseed_keeps {s t : State} (h : Keeps s t) :
    NextKeeps s (execDrbgReseed t) := by
  unfold execDrbgReseed
  repeat' first
    | with_reducible assumption | extract_lets | exact List.suffix_refl _ | exact FusesKept.refl _
    | exact Nat.le_refl _ | with_reducible exact id | with_reducible apply NextKeeps.next
    | ((conv => { arg 2; arg 34; skip }); with_reducible apply Keeps.ofMk)

theorem execEntropyHealthFail_keeps {s t : State} (h : Keeps s t) :
    NextKeeps s (execEntropyHealthFail t) := by
  unfold execEntropyHealthFail
  repeat' first
    | with_reducible assumption | extract_lets | with_reducible apply State.vaultError_keeps
    | with_reducible apply NextKeeps.next | with_reducible apply NextKeeps.ite

theorem execTamperEvent_keeps {s t : State} (h : Keeps s t) (source : Fin 4) :
    NextKeeps s (execTamperEvent source t) := by
  unfold execTamperEvent
  repeat' first
    | with_reducible assumption | extract_lets | exact List.suffix_refl _ | exact FusesKept.refl _
    | exact Nat.le_refl _ | with_reducible exact id | with_reducible apply State.faultC3_keeps
    | with_reducible apply State.setBits_keeps | with_reducible apply NextKeeps.next
    | with_reducible apply NextKeeps.ite | with_reducible apply Keeps.ite
    | ((conv => { arg 2; arg 34; skip }); with_reducible apply Keeps.ofMk)
    | ((with_reducible conv => { arg 2; whnf }); (conv => { arg 2; arg 34; skip }); with_reducible apply Keeps.ofMk)

end Sys2Proof.Machine
end

