-- ==== Sys2Proof/Laws/KeepsHost.lean ====
section
/-!
SUPPORT. `Keeps` for power, the host interface, register accesses, pins and the tick:
one lemma per operation and one per meaning.
-/

namespace Sys2Proof.Machine

/-! ### Machine/Pwr.lean -/

theorem State.domReqWrite_keeps {s t : State} (h : Keeps s t) (host : Bool) (d : Nat) (on : Bool) :
    Keeps s (t.domReqWrite host d on) := by
  unfold State.domReqWrite
  repeat' first
    | with_reducible assumption | extract_lets | with_reducible apply State.setDomReq_keeps
    | with_reducible apply State.domTo_keeps | with_reducible apply State.offRequest_keeps | split

theorem execPwrDomReq_keeps {s t : State} (h : Keeps s t) (p : Path) (d : Nat) (on : Bool) :
    NextKeeps s (execPwrDomReq p d on t) := by
  unfold execPwrDomReq
  repeat' first
    | with_reducible assumption | extract_lets | with_reducible apply State.domReqWrite_keeps
    | with_reducible apply State.pakSync_keeps | with_reducible apply State.bistSync_keeps
    | with_reducible apply NextKeeps.next | with_reducible apply NextKeeps.ite

theorem execDomainPoweringStart_keeps {s t : State} (h : Keeps s t) (d : Nat) :
    NextKeeps s (execDomainPoweringStart d t) := by
  unfold execDomainPoweringStart
  repeat' first
    | with_reducible assumption | extract_lets | with_reducible apply State.domTo_keeps
    | with_reducible apply NextKeeps.next | with_reducible apply NextKeeps.ite

theorem execDomainPowerOnDone_keeps {s t : State} (h : Keeps s t) (d : Nat) :
    NextKeeps s (execDomainPowerOnDone d t) := by
  unfold execDomainPowerOnDone
  repeat' first
    | with_reducible assumption | extract_lets | intro _ | with_reducible apply State.domTo_keeps
    | with_reducible apply State.domGain_keeps | with_reducible apply State.whenB_keeps
    | with_reducible apply State.senGain_keeps | with_reducible apply State.offRequest_keeps
    | with_reducible apply State.pakSync_keeps | with_reducible apply State.bistSync_keeps
    | with_reducible apply State.retryWaiting_keeps | with_reducible apply NextKeeps.next
    | with_reducible apply NextKeeps.ite | with_reducible apply Keeps.ite

theorem State.domToOff_keeps {s t : State} (h : Keeps s t) (d : Nat) :
    Keeps s (t.domToOff d) := by
  unfold State.domToOff
  repeat' first
    | with_reducible assumption | extract_lets | with_reducible apply State.domLose_keeps
    | with_reducible apply State.domTo_keeps

theorem execDomainDrainDone_keeps {s t : State} (h : Keeps s t) (d : Nat) :
    NextKeeps s (execDomainDrainDone d t) := by
  unfold execDomainDrainDone
  repeat' first
    | with_reducible assumption | extract_lets | with_reducible apply State.domToOff_keeps
    | with_reducible apply State.pakSync_keeps | with_reducible apply State.bistSync_keeps
    | with_reducible apply NextKeeps.next | with_reducible apply NextKeeps.ite

theorem execDrainLimitExpiry_keeps {s t : State} (h : Keeps s t) (d : Nat) :
    NextKeeps s (execDrainLimitExpiry d t) := by
  unfold execDrainLimitExpiry
  repeat' first
    | with_reducible assumption | extract_lets | with_reducible apply State.domTo_keeps
    | with_reducible apply State.setDomReq_keeps | with_reducible apply NextKeeps.next
    | with_reducible apply NextKeeps.ite

theorem execDomainPowerOffDone_keeps {s t : State} (h : Keeps s t) (d : Nat) :
    NextKeeps s (execDomainPowerOffDone d t) := by
  unfold execDomainPowerOffDone
  repeat' first
    | with_reducible assumption | extract_lets | with_reducible apply State.domTo_keeps
    | with_reducible apply NextKeeps.next

theorem execDomainOffScanDone_keeps {s t : State} (h : Keeps s t) (d : Nat) :
    NextKeeps s (execDomainOffScanDone d t) := by
  unfold execDomainOffScanDone
  repeat' first
    | with_reducible assumption | extract_lets | with_reducible apply State.refuseOff_keeps
    | with_reducible apply State.beginDrain_keeps | with_reducible apply NextKeeps.next
    | with_reducible apply NextKeeps.ite

theorem State.wake_keeps {s t : State} (h : Keeps s t) :
    Keeps s (t.wake) := by
  unfold State.wake
  repeat' first
    | with_reducible assumption | extract_lets | exact List.suffix_refl _ | exact FusesKept.refl _
    | exact Nat.le_refl _ | with_reducible exact id
    | ((conv => { arg 2; arg 34; skip }); with_reducible apply Keeps.ofMk)

theorem execStandbyRailUp_keeps {s t : State} (h : Keeps s t) (vaultOk : Bool) :
    NextKeeps s (execStandbyRailUp vaultOk t) := by
  unfold execStandbyRailUp
  repeat' first
    | with_reducible assumption | extract_lets | exact List.suffix_refl _ | exact FusesKept.refl _
    | exact Nat.le_refl _ | with_reducible exact id | with_reducible apply NextKeeps.next
    | with_reducible apply NextKeeps.ite | ((conv => { arg 2; arg 34; skip }); with_reducible apply Keeps.ofMk)

theorem execSbyDetectorArm_keeps {s t : State} (h : Keeps s t) :
    NextKeeps s (execSbyDetectorArm t) := by
  unfold execSbyDetectorArm
  repeat' first
    | with_reducible assumption | extract_lets | exact List.suffix_refl _ | exact FusesKept.refl _
    | exact Nat.le_refl _ | with_reducible exact id | with_reducible apply NextKeeps.next
    | with_reducible apply NextKeeps.ite | ((conv => { arg 2; arg 34; skip }); with_reducible apply Keeps.ofMk)

theorem execStandbyRailLoss_keeps {s t : State} (h : Keeps s t) :
    NextKeeps s (execStandbyRailLoss t) := by
  unfold execStandbyRailLoss
  repeat' first
    | with_reducible assumption | extract_lets | exact List.suffix_refl _ | exact FusesKept.refl _
    | exact Nat.le_refl _ | with_reducible exact id | exact fun _ => Canon.nil _
    | with_reducible apply State.coldReset_keeps | with_reducible apply NextKeeps.next
    | ((conv => { arg 2; arg 34; skip }); with_reducible apply Keeps.ofMk)

theorem execMainPgTimeout_keeps {s t : State} (h : Keeps s t) :
    NextKeeps s (execMainPgTimeout t) := by
  unfold execMainPgTimeout
  repeat' first
    | with_reducible assumption | extract_lets | exact List.suffix_refl _ | exact FusesKept.refl _
    | exact Nat.le_refl _ | with_reducible exact id | with_reducible apply State.setBits_keeps
    | with_reducible apply NextKeeps.next | with_reducible apply NextKeeps.ite
    | ((conv => { arg 2; arg 34; skip }); with_reducible apply Keeps.ofMk)

theorem execMainPgFall_keeps {s t : State} (h : Keeps s t) :
    NextKeeps s (execMainPgFall t) := by
  unfold execMainPgFall
  repeat' first
    | with_reducible assumption | extract_lets | exact List.suffix_refl _ | exact FusesKept.refl _
    | exact Nat.le_refl _ | with_reducible exact id | with_reducible apply State.coldReset_keeps
    | with_reducible apply NextKeeps.next | with_reducible apply NextKeeps.ite | with_reducible apply Keeps.ite
    | ((conv => { arg 2; arg 34; skip }); with_reducible apply Keeps.ofMk)

theorem execMainPgRise_keeps {s t : State} (h : Keeps s t) :
    NextKeeps s (execMainPgRise t) := by
  unfold execMainPgRise
  repeat' first
    | with_reducible assumption | extract_lets | exact List.suffix_refl _ | exact FusesKept.refl _
    | exact Nat.le_refl _ | with_reducible exact id | with_reducible apply State.coldStart_keeps
    | with_reducible apply NextKeeps.next | with_reducible apply NextKeeps.ite | with_reducible apply Keeps.ite
    | ((with_reducible conv => { arg 2; whnf }); (conv => { arg 2; arg 34; skip }); with_reducible apply Keeps.ofMk)

theorem State.sleepBegin_keeps {s t : State} (h : Keeps s t) :
    Keeps s (t.sleepBegin) := by
  unfold State.sleepBegin
  repeat' first
    | with_reducible assumption | extract_lets | exact List.suffix_refl _ | exact FusesKept.refl _
    | exact Nat.le_refl _ | with_reducible exact id | intro _ | with_reducible apply State.startFlush_keeps
    | with_reducible apply State.ldgReset_keeps | with_reducible apply State.clearRegs_keeps
    | with_reducible apply State.domTo_keeps | with_reducible apply State.domLose_keeps
    | with_reducible apply Keeps.foldl | with_reducible apply Keeps.ite
    | ((with_reducible conv => { arg 2; whnf }); (conv => { arg 2; arg 34; skip }); with_reducible apply Keeps.ofMk)

theorem execAonSleep_keeps {s t : State} (h : Keeps s t) (p : Path) :
    NextKeeps s (execAonSleep p t) := by
  unfold execAonSleep
  repeat' first
    | with_reducible assumption | extract_lets | with_reducible apply State.sleepBegin_keeps
    | with_reducible apply NextKeeps.next | with_reducible apply NextKeeps.ite

theorem execSleepEntryComplete_keeps {s t : State} (h : Keeps s t) :
    NextKeeps s (execSleepEntryComplete t) := by
  unfold execSleepEntryComplete
  repeat' first
    | with_reducible assumption | extract_lets | exact List.suffix_refl _ | exact FusesKept.refl _
    | exact Nat.le_refl _ | with_reducible exact id | with_reducible apply State.coldReset_keeps
    | with_reducible apply State.coldStart_keeps | with_reducible apply NextKeeps.next
    | with_reducible apply NextKeeps.ite | ((conv => { arg 2; arg 34; skip }); with_reducible apply Keeps.ofMk)

theorem execFlashAbortAtSleep_keeps {s t : State} (h : Keeps s t) :
    NextKeeps s (execFlashAbortAtSleep t) := by
  unfold execFlashAbortAtSleep
  repeat' first
    | with_reducible assumption | extract_lets | with_reducible apply State.flashAbort_keeps
    | with_reducible apply State.setBits_keeps | with_reducible apply NextKeeps.next
    | with_reducible apply NextKeeps.ite

theorem execWakeComparatorFire_keeps {s t : State} (h : Keeps s t) (b : WakeBit) :
    NextKeeps s (execWakeComparatorFire b t) := by
  unfold execWakeComparatorFire
  repeat' first
    | with_reducible assumption | extract_lets | exact List.suffix_refl _ | exact FusesKept.refl _
    | exact Nat.le_refl _ | with_reducible exact id | intro _ | with_reducible apply State.setBits_keeps
    | with_reducible apply State.whenB_keeps | with_reducible apply State.wake_keeps
    | with_reducible apply NextKeeps.next | with_reducible apply NextKeeps.ite | with_reducible apply Keeps.ite
    | ((conv => { arg 2; arg 34; skip }); with_reducible apply Keeps.ofMk)

theorem execAonRtcSet_keeps {s t : State} (h : Keeps s t) (p : Path) (size : Nat) (v : Nat) :
    NextKeeps s (execAonRtcSet p size v t) := by
  unfold execAonRtcSet
  repeat' first
    | with_reducible assumption | extract_lets | exact List.suffix_refl _ | exact FusesKept.refl _
    | exact Nat.le_refl _ | with_reducible exact id | with_reducible apply NextKeeps.next
    | with_reducible apply NextKeeps.ite | ((conv => { arg 2; arg 34; skip }); with_reducible apply Keeps.ofMk)

theorem execRtcOscFail_keeps {s t : State} (h : Keeps s t) :
    NextKeeps s (execRtcOscFail t) := by
  unfold execRtcOscFail
  repeat' first
    | with_reducible assumption | extract_lets | exact List.suffix_refl _ | exact FusesKept.refl _
    | exact Nat.le_refl _ | with_reducible exact id | with_reducible apply State.setBits_keeps
    | with_reducible apply NextKeeps.next | with_reducible apply NextKeeps.ite
    | ((conv => { arg 2; arg 34; skip }); with_reducible apply Keeps.ofMk)

theorem execPfTrip_keeps {s t : State} (h : Keeps s t) :
    NextKeeps s (execPfTrip t) := by
  unfold execPfTrip
  repeat' first
    | with_reducible assumption | extract_lets | exact List.suffix_refl _ | exact FusesKept.refl _
    | exact Nat.le_refl _ | with_reducible exact id | with_reducible apply State.bump_keeps
    | with_reducible apply State.startFlush_keeps | with_reducible apply NextKeeps.next
    | with_reducible apply NextKeeps.ite | with_reducible apply Keeps.ite
    | ((conv => { arg 2; arg 34; skip }); with_reducible apply Keeps.ofMk)

theorem execPfRearm_keeps {s t : State} (h : Keeps s t) :
    NextKeeps s (execPfRearm t) := by
  unfold execPfRearm
  repeat' first
    | with_reducible assumption | extract_lets | exact List.suffix_refl _ | exact FusesKept.refl _
    | exact Nat.le_refl _ | with_reducible exact id | with_reducible apply NextKeeps.next
    | ((conv => { arg 2; arg 34; skip }); with_reducible apply Keeps.ofMk)

theorem execJournalFlushDone_keeps {s t : State} (h : Keeps s t) :
    NextKeeps s (execJournalFlushDone t) := by
  unfold execJournalFlushDone
  repeat' first
    | with_reducible assumption | extract_lets | exact List.suffix_refl _ | exact FusesKept.refl _
    | exact Nat.le_refl _ | with_reducible exact id | intro _ | with_reducible apply State.whenB_keeps
    | with_reducible apply State.setBits_keeps | with_reducible apply NextKeeps.next
    | with_reducible apply NextKeeps.ite | ((conv => { arg 2; arg 34; skip }); with_reducible apply Keeps.ofMk)

theorem State.setThermCeil_keeps {s t : State} (h : Keeps s t) (die : Nat) (c : Nat) :
    Keeps s (t.setThermCeil die c) := by
  unfold State.setThermCeil
  repeat' first
    | with_reducible assumption | extract_lets | exact List.suffix_refl _ | exact FusesKept.refl _
    | exact Nat.le_refl _ | with_reducible exact id | intro _ | with_reducible apply State.retarget_keeps
    | with_reducible apply Keeps.foldl
    | ((with_reducible conv => { arg 2; whnf }); (conv => { arg 2; arg 34; skip }); with_reducible apply Keeps.ofMk)

theorem State.thermStep_keeps {s t : State} (h : Keeps s t) (die : Nat) (t' : Int) (c : Nat) :
    Keeps s (t.thermStep die t' c).1 := by
  unfold State.thermStep
  repeat' first
    | with_reducible assumption | extract_lets | with_reducible apply State.setThermCeil_keeps | split

theorem execThermalTick_keeps {s t : State} (h : Keeps s t) (cd0 : Int) (cd1 : Int) (iod : Int) :
    NextKeeps s (execThermalTick cd0 cd1 iod t) := by
  unfold execThermalTick
  repeat' first
    | with_reducible assumption | extract_lets | exact List.suffix_refl _ | exact FusesKept.refl _
    | exact Nat.le_refl _ | with_reducible exact id | intro _ | with_reducible apply State.thermStep_keeps
    | with_reducible apply State.whenB_keeps | with_reducible apply State.bump_keeps
    | with_reducible apply NextKeeps.next | with_reducible apply NextKeeps.ite
    | ((with_reducible conv => { arg 2; whnf }); (conv => { arg 2; arg 34; skip }); with_reducible apply Keeps.ofMk)

theorem execThermalAlert_keeps {s t : State} (h : Keeps s t) (die : Fin 3) :
    NextKeeps s (execThermalAlert die t) := by
  unfold execThermalAlert
  repeat' first
    | with_reducible assumption | extract_lets | exact List.suffix_refl _ | exact FusesKept.refl _
    | exact Nat.le_refl _ | with_reducible exact id | with_reducible apply State.setThermCeil_keeps
    | with_reducible apply State.faultC0_keeps | with_reducible apply NextKeeps.next
    | with_reducible apply NextKeeps.ite | with_reducible apply Keeps.ite
    | ((conv => { arg 2; arg 34; skip }); with_reducible apply Keeps.ofMk)

theorem execThermalAlertRelease_keeps {s t : State} (h : Keeps s t) :
    NextKeeps s (execThermalAlertRelease t) := by
  unfold execThermalAlertRelease
  repeat' first
    | with_reducible assumption | extract_lets | exact List.suffix_refl _ | exact FusesKept.refl _
    | exact Nat.le_refl _ | with_reducible exact id | with_reducible apply NextKeeps.next
    | ((conv => { arg 2; arg 34; skip }); with_reducible apply Keeps.ofMk)

theorem execThermalTrip_keeps {s t : State} (h : Keeps s t) (die : Fin 3) :
    NextKeeps s (execThermalTrip die t) := by
  unfold execThermalTrip
  repeat' first
    | with_reducible assumption | extract_lets | exact List.suffix_refl _ | exact FusesKept.refl _
    | exact Nat.le_refl _ | with_reducible exact id | with_reducible apply State.faultC3_keeps
    | with_reducible apply State.coldReset_keeps | with_reducible apply State.setBits_keeps
    | with_reducible apply NextKeeps.next | with_reducible apply NextKeeps.ite
    | ((conv => { arg 2; arg 34; skip }); with_reducible apply Keeps.ofMk)

theorem execThermtripRelease_keeps {s t : State} (h : Keeps s t) :
    NextKeeps s (execThermtripRelease t) := by
  unfold execThermtripRelease
  repeat' first
    | with_reducible assumption | extract_lets | exact List.suffix_refl _ | exact FusesKept.refl _
    | exact Nat.le_refl _ | with_reducible exact id | with_reducible apply State.wake_keeps
    | with_reducible apply NextKeeps.next | with_reducible apply NextKeeps.ite | with_reducible apply Keeps.ite
    | ((with_reducible conv => { arg 2; whnf }); (conv => { arg 2; arg 34; skip }); with_reducible apply Keeps.ofMk)

theorem State.capStep_keeps {s t : State} (h : Keeps s t) (fall : Bool) (i : Nat) :
    Keeps s (t.capStep fall i) := by
  unfold State.capStep
  repeat' first
    | with_reducible assumption | extract_lets | with_reducible apply State.setIsl_keeps
    | with_reducible apply State.retarget_keeps

theorem execPowerCapTick_keeps {s t : State} (h : Keeps s t) (power : Nat) (dom : List Nat) :
    NextKeeps s (execPowerCapTick power dom t) := by
  unfold execPowerCapTick
  repeat' first
    | with_reducible assumption | extract_lets | exact List.suffix_refl _ | exact FusesKept.refl _
    | exact Nat.le_refl _ | with_reducible exact id | intro _ | with_reducible apply State.setDom_keeps
    | with_reducible apply State.whenB_keeps | with_reducible apply State.setBits_keeps
    | with_reducible apply State.capStep_keeps | with_reducible apply NextKeeps.next
    | with_reducible apply NextKeeps.ite | with_reducible apply Keeps.foldl
    | ((with_reducible conv => { arg 2; whnf }); (conv => { arg 2; arg 34; skip }); with_reducible apply Keeps.ofMk)

theorem execClkSdFreeze_keeps {s t : State} (h : Keeps s t) (p : Path) (l : Nat) (freeze : Bool) :
    NextKeeps s (execClkSdFreeze p l freeze t) := by
  unfold execClkSdFreeze
  repeat' first
    | with_reducible assumption | extract_lets | with_reducible apply State.setReg_keeps
    | with_reducible apply NextKeeps.next | with_reducible apply NextKeeps.ite

/-! ### Machine/Hif.lean -/

theorem execPcieLinkUp_keeps {s t : State} (h : Keeps s t) (rate : Nat) (width : Nat) (flit : Bool) (cache : Bool)
      (mem : Bool) :
    NextKeeps s (execPcieLinkUp rate width flit cache mem t) := by
  unfold execPcieLinkUp
  repeat' first
    | with_reducible assumption | extract_lets | exact List.suffix_refl _ | exact FusesKept.refl _
    | exact Nat.le_refl _ | with_reducible exact id | with_reducible apply NextKeeps.next
    | with_reducible apply NextKeeps.ite | ((conv => { arg 2; arg 34; skip }); with_reducible apply Keeps.ofMk)

theorem execHotReset_keeps {s t : State} (h : Keeps s t) :
    NextKeeps s (execHotReset t) := by
  unfold execHotReset
  repeat' first
    | with_reducible assumption | extract_lets | with_reducible apply State.hifReset_keeps
    | with_reducible apply NextKeeps.next | with_reducible apply NextKeeps.ite

theorem execLinkDown_keeps {s t : State} (h : Keeps s t) :
    NextKeeps s (execLinkDown t) := by
  unfold execLinkDown
  repeat' first
    | with_reducible assumption | extract_lets | with_reducible apply State.hifReset_keeps
    | with_reducible apply NextKeeps.next | with_reducible apply NextKeeps.ite

theorem execFunctionLevelReset_keeps {s t : State} (h : Keeps s t) :
    NextKeeps s (execFunctionLevelReset t) := by
  unfold execFunctionLevelReset
  repeat' first
    | with_reducible assumption | extract_lets | with_reducible apply State.hifReset_keeps
    | with_reducible apply NextKeeps.next | with_reducible apply NextKeeps.ite

theorem execD3hotEntry_keeps {s t : State} (h : Keeps s t) :
    NextKeeps s (execD3hotEntry t) := by
  unfold execD3hotEntry
  repeat' first
    | with_reducible assumption | extract_lets | exact List.suffix_refl _ | exact FusesKept.refl _
    | exact Nat.le_refl _ | with_reducible exact id | with_reducible apply NextKeeps.next
    | with_reducible apply NextKeeps.ite | ((conv => { arg 2; arg 34; skip }); with_reducible apply Keeps.ofMk)

theorem State.msixFlush_keeps {s t : State} (h : Keeps s t) :
    Keeps s (t.msixFlush) := by
  unfold State.msixFlush
  repeat' first
    | with_reducible assumption | extract_lets | exact List.suffix_refl _ | exact FusesKept.refl _
    | exact Nat.le_refl _ | with_reducible exact id | intro _ | with_reducible apply State.emit_keeps
    | with_reducible apply Keeps.foldl | with_reducible apply Keeps.ite
    | ((conv => { arg 2; arg 34; skip }); with_reducible apply Keeps.ofMk)

theorem execMsixVectorUnmask_keeps {s t : State} (h : Keeps s t) (v : Option (Fin 2048)) :
    NextKeeps s (execMsixVectorUnmask v t) := by
  unfold execMsixVectorUnmask
  repeat' first
    | with_reducible assumption | extract_lets | exact List.suffix_refl _ | exact FusesKept.refl _
    | exact Nat.le_refl _ | with_reducible exact id | with_reducible apply State.clrBits_keeps
    | with_reducible apply State.msixFlush_keeps | with_reducible apply NextKeeps.next
    | with_reducible apply NextKeeps.ite | ((conv => { arg 2; arg 34; skip }); with_reducible apply Keeps.ofMk)
    | split

theorem State.cfgWrite_keeps {s t : State} (h : Keeps s t) (r : CfgReg) (v : Nat) :
    Keeps s (t.cfgWrite r v) := by
  unfold State.cfgWrite
  repeat' first
    | with_reducible assumption | extract_lets | exact List.suffix_refl _ | exact FusesKept.refl _
    | exact Nat.le_refl _ | with_reducible exact id | with_reducible apply State.hifReset_keeps
    | with_reducible apply State.msixFlush_keeps | with_reducible apply Keeps.ite
    | ((conv => { arg 2; arg 34; skip }); with_reducible apply Keeps.ofMk) | split

theorem execConfigRequest_keeps {s t : State} (h : Keeps s t) (write : Bool) (reg : CfgReg) (v : Nat) :
    NextKeeps s (execConfigRequest write reg v t) := by
  unfold execConfigRequest
  repeat' first
    | with_reducible assumption | extract_lets | with_reducible apply State.emit_keeps
    | with_reducible apply State.cfgWrite_keeps | with_reducible apply NextKeeps.next
    | with_reducible apply NextKeeps.ite

theorem State.winAccess_keeps {s t : State} (h : Keeps s t) (write : Bool) (a : Nat) (data : List Byte) (n : Nat)
      (poison : Bool) :
    Keeps s (t.winAccess write a data n poison) := by
  unfold State.winAccess
  repeat' first
    | with_reducible assumption | extract_lets | exact List.suffix_refl _ | exact FusesKept.refl _
    | exact Nat.le_refl _ | with_reducible exact id | exact fun hw => Mem.storeP_wf hw _ _ _
    | with_reducible apply State.emit_keeps | with_reducible apply State.countPoison_keeps
    | with_reducible apply Keeps.ite | ((conv => { arg 2; arg 34; skip }); with_reducible apply Keeps.ofMk) | split

theorem execBar2Access_keeps {s t : State} (h : Keeps s t) (write : Bool) (off : Nat) (data : List Byte) (n : Nat)
      (poison : Bool) :
    NextKeeps s (execBar2Access write off data n poison t) := by
  unfold execBar2Access
  repeat' first
    | with_reducible assumption | extract_lets | with_reducible apply State.emit_keeps
    | with_reducible apply State.winAccess_keeps | with_reducible apply NextKeeps.next
    | with_reducible apply NextKeeps.ite

theorem execCxlMemRequest_keeps {s t : State} (h : Keeps s t) (write : Bool) (h' : Nat) (data : List Byte) (n :
      Nat) (poison : Bool) :
    NextKeeps s (execCxlMemRequest write h' data n poison t) := by
  unfold execCxlMemRequest
  repeat' first
    | with_reducible assumption | extract_lets | with_reducible apply State.winAccess_keeps
    | with_reducible apply NextKeeps.next | with_reducible apply NextKeeps.ite

theorem State.setRead_keeps {s t : State} (h : Keeps s t) (tag : Nat) (x : Option HostRead) :
    Keeps s (t.setRead tag x) := by
  unfold State.setRead
  repeat' first
    | with_reducible assumption | extract_lets | exact List.suffix_refl _ | exact FusesKept.refl _
    | exact Nat.le_refl _ | with_reducible exact id
    | ((conv => { arg 2; arg 34; skip }); with_reducible apply Keeps.ofMk)

theorem State.readFail_keeps {s t : State} (h : Keeps s t) (h' : HostRead) (st : Nat) :
    Keeps s (t.readFail h' st) := by
  unfold State.readFail
  repeat' first
    | with_reducible assumption | extract_lets | with_reducible apply State.ingFail_keeps
    | with_reducible apply State.keyRetry_keeps | with_reducible apply State.modTask_keeps
    | with_reducible apply State.dropStreamsOf_keeps | split

theorem execHostReadCompletion_keeps {s t : State} (h : Keeps s t) (tag : Nat) (st : CplStatus) (data : List Byte) :
    NextKeeps s (execHostReadCompletion tag st data t) := by
  unfold execHostReadCompletion
  repeat' first
    | with_reducible assumption | extract_lets | exact List.suffix_refl _ | exact FusesKept.refl _
    | exact Nat.le_refl _ | with_reducible exact id | exact fun hw => tsorted_tins_fold hw _ _ _
    | with_reducible apply State.bump_keeps | with_reducible apply State.setRead_keeps
    | with_reducible apply State.readFail_keeps | with_reducible apply State.err_keeps
    | with_reducible apply NextKeeps.next | with_reducible apply NextKeeps.ite
    | ((conv => { arg 2; arg 34; skip }); with_reducible apply Keeps.ofMk) | split
    | ((with_reducible conv => { arg 2; whnf }); (conv => { arg 2; arg 34; skip }); with_reducible apply Keeps.ofMk)

theorem execCompletionTimeout_keeps {s t : State} (h : Keeps s t) (tag : Nat) :
    NextKeeps s (execCompletionTimeout tag t) := by
  unfold execCompletionTimeout
  repeat' first
    | with_reducible assumption | extract_lets | exact List.suffix_refl _ | exact FusesKept.refl _
    | exact Nat.le_refl _ | with_reducible exact id | with_reducible apply State.setRead_keeps
    | with_reducible apply State.err_keeps | with_reducible apply State.readFail_keeps
    | with_reducible apply NextKeeps.next | split
    | ((with_reducible conv => { arg 2; whnf }); (conv => { arg 2; arg 34; skip }); with_reducible apply Keeps.ofMk)

theorem execTagQuarantineEnd_keeps {s t : State} (h : Keeps s t) (tag : Nat) :
    NextKeeps s (execTagQuarantineEnd tag t) := by
  unfold execTagQuarantineEnd
  repeat' first
    | with_reducible assumption | extract_lets | exact List.suffix_refl _ | exact FusesKept.refl _
    | exact Nat.le_refl _ | with_reducible exact id | with_reducible apply NextKeeps.next
    | ((conv => { arg 2; arg 34; skip }); with_reducible apply Keeps.ofMk)

theorem State.snoop_keeps {s t : State} (h : Keeps s t) (kind : Nat) (l : Nat) :
    Keeps s (t.snoop kind l) := by
  unfold State.snoop
  repeat' first
    | with_reducible assumption | extract_lets | exact List.suffix_refl _ | exact FusesKept.refl _
    | exact Nat.le_refl _ | with_reducible exact id | with_reducible apply State.bump_keeps
    | with_reducible apply State.emit_keeps | with_reducible apply State.setCc_keeps | with_reducible apply Keeps.ite
    | split
    | ((with_reducible conv => { arg 2; whnf }); (conv => { arg 2; arg 34; skip }); with_reducible apply Keeps.ofMk)

theorem execSnpdata_keeps {s t : State} (h : Keeps s t) (l : Nat) :
    NextKeeps s (execSnpdata l t) := by
  unfold execSnpdata
  repeat' first
    | with_reducible assumption | extract_lets | with_reducible apply State.snoop_keeps
    | with_reducible apply NextKeeps.next

theorem execSnpinv_keeps {s t : State} (h : Keeps s t) (l : Nat) :
    NextKeeps s (execSnpinv l t) := by
  unfold execSnpinv
  repeat' first
    | with_reducible assumption | extract_lets | with_reducible apply State.snoop_keeps
    | with_reducible apply NextKeeps.next

theorem execSnpcur_keeps {s t : State} (h : Keeps s t) (l : Nat) :
    NextKeeps s (execSnpcur l t) := by
  unfold execSnpcur
  repeat' first
    | with_reducible assumption | extract_lets | with_reducible apply State.snoop_keeps
    | with_reducible apply NextKeeps.next

theorem execCxlGo_keeps {s t : State} (h : Keeps s t) (l : Nat) (excl : Bool) (data : List Byte) :
    NextKeeps s (execCxlGo l excl data t) := by
  unfold execCxlGo
  repeat' first
    | with_reducible assumption | extract_lets | exact List.suffix_refl _ | exact FusesKept.refl _
    | exact Nat.le_refl _ | with_reducible exact id | exact fun hw => tsorted_tins_fold hw _ _ _ | intro _
    | with_reducible apply State.hostPost_keeps | with_reducible apply State.ccInstall_keeps
    | with_reducible apply NextKeeps.next | with_reducible apply NextKeeps.ite | with_reducible apply Keeps.foldl
    | with_reducible refine Keeps.ofOpt (by assumption) ?_ | split
    | ((with_reducible conv => { arg 2; whnf }); (conv => { arg 2; arg 34; skip }); with_reducible apply Keeps.ofMk)

theorem State.evictFree_keeps {s t : State} (h : Keeps s t) (l : Nat) :
    Keeps s (t.evictFree l) := by
  unfold State.evictFree
  repeat' first
    | with_reducible assumption | extract_lets | exact List.suffix_refl _ | exact FusesKept.refl _
    | exact Nat.le_refl _ | with_reducible exact id
    | ((conv => { arg 2; arg 34; skip }); with_reducible apply Keeps.ofMk)

theorem execGoWritepull_keeps {s t : State} (h : Keeps s t) (l : Nat) :
    NextKeeps s (execGoWritepull l t) := by
  unfold execGoWritepull
  repeat' first
    | with_reducible assumption | extract_lets | with_reducible apply State.evictFree_keeps
    | with_reducible apply State.emit_keeps | with_reducible apply NextKeeps.next | split

theorem execGoWritepullDrop_keeps {s t : State} (h : Keeps s t) (l : Nat) :
    NextKeeps s (execGoWritepullDrop l t) := by
  unfold execGoWritepullDrop
  repeat' first
    | with_reducible assumption | extract_lets | with_reducible apply State.evictFree_keeps
    | with_reducible apply NextKeeps.next

theorem State.ccFlush_keeps {s t : State} (h : Keeps s t) :
    Keeps s (t.ccFlush) := by
  unfold State.ccFlush
  repeat' first
    | with_reducible assumption | extract_lets | exact List.suffix_refl _ | exact FusesKept.refl _
    | exact Nat.le_refl _ | with_reducible exact id
    | ((conv => { arg 2; arg 34; skip }); with_reducible apply Keeps.ofMk)

theorem execHifCcFlush_keeps {s t : State} (h : Keeps s t) (p : Path) :
    NextKeeps s (execHifCcFlush p t) := by
  unfold execHifCcFlush
  repeat' first
    | with_reducible assumption | extract_lets | with_reducible apply State.ccFlush_keeps
    | with_reducible apply NextKeeps.next | with_reducible apply NextKeeps.ite

theorem execCcFlushDone_keeps {s t : State} (h : Keeps s t) :
    NextKeeps s (execCcFlushDone t) := by
  unfold execCcFlushDone
  repeat' first
    | with_reducible assumption | extract_lets | exact List.suffix_refl _ | exact FusesKept.refl _
    | exact Nat.le_refl _ | with_reducible exact id | intro _ | with_reducible apply State.emit_keeps
    | with_reducible apply NextKeeps.next | with_reducible apply NextKeeps.ite | with_reducible apply Keeps.foldl
    | with_reducible apply Keeps.ite | ((conv => { arg 2; arg 34; skip }); with_reducible apply Keeps.ofMk) | split

theorem execDoeObject_keeps {s t : State} (h : Keeps s t) (proto : DoeProto) (data : List Byte) :
    NextKeeps s (execDoeObject proto data t) := by
  unfold execDoeObject
  repeat' first
    | with_reducible assumption | extract_lets | exact List.suffix_refl _ | exact FusesKept.refl _
    | exact Nat.le_refl _ | with_reducible exact id | with_reducible apply State.emit_keeps
    | with_reducible apply NextKeeps.next | with_reducible apply NextKeeps.ite
    | ((conv => { arg 2; arg 34; skip }); with_reducible apply Keeps.ofMk) | split

theorem execDoeAbort_keeps {s t : State} (h : Keeps s t) :
    NextKeeps s (execDoeAbort t) := by
  unfold execDoeAbort
  repeat' first
    | with_reducible assumption | extract_lets | exact List.suffix_refl _ | exact FusesKept.refl _
    | exact Nat.le_refl _ | with_reducible exact id | with_reducible apply NextKeeps.next
    | ((conv => { arg 2; arg 34; skip }); with_reducible apply Keeps.ofMk)

theorem execSpdmRequest_keeps {s t : State} (h : Keeps s t) (doe : Bool) :
    NextKeeps s (execSpdmRequest doe t) := by
  unfold execSpdmRequest
  repeat' first
    | with_reducible assumption | extract_lets | exact List.suffix_refl _ | exact FusesKept.refl _
    | exact Nat.le_refl _ | with_reducible exact id | with_reducible apply State.emit_keeps
    | with_reducible apply State.popMsg_keeps | with_reducible apply State.gateMsg_keeps
    | with_reducible apply NextKeeps.next | with_reducible apply NextKeeps.ite
    | ((conv => { arg 2; arg 34; skip }); with_reducible apply Keeps.ofMk) | split

/-! ### Machine/Fab.lean -/

theorem execEchoSend_keeps {s t : State} (h : Keeps s t) :
    NextKeeps s (execEchoSend t) := by
  unfold execEchoSend
  repeat' first
    | with_reducible assumption | extract_lets | with_reducible apply State.setDomn_keeps
    | with_reducible apply State.domSend_keeps | with_reducible apply NextKeeps.next
    | with_reducible apply NextKeeps.ite

theorem execEchoRsp_keeps {s t : State} (h : Keeps s t) :
    NextKeeps s (execEchoRsp t) := by
  unfold execEchoRsp
  repeat' first
    | with_reducible assumption | extract_lets | with_reducible apply State.popMsg_keeps
    | with_reducible apply State.setDomn_keeps | with_reducible apply NextKeeps.next
    | with_reducible apply NextKeeps.ite | split

theorem State.beatSync_keeps {s t : State} (h : Keeps s t) (t' : Nat) :
    Keeps s (t.beatSync t') := by
  unfold State.beatSync
  repeat' first
    | with_reducible assumption | extract_lets | with_reducible apply State.servoSync_keeps
    | with_reducible apply Keeps.ite

theorem State.holdRoot_keeps {s t : State} (h : Keeps s t) (term : Nat) (src : Nat) :
    Keeps s (t.holdRoot term src) := by
  unfold State.holdRoot
  repeat' first
    | with_reducible assumption | extract_lets | exact List.suffix_refl _ | exact FusesKept.refl _
    | exact Nat.le_refl _ | with_reducible exact id | with_reducible apply State.setDomn_keeps
    | with_reducible apply State.domSet_keeps | with_reducible apply Keeps.ite
    | ((conv => { arg 2; arg 34; skip }); with_reducible apply Keeps.ofMk)

theorem State.depose_keeps {s t : State} (h : Keeps s t) :
    Keeps s (t.depose) := by
  unfold State.depose
  repeat' first
    | with_reducible assumption | extract_lets | with_reducible apply State.domSet_keeps
    | with_reducible apply State.setBits_keeps | with_reducible apply State.event_keeps

theorem State.domIgnore_keeps {s t : State} (h : Keeps s t) :
    Keeps s (t.domIgnore) := by
  unfold State.domIgnore
  repeat' first
    | with_reducible assumption | with_reducible apply State.bump_keeps

theorem execStepTokenIssue_keeps {s t : State} (h : Keeps s t) :
    NextKeeps s (execStepTokenIssue t) := by
  unfold execStepTokenIssue
  repeat' first
    | with_reducible assumption | extract_lets | with_reducible apply State.issueToken_keeps
    | with_reducible apply NextKeeps.next | with_reducible apply NextKeeps.ite

theorem execStepToken_keeps {s t : State} (h : Keeps s t) :
    NextKeeps s (execStepToken t) := by
  unfold execStepToken
  repeat' first
    | with_reducible assumption | extract_lets | with_reducible apply State.popMsg_keeps
    | with_reducible apply State.setDomn_keeps | with_reducible apply State.bump_keeps
    | with_reducible apply State.domIgnore_keeps | with_reducible apply NextKeeps.next
    | with_reducible apply NextKeeps.ite | split

theorem execStepDone_keeps {s t : State} (h : Keeps s t) :
    NextKeeps s (execStepDone t) := by
  unfold execStepDone
  repeat' first
    | with_reducible assumption | extract_lets | with_reducible apply State.popMsg_keeps
    | with_reducible apply State.setDomn_keeps | with_reducible apply NextKeeps.next
    | with_reducible apply NextKeeps.ite | split

theorem execStepDeadline_keeps {s t : State} (h : Keeps s t) :
    NextKeeps s (execStepDeadline t) := by
  unfold execStepDeadline
  repeat' first
    | with_reducible assumption | extract_lets | with_reducible apply State.setDomn_keeps
    | with_reducible apply State.err_keeps | with_reducible apply NextKeeps.next | with_reducible apply NextKeeps.ite
    | split

theorem execRootBeatSend_keeps {s t : State} (h : Keeps s t) :
    NextKeeps s (execRootBeatSend t) := by
  unfold execRootBeatSend
  repeat' first
    | with_reducible assumption | extract_lets | with_reducible apply State.domSendAll_keeps
    | with_reducible apply NextKeeps.next | with_reducible apply NextKeeps.ite

theorem execRootBeat_keeps {s t : State} (h : Keeps s t) :
    NextKeeps s (execRootBeat t) := by
  unfold execRootBeat
  repeat' first
    | with_reducible assumption | extract_lets | with_reducible apply State.popMsg_keeps
    | with_reducible apply State.depose_keeps | with_reducible apply State.domIgnore_keeps
    | with_reducible apply State.holdRoot_keeps | with_reducible apply State.beatSync_keeps
    | with_reducible apply State.setDomn_keeps | with_reducible apply NextKeeps.next
    | with_reducible apply NextKeeps.ite | with_reducible apply Keeps.ite | split

theorem execLeaseExpiry_keeps {s t : State} (h : Keeps s t) :
    NextKeeps s (execLeaseExpiry t) := by
  unfold execLeaseExpiry
  repeat' first
    | with_reducible assumption | extract_lets | with_reducible apply State.setDomn_keeps
    | with_reducible apply State.setBits_keeps | with_reducible apply State.event_keeps
    | with_reducible apply State.faultC0_keeps | with_reducible apply NextKeeps.next
    | with_reducible apply NextKeeps.ite

theorem execClaimSend_keeps {s t : State} (h : Keeps s t) :
    NextKeeps s (execClaimSend t) := by
  unfold execClaimSend
  repeat' first
    | with_reducible assumption | extract_lets | intro _ | with_reducible apply State.domSendAll_keeps
    | with_reducible apply State.setDomn_keeps | with_reducible apply State.bump_keeps
    | with_reducible apply State.whenB_keeps | with_reducible apply State.enterRoot_keeps
    | with_reducible apply NextKeeps.next | with_reducible apply NextKeeps.ite

theorem execRootClaim_keeps {s t : State} (h : Keeps s t) :
    NextKeeps s (execRootClaim t) := by
  unfold execRootClaim
  repeat' first
    | with_reducible assumption | extract_lets | with_reducible apply State.popMsg_keeps
    | with_reducible apply State.domSend_keeps | with_reducible apply State.depose_keeps
    | with_reducible apply State.holdRoot_keeps | with_reducible apply NextKeeps.next
    | with_reducible apply NextKeeps.ite | with_reducible apply Keeps.ite | split

theorem execRootAck_keeps {s t : State} (h : Keeps s t) :
    NextKeeps s (execRootAck t) := by
  unfold execRootAck
  repeat' first
    | with_reducible assumption | extract_lets | intro _ | with_reducible apply State.popMsg_keeps
    | with_reducible apply State.setDomn_keeps | with_reducible apply State.whenB_keeps
    | with_reducible apply State.enterRoot_keeps | with_reducible apply NextKeeps.next
    | with_reducible apply NextKeeps.ite | split

theorem execRootNack_keeps {s t : State} (h : Keeps s t) :
    NextKeeps s (execRootNack t) := by
  unfold execRootNack
  repeat' first
    | with_reducible assumption | extract_lets | with_reducible apply State.popMsg_keeps
    | with_reducible apply State.domSet_keeps | with_reducible apply NextKeeps.next
    | with_reducible apply NextKeeps.ite | split

theorem execJoinSend_keeps {s t : State} (h : Keeps s t) :
    NextKeeps s (execJoinSend t) := by
  unfold execJoinSend
  repeat' first
    | with_reducible assumption | extract_lets | with_reducible apply State.domSendAll_keeps
    | with_reducible apply NextKeeps.next | with_reducible apply NextKeeps.ite

theorem execJoin_keeps {s t : State} (h : Keeps s t) :
    NextKeeps s (execJoin t) := by
  unfold execJoin
  repeat' first
    | with_reducible assumption | extract_lets | with_reducible apply State.popMsg_keeps
    | with_reducible apply State.setDomn_keeps | with_reducible apply State.domSend_keeps
    | with_reducible apply NextKeeps.next | with_reducible apply NextKeeps.ite | split

theorem execLeave_keeps {s t : State} (h : Keeps s t) :
    NextKeeps s (execLeave t) := by
  unfold execLeave
  repeat' first
    | with_reducible assumption | extract_lets | with_reducible apply State.popMsg_keeps
    | with_reducible apply State.setDomn_keeps | with_reducible apply NextKeeps.next | split

theorem execMemberStatSend_keeps {s t : State} (h : Keeps s t) :
    NextKeeps s (execMemberStatSend t) := by
  unfold execMemberStatSend
  repeat' first
    | with_reducible assumption | extract_lets | with_reducible apply State.domSendAll_keeps
    | with_reducible apply NextKeeps.next | with_reducible apply NextKeeps.ite

theorem execMemberStat_keeps {s t : State} (h : Keeps s t) :
    NextKeeps s (execMemberStat t) := by
  unfold execMemberStat
  repeat' first
    | with_reducible assumption | extract_lets | with_reducible apply State.popMsg_keeps
    | with_reducible apply State.store_keeps | with_reducible apply NextKeeps.next
    | with_reducible apply NextKeeps.ite | split

theorem State.setPull_keeps {s t : State} (h : Keeps s t) (n : Nat) (x : Pull) :
    Keeps s (t.setPull n x) := by
  unfold State.setPull
  repeat' first
    | with_reducible assumption | extract_lets | with_reducible apply State.setDomn_keeps

theorem execNglFabPullGo_keeps {s t : State} (h : Keeps s t) (p : Path) (n : Nat) :
    NextKeeps s (execNglFabPullGo p n t) := by
  unfold execNglFabPullGo
  repeat' first
    | with_reducible assumption | extract_lets | with_reducible apply State.setPull_keeps
    | with_reducible apply State.domSend_keeps | with_reducible apply NextKeeps.next
    | with_reducible apply NextKeeps.ite | with_reducible apply Keeps.ite

theorem execTablePull_keeps {s t : State} (h : Keeps s t) :
    NextKeeps s (execTablePull t) := by
  unfold execTablePull
  repeat' first
    | with_reducible assumption | extract_lets | intro _ | with_reducible apply State.popMsg_keeps
    | with_reducible apply State.domSend_keeps | with_reducible apply State.bump_keeps
    | with_reducible apply NextKeeps.next | with_reducible apply Keeps.foldl | split

theorem execTableChunk_keeps {s t : State} (h : Keeps s t) :
    NextKeeps s (execTableChunk t) := by
  unfold execTableChunk
  repeat' first
    | with_reducible assumption | extract_lets | exact List.suffix_refl _ | exact FusesKept.refl _
    | exact Nat.le_refl _ | with_reducible exact id | exact fun hw => Mem.storeP_wf hw _ _ _
    | with_reducible apply State.popMsg_keeps | with_reducible apply State.bump_keeps
    | with_reducible apply State.setLastUe_keeps | with_reducible apply State.store_keeps
    | with_reducible apply State.setPull_keeps | with_reducible apply NextKeeps.next | with_reducible apply Keeps.ite
    | ((conv => { arg 2; arg 34; skip }); with_reducible apply Keeps.ofMk) | split

theorem execTablePullNak_keeps {s t : State} (h : Keeps s t) :
    NextKeeps s (execTablePullNak t) := by
  unfold execTablePullNak
  repeat' first
    | with_reducible assumption | extract_lets | with_reducible apply State.popMsg_keeps
    | with_reducible apply State.setPull_keeps | with_reducible apply NextKeeps.next | split

theorem execPullTimeout_keeps {s t : State} (h : Keeps s t) (n : Nat) :
    NextKeeps s (execPullTimeout n t) := by
  unfold execPullTimeout
  repeat' first
    | with_reducible assumption | extract_lets | with_reducible apply State.setPull_keeps
    | with_reducible apply NextKeeps.next | with_reducible apply NextKeeps.ite

/-! ### Machine/Bar.lean -/

theorem State.tsPop_keeps {s t : State} (h : Keeps s t) (n : Nat) :
    Keeps s (t.tsPop n) := by
  unfold State.tsPop
  repeat' first
    | with_reducible assumption | extract_lets | exact List.suffix_refl _ | exact FusesKept.refl _
    | exact Nat.le_refl _ | with_reducible exact id
    | ((conv => { arg 2; arg 34; skip }); with_reducible apply Keeps.ofMk)

theorem State.readEffect_keeps {s t : State} (h : Keeps s t) (p : Path) (a : Nat) :
    Keeps s (t.readEffect p a) := by
  unfold State.readEffect
  repeat' first
    | with_reducible assumption | extract_lets | exact List.suffix_refl _ | exact FusesKept.refl _
    | exact Nat.le_add_right _ _ | with_reducible exact id | with_reducible apply State.tsPop_keeps
    | with_reducible apply State.setReg_keeps | with_reducible apply Keeps.ite
    | ((conv => { arg 2; arg 34; skip }); with_reducible apply Keeps.ofMk) | split

theorem State.holdRead_keeps {s t : State} (h : Keeps s t) (p : Path) (off : Nat) (size : Nat) :
    Keeps s (t.holdRead p off size) := by
  unfold State.holdRead
  repeat' first
    | with_reducible assumption | extract_lets | exact List.suffix_refl _ | exact FusesKept.refl _
    | exact Nat.le_refl _ | with_reducible exact id
    | ((conv => { arg 2; arg 34; skip }); with_reducible apply Keeps.ofMk)

theorem State.barRead_keeps {s t : State} (h : Keeps s t) (p : Path) (off : Nat) (size : Nat) :
    Keeps s (t.barRead p off size).1 := by
  unfold State.barRead
  repeat' first
    | with_reducible assumption | extract_lets | with_reducible apply State.holdRead_keeps
    | with_reducible apply State.readEffect_keeps | with_reducible apply State.latch_keeps
    | with_reducible apply Keeps.ite | split

theorem State.pathRead_keeps {s t : State} (h : Keeps s t) (p : Path) (off : Nat) (size : Nat) :
    Keeps s (t.pathRead p off size) := by
  unfold State.pathRead
  repeat' first
    | with_reducible assumption | extract_lets | with_reducible apply State.emit_keeps
    | with_reducible apply State.barRead_keeps | with_reducible apply Keeps.ite
    | with_reducible refine Keeps.ofFst (by assumption) ?_ | split

theorem execRcRead_keeps {s t : State} (h : Keeps s t) (p : Path) (off : Nat) (size : Nat) :
    NextKeeps s (execRcRead p off size t) := by
  unfold execRcRead
  repeat' first
    | with_reducible assumption | extract_lets | with_reducible apply State.pathRead_keeps
    | with_reducible apply NextKeeps.next

theorem execSplitReadLow_keeps {s t : State} (h : Keeps s t) (p : Path) (off : Nat) :
    NextKeeps s (execSplitReadLow p off t) := by
  unfold execSplitReadLow
  repeat' first
    | with_reducible assumption | extract_lets | with_reducible apply State.pathRead_keeps
    | with_reducible apply NextKeeps.next | with_reducible apply NextKeeps.ite

theorem execSenTsPop_keeps {s t : State} (h : Keeps s t) (p : Path) (n : Nat) (size : Nat) :
    NextKeeps s (execSenTsPop p n size t) := by
  unfold execSenTsPop
  repeat' first
    | with_reducible assumption | extract_lets | with_reducible apply State.pathRead_keeps
    | with_reducible apply NextKeeps.next | with_reducible apply NextKeeps.ite

theorem State.writeRw_keeps {s t : State} (h : Keeps s t) (p : Path) (f : RegFam) (a : Nat) (off : Nat) (size :
      Nat) (v : Nat) :
    Keeps s (t.writeRw p f a off size v) := by
  unfold State.writeRw
  repeat' first
    | with_reducible assumption | extract_lets | with_reducible apply State.writeHaltInst_keeps
    | with_reducible apply State.setReg_keeps | with_reducible apply State.msixFlush_keeps
    | with_reducible apply Keeps.ite

theorem State.writeW1c_keeps {s t : State} (h : Keeps s t) (f : RegFam) (a : Nat) (off : Nat) (size : Nat) (v : Nat) :
    Keeps s (t.writeW1c f a off size v) := by
  unfold State.writeW1c
  repeat' first
    | with_reducible assumption | extract_lets | exact List.suffix_refl _ | exact FusesKept.refl _
    | exact Nat.le_refl _ | with_reducible exact id | with_reducible apply State.clrBits_keeps
    | with_reducible apply Keeps.ite | ((conv => { arg 2; arg 34; skip }); with_reducible apply Keeps.ofMk)

theorem NextKeeps.stateOf {s t : State} {o : Host.Outcome State Fault Refusal} (h : Keeps s t) (k : NextKeeps s o) :
    Keeps s (stateOf t o) := by
  cases o with
  | next u => exact k.1 u rfl
  | fault r => exact h
  | refused r => exact h

theorem State.writeLv_keeps {s t : State} (h : Keeps s t) (p : Path) (f : RegFam) (a : Nat) (v : Nat) :
    Keeps s (t.writeLv p f a v) := by
  unfold State.writeLv
  repeat' first
    | with_reducible assumption | extract_lets | with_reducible refine NextKeeps.stateOf ?_ (execGlbQDb_keeps ?_ ..)
    | with_reducible refine NextKeeps.stateOf ?_ (execGlbQCplhead_keeps ?_ ..)
    | with_reducible refine NextKeeps.stateOf ?_ (execClkSdFreeze_keeps ?_ ..)
    | with_reducible refine NextKeeps.stateOf ?_ (execPwrDomReq_keeps ?_ ..)
    | with_reducible apply State.setReg_keeps
    | with_reducible refine NextKeeps.stateOf ?_ (execSmpSeqKill_keeps ?_ ..)
    | with_reducible refine NextKeeps.stateOf ?_ (execPakHostHead_keeps ?_ ..)
    | with_reducible refine NextKeeps.stateOf ?_ (execTelTraceCtl_keeps ?_ ..) | with_reducible apply Keeps.ite

theorem State.writeFlCmd_keeps {s t : State} (h : Keeps s t) (p : Path) (op : Nat) :
    Keeps s (t.writeFlCmd p op) := by
  unfold State.writeFlCmd
  repeat' first
    | with_reducible assumption | extract_lets
    | with_reducible refine NextKeeps.stateOf ?_ (execFlashRead_keeps ?_ ..)
    | with_reducible refine NextKeeps.stateOf ?_ (execFlashProgram_keeps ?_ ..)
    | with_reducible refine NextKeeps.stateOf ?_ (execFlashErase_keeps ?_ ..)
    | with_reducible refine NextKeeps.stateOf ?_ (execFlashStatus_keeps ?_ ..)
    | with_reducible apply State.setBits_keeps | with_reducible apply Keeps.ite | split

theorem State.writeBist_keeps {s t : State} (h : Keeps s t) (p : Path) (kind : Nat) (target : Nat) :
    Keeps s (t.writeBist p kind target) := by
  unfold State.writeBist
  repeat' first
    | with_reducible assumption | extract_lets | intro _ | (simp only [id]; assumption)
    | with_reducible refine NextKeeps.stateOf ?_ (execInstanceTest_keeps ?_ ..)
    | with_reducible refine NextKeeps.stateOf ?_ (execIslandTest_keeps ?_ ..)
    | with_reducible refine NextKeeps.stateOf ?_ (execSerdesRecal_keeps ?_ ..)
    | with_reducible apply State.bistReq_keeps | split

theorem State.writeWo_keeps {s t : State} (h : Keeps s t) (p : Path) (a : Nat) (off : Nat) (size : Nat) (v : Nat) :
    Keeps s (t.writeWo p a off size v) := by
  unfold State.writeWo
  extract_lets v32 go n s2 q s3
  have hn : ∀ {u : State} {o}, Keeps s u → NextKeeps s o → Keeps s (stateOf u o) := fun k e => NextKeeps.stateOf k e
  refine Keeps.ite (hn h (execAonRtcSet_keeps h ..)) (Keeps.ite ?_ (Keeps.ite h (Keeps.ite ?_ ?_)))
  · have h2 : Keeps s s2 := hn h (execGlbSemAdd_keeps h ..)
    exact Keeps.ite (hn h2 (execGlbSemAdd_keeps h2 ..)) h2
  · have h3 : Keeps s s3 := Keeps.ite (hn h (execQueueAbort_keeps h ..)) h
    exact Keeps.ite (hn h3 (execQueueResume_keeps h3 ..)) h3
  · clear_value v32 go
    refine Keeps.ite (hn h (execFltUnfence_keeps h ..)) ?_
    refine Keeps.ite (hn h (execFltInject_keeps h ..)) ?_
    refine Keeps.ite (State.writeFlCmd_keeps h ..) ?_
    refine Keeps.ite (hn h (execTelTraceMark_keeps h ..)) ?_
    refine Keeps.ite (State.writeBist_keeps h ..) ?_
    refine Keeps.ite h ?_
    refine Keeps.ite (hn h (execGlbAzmGo_keeps h ..)) ?_
    refine Keeps.ite (hn h (execStgCommit_keeps h ..)) ?_
    refine Keeps.ite (hn h (execStgDiscard_keeps h ..)) ?_
    refine Keeps.ite (hn h (execFltFirstClr_keeps h ..)) ?_
    refine Keeps.ite (State.mbxGo_keeps h ..) ?_
    refine Keeps.ite (State.mbxGo_keeps h ..) ?_
    refine Keeps.ite (hn h (execBootRetry_keeps h ..)) ?_
    refine Keeps.ite (hn h (execAonSleep_keeps h ..)) ?_
    refine Keeps.ite (hn h (execHifCcFlush_keeps h ..)) ?_
    exact Keeps.ite (hn h (execNglFabPullGo_keeps h ..)) h

theorem State.barWrite_keeps {s t : State} (h : Keeps s t) (p : Path) (off : Nat) (size : Nat) (v : Nat) :
    Keeps s (t.barWrite p off size v) := by
  unfold State.barWrite
  repeat' first
    | with_reducible assumption | extract_lets | exact List.suffix_refl _ | exact FusesKept.refl _
    | exact Nat.le_refl _ | with_reducible exact id | with_reducible apply State.writeRw_keeps
    | with_reducible apply State.writeW1c_keeps | with_reducible apply State.writeWo_keeps
    | with_reducible apply State.writeLv_keeps | with_reducible apply State.stageHalf_keeps
    | with_reducible apply State.setReg_keeps | with_reducible apply Keeps.ite
    | ((conv => { arg 2; arg 34; skip }); with_reducible apply Keeps.ofMk) | split

theorem execRegisterWrite_keeps {s t : State} (h : Keeps s t) (p : Path) (off : Nat) (size : Nat) (v : Nat) :
    NextKeeps s (execRegisterWrite p off size v t) := by
  unfold execRegisterWrite
  repeat' first
    | with_reducible assumption | extract_lets | with_reducible apply State.emit_keeps
    | with_reducible apply State.barWrite_keeps | with_reducible apply NextKeeps.next
    | with_reducible apply NextKeeps.ite

/-! ### Machine/BootRec.lean -/

theorem State.nextRec_keeps {s t : State} (h : Keeps s t) :
    Keeps s (t.nextRec) := by
  unfold State.nextRec
  repeat' first
    | with_reducible assumption | extract_lets | exact List.suffix_refl _ | exact FusesKept.refl _
    | exact Nat.le_refl _ | with_reducible exact id | with_reducible apply State.settle_keeps
    | with_reducible apply Keeps.ite | ((conv => { arg 2; arg 34; skip }); with_reducible apply Keeps.ofMk)

theorem State.recordOp_keeps {s t : State} (h : Keeps s t) (op : Nat) (f : Rec → State → State) (hf : ∀ z0 u, Keeps
      s u → Keeps s (f z0 u)) :
    Keeps s (t.recordOp op f) := by
  unfold State.recordOp
  repeat' first
    | with_reducible assumption | extract_lets | apply hf | with_reducible apply Keeps.ite | split

theorem execWr32_keeps {s t : State} (h : Keeps s t) :
    NextKeeps s (execWr32 t) := by
  unfold execWr32
  repeat' first
    | with_reducible assumption | extract_lets | intro _ | with_reducible apply State.recordOp_keeps
    | with_reducible apply State.barWrite_keeps | with_reducible apply State.nextRec_keeps
    | with_reducible apply NextKeeps.next

theorem execWr64_keeps {s t : State} (h : Keeps s t) :
    NextKeeps s (execWr64 t) := by
  unfold execWr64
  repeat' first
    | with_reducible assumption | extract_lets | intro _ | with_reducible apply State.recordOp_keeps
    | with_reducible apply State.barWrite_keeps | with_reducible apply State.nextRec_keeps
    | with_reducible apply NextKeeps.next

theorem execPoll32_keeps {s t : State} (h : Keeps s t) :
    NextKeeps s (execPoll32 t) := by
  unfold execPoll32
  repeat' first
    | with_reducible assumption | extract_lets | intro _ | with_reducible apply State.recordOp_keeps
    | with_reducible apply State.barRead_keeps | with_reducible apply State.nextRec_keeps
    | with_reducible apply NextKeeps.next | with_reducible apply Keeps.ite
    | with_reducible refine Keeps.ofFst (by assumption) ?_ | split

theorem execPoll32Timeout_keeps {s t : State} (h : Keeps s t) :
    NextKeeps s (execPoll32Timeout t) := by
  unfold execPoll32Timeout
  repeat' first
    | with_reducible assumption | extract_lets | intro _ | with_reducible apply State.recordOp_keeps
    | with_reducible apply State.recFail_keeps | with_reducible apply NextKeeps.next

theorem execWaitRec_keeps {s t : State} (h : Keeps s t) :
    NextKeeps s (execWaitRec t) := by
  unfold execWaitRec
  repeat' first
    | with_reducible assumption | extract_lets | intro _ | with_reducible apply State.recordOp_keeps
    | with_reducible apply State.nextRec_keeps | with_reducible apply NextKeeps.next

theorem execLoadRec_keeps {s t : State} (h : Keeps s t) :
    NextKeeps s (execLoadRec t) := by
  unfold execLoadRec
  repeat' first
    | with_reducible assumption | extract_lets | intro _ | with_reducible apply State.recordOp_keeps
    | with_reducible apply State.nextRec_keeps | with_reducible apply State.recFail_keeps
    | with_reducible apply State.store_keeps | with_reducible apply NextKeeps.next | with_reducible apply Keeps.ite
    | split

theorem execEndRec_keeps {s t : State} (h : Keeps s t) :
    NextKeeps s (execEndRec t) := by
  unfold execEndRec
  repeat' first
    | with_reducible assumption | extract_lets | exact List.suffix_refl _ | exact FusesKept.refl _
    | exact Nat.le_refl _ | with_reducible exact id | intro _ | with_reducible apply State.recordOp_keeps
    | with_reducible apply State.setResult_keeps | with_reducible apply State.endRetry_keeps
    | with_reducible apply NextKeeps.next | ((conv => { arg 2; arg 34; skip }); with_reducible apply Keeps.ofMk)

/-! ### Machine/Eth.lean -/

theorem execRocePacketRx_keeps {s t : State} (h : Keeps s t) (tgt : Nat) (port : Nat) (op : RoceOp) (psn : Nat)
      (ecn : Bool) :
    NextKeeps s (execRocePacketRx tgt port op psn ecn t) := by
  unfold execRocePacketRx
  repeat' first
    | with_reducible assumption | extract_lets | intro _ | with_reducible apply State.ethDiscard_keeps
    | with_reducible apply State.whenB_keeps | with_reducible apply State.setConn_keeps
    | with_reducible apply State.bump_keeps | with_reducible apply State.emit_keeps
    | with_reducible apply State.ethTx_keeps | with_reducible apply NextKeeps.next
    | with_reducible apply NextKeeps.ite | split

theorem execRoceAckTimeout_keeps {s t : State} (h : Keeps s t) (tgt : Nat) (port : Nat) :
    NextKeeps s (execRoceAckTimeout tgt port t) := by
  unfold execRoceAckTimeout
  repeat' first
    | with_reducible assumption | extract_lets | with_reducible apply State.setConn_keeps
    | with_reducible apply State.bump_keeps | with_reducible apply State.ethTx_keeps
    | with_reducible apply NextKeeps.next | with_reducible apply NextKeeps.ite

theorem execPfcFrameRx_keeps {s t : State} (h : Keeps s t) (x : Nat) (prio : Nat) (pause : Bool) :
    NextKeeps s (execPfcFrameRx x prio pause t) := by
  unfold execPfcFrameRx
  repeat' first
    | with_reducible assumption | extract_lets | intro _ | with_reducible apply State.setEthPort_keeps
    | with_reducible apply State.emit_keeps | with_reducible apply NextKeeps.next
    | with_reducible apply NextKeeps.ite | with_reducible apply Keeps.foldl

theorem execEthFrameDiscard_keeps {s t : State} (h : Keeps s t) (x : Nat) :
    NextKeeps s (execEthFrameDiscard x t) := by
  unfold execEthFrameDiscard
  repeat' first
    | with_reducible assumption | extract_lets | with_reducible apply State.ethDiscard_keeps
    | with_reducible apply NextKeeps.next | with_reducible apply NextKeeps.ite

theorem execAddrResRequest_keeps {s t : State} (h : Keeps s t) (x : Nat) (hop : Nat) :
    NextKeeps s (execAddrResRequest x hop t) := by
  unfold execAddrResRequest
  repeat' first
    | with_reducible assumption | extract_lets | intro _ | with_reducible apply State.arpPut_keeps
    | with_reducible apply State.arpAsk_keeps | with_reducible apply State.setEthPort_keeps
    | with_reducible apply State.setConn_keeps | with_reducible apply State.tgtLost_keeps
    | with_reducible apply NextKeeps.next | with_reducible apply NextKeeps.ite | with_reducible apply Keeps.foldl
    | split

theorem execAddrResReply_keeps {s t : State} (h : Keeps s t) (x : Nat) (hop : Nat) (mac : Nat) :
    NextKeeps s (execAddrResReply x hop mac t) := by
  unfold execAddrResReply
  repeat' first
    | with_reducible assumption | extract_lets | intro _ | with_reducible apply State.arpPut_keeps
    | with_reducible apply State.setConn_keeps | with_reducible apply State.ethTx_keeps
    | with_reducible apply NextKeeps.next | with_reducible apply Keeps.foldl | split

theorem execAddrResAnswer_keeps {s t : State} (h : Keeps s t) (x : Nat) (ip : Nat) :
    NextKeeps s (execAddrResAnswer x ip t) := by
  unfold execAddrResAnswer
  repeat' first
    | with_reducible assumption | extract_lets | with_reducible apply State.emit_keeps
    | with_reducible apply NextKeeps.next | with_reducible apply NextKeeps.ite

theorem execAddrEntryRefresh_keeps {s t : State} (h : Keeps s t) (x : Nat) (hop : Nat) :
    NextKeeps s (execAddrEntryRefresh x hop t) := by
  unfold execAddrEntryRefresh
  repeat' first
    | with_reducible assumption | extract_lets | with_reducible apply State.arpAsk_keeps
    | with_reducible apply NextKeeps.next | with_reducible apply NextKeeps.ite | split

theorem execAddrEntryExpiry_keeps {s t : State} (h : Keeps s t) (x : Nat) (hop : Nat) :
    NextKeeps s (execAddrEntryExpiry x hop t) := by
  unfold execAddrEntryExpiry
  repeat' first
    | with_reducible assumption | extract_lets | with_reducible apply State.setEthPort_keeps
    | with_reducible apply NextKeeps.next | with_reducible apply NextKeeps.ite | split

theorem execEthPortUp_keeps {s t : State} (h : Keeps s t) (x : Nat) :
    NextKeeps s (execEthPortUp x t) := by
  unfold execEthPortUp
  repeat' first
    | with_reducible assumption | extract_lets | with_reducible apply State.setEthPort_keeps
    | with_reducible apply State.emit_keeps | with_reducible apply NextKeeps.next
    | with_reducible apply NextKeeps.ite

theorem execEthPortDown_keeps {s t : State} (h : Keeps s t) (x : Nat) :
    NextKeeps s (execEthPortDown x t) := by
  unfold execEthPortDown
  repeat' first
    | with_reducible assumption | extract_lets | intro _ | with_reducible apply State.tgtLost_keeps
    | with_reducible apply State.ethDown_keeps | with_reducible apply NextKeeps.next
    | with_reducible apply NextKeeps.ite | with_reducible apply Keeps.foldl

/-! ### Machine/Mem.lean -/

theorem execStackTrainingDone_keeps {s t : State} (h : Keeps s t) (n : Nat) (ok : Bool) :
    NextKeeps s (execStackTrainingDone n ok t) := by
  unfold execStackTrainingDone
  repeat' first
    | with_reducible assumption | extract_lets | exact List.suffix_refl _ | exact FusesKept.refl _
    | exact Nat.le_refl _ | with_reducible exact id | exact Mem.wf_congr rfl rfl
    | exact fun hw => Canon.tclear hw _ _ | with_reducible apply State.faultC3_keeps
    | with_reducible apply NextKeeps.next | with_reducible apply NextKeeps.ite
    | ((conv => { arg 2; arg 34; skip }); with_reducible apply Keeps.ofMk)
    | ((with_reducible conv => { arg 2; whnf }); (conv => { arg 2; arg 34; skip }); with_reducible apply Keeps.ofMk)

theorem execHbmZeroFillBlock_keeps {s t : State} (h : Keeps s t) (die : Nat) (block : Nat) :
    NextKeeps s (execHbmZeroFillBlock die block t) := by
  unfold execHbmZeroFillBlock
  repeat' first
    | with_reducible assumption | extract_lets | exact List.suffix_refl _ | exact FusesKept.refl _
    | exact Nat.le_refl _ | with_reducible exact id | exact Mem.wf_congr rfl rfl
    | with_reducible apply NextKeeps.next | with_reducible apply NextKeeps.ite
    | ((conv => { arg 2; arg 34; skip }); with_reducible apply Keeps.ofMk)

theorem execHbmTransferRetry_keeps {s t : State} (h : Keeps s t) (n : Nat) (failures : Nat) :
    NextKeeps s (execHbmTransferRetry n failures t) := by
  unfold execHbmTransferRetry
  repeat' first
    | with_reducible assumption | extract_lets | exact List.suffix_refl _ | exact FusesKept.refl _
    | exact Nat.le_refl _ | with_reducible exact id | exact Mem.wf_congr rfl rfl
    | with_reducible apply State.bump_keeps | with_reducible apply State.faultC0_keeps
    | with_reducible apply State.faultC3_keeps | with_reducible apply NextKeeps.next
    | with_reducible apply NextKeeps.ite | ((conv => { arg 2; arg 34; skip }); with_reducible apply Keeps.ofMk)

theorem execScrubRead_keeps {s t : State} (h : Keeps s t) (err : MemErr) (overwritten : Bool) :
    NextKeeps s (execScrubRead err overwritten t) := by
  unfold execScrubRead
  repeat' first
    | with_reducible assumption | extract_lets | exact List.suffix_refl _ | exact FusesKept.refl _
    | exact Nat.le_refl _ | with_reducible exact id | exact Mem.wf_congr rfl rfl
    | with_reducible apply State.memCe_keeps | with_reducible apply State.memUe_keeps
    | with_reducible apply State.bump_keeps | with_reducible apply NextKeeps.next
    | with_reducible apply NextKeeps.ite | ((conv => { arg 2; arg 34; skip }); with_reducible apply Keeps.ofMk)
    | split
    | ((with_reducible conv => { arg 2; whnf }); (conv => { arg 2; arg 34; skip }); with_reducible apply Keeps.ofMk)
    | ((with_reducible conv => { arg 2; whnf }); split)

theorem execSramScrubRead_keeps {s t : State} (h : Keeps s t) (addr : Nat) (store : Bool) (err : MemErr) :
    NextKeeps s (execSramScrubRead addr store err t) := by
  unfold execSramScrubRead
  repeat' first
    | with_reducible assumption | extract_lets | with_reducible apply State.memCe_keeps
    | with_reducible apply State.memUe_keeps | with_reducible apply NextKeeps.next
    | with_reducible apply NextKeeps.ite | split

theorem execRepairRefetchDone_keeps {s t : State} (h : Keeps s t) (data : Option (List Byte)) :
    NextKeeps s (execRepairRefetchDone data t) := by
  unfold execRepairRefetchDone
  repeat' first
    | with_reducible assumption | extract_lets | exact List.suffix_refl _ | exact FusesKept.refl _
    | exact Nat.le_refl _ | with_reducible exact id | exact Mem.wf_congr rfl rfl | intro _
    | with_reducible apply State.mapToDefault_keeps | with_reducible apply State.store_keeps
    | with_reducible apply NextKeeps.next | with_reducible apply NextKeeps.ite | with_reducible apply Keeps.foldl
    | with_reducible apply Keeps.ite | ((conv => { arg 2; arg 34; skip }); with_reducible apply Keeps.ofMk) | split
    | ((with_reducible conv => { arg 2; whnf }); (conv => { arg 2; arg 34; skip }); with_reducible apply Keeps.ofMk)

/-! ### Machine/Pins.lean -/

theorem execPorstNAssert_keeps {s t : State} (h : Keeps s t) :
    NextKeeps s (execPorstNAssert t) := by
  unfold execPorstNAssert
  repeat' first
    | with_reducible assumption | extract_lets | exact List.suffix_refl _ | exact FusesKept.refl _
    | exact Nat.le_refl _ | with_reducible exact id | with_reducible apply State.coldReset_keeps
    | with_reducible apply NextKeeps.next | with_reducible apply NextKeeps.ite | with_reducible apply Keeps.ite
    | ((conv => { arg 2; arg 34; skip }); with_reducible apply Keeps.ofMk)
    | ((with_reducible conv => { arg 2; whnf }); (conv => { arg 2; arg 34; skip }); with_reducible apply Keeps.ofMk)

theorem execPorstNRelease_keeps {s t : State} (h : Keeps s t) (straps : Straps) :
    NextKeeps s (execPorstNRelease straps t) := by
  unfold execPorstNRelease
  repeat' first
    | with_reducible assumption | extract_lets | exact List.suffix_refl _ | exact FusesKept.refl _
    | exact Nat.le_refl _ | with_reducible exact id | with_reducible apply State.coldStart_keeps
    | with_reducible apply NextKeeps.next | with_reducible apply NextKeeps.ite | with_reducible apply Keeps.ite
    | ((with_reducible conv => { arg 2; whnf }); (conv => { arg 2; arg 34; skip }); with_reducible apply Keeps.ofMk)

theorem execWrstNAssert_keeps {s t : State} (h : Keeps s t) :
    NextKeeps s (execWrstNAssert t) := by
  unfold execWrstNAssert
  repeat' first
    | with_reducible assumption | extract_lets | exact List.suffix_refl _ | exact FusesKept.refl _
    | exact Nat.le_refl _ | with_reducible exact id | with_reducible apply NextKeeps.next
    | with_reducible apply NextKeeps.ite | ((conv => { arg 2; arg 34; skip }); with_reducible apply Keeps.ofMk)

theorem State.ccWriteBack_keeps {s t : State} (h : Keeps s t) (lost : Nat) :
    Keeps s (t.ccWriteBack lost) := by
  unfold State.ccWriteBack
  repeat' first
    | with_reducible assumption | extract_lets | intro _ | with_reducible apply State.hostPost_keeps
    | with_reducible apply State.errN_keeps | with_reducible apply Keeps.foldl

theorem State.wcLose_keeps {s t : State} (h : Keeps s t) (lost : List Nat) :
    Keeps s (t.wcLose lost) := by
  unfold State.wcLose
  repeat' first
    | with_reducible assumption | extract_lets | exact List.suffix_refl _ | exact FusesKept.refl _
    | exact Nat.le_refl _ | with_reducible exact id | exact fun hw => Mem.wrs_wf hw _ _ | intro _
    | with_reducible apply State.fresh_keeps | with_reducible apply State.err_keeps
    | with_reducible apply Keeps.foldl | with_reducible apply Keeps.ite
    | ((conv => { arg 2; arg 34; skip }); with_reducible apply Keeps.ofMk)

theorem execWarmResetDrainEnd_keeps {s t : State} (h : Keeps s t) (lost : List Nat) (ccLost : Nat) :
    NextKeeps s (execWarmResetDrainEnd lost ccLost t) := by
  unfold execWarmResetDrainEnd
  repeat' first
    | with_reducible assumption | extract_lets | with_reducible apply State.ccWriteBack_keeps
    | with_reducible apply State.wcLose_keeps | with_reducible apply State.warmReset_keeps
    | with_reducible apply NextKeeps.next | with_reducible apply NextKeeps.ite

theorem execPerstNAssert_keeps {s t : State} (h : Keeps s t) :
    NextKeeps s (execPerstNAssert t) := by
  unfold execPerstNAssert
  repeat' first
    | with_reducible assumption | extract_lets | exact List.suffix_refl _ | exact FusesKept.refl _
    | exact Nat.le_refl _ | with_reducible exact id | with_reducible apply State.hifReset_keeps
    | with_reducible apply NextKeeps.next | with_reducible apply NextKeeps.ite
    | ((conv => { arg 2; arg 34; skip }); with_reducible apply Keeps.ofMk)
    | ((with_reducible conv => { arg 2; whnf }); (conv => { arg 2; arg 34; skip }); with_reducible apply Keeps.ofMk)

theorem execPcieTrainingStart_keeps {s t : State} (h : Keeps s t) :
    NextKeeps s (execPcieTrainingStart t) := by
  unfold execPcieTrainingStart
  repeat' first
    | with_reducible assumption | extract_lets | exact List.suffix_refl _ | exact FusesKept.refl _
    | exact Nat.le_refl _ | with_reducible exact id | with_reducible apply NextKeeps.next
    | with_reducible apply NextKeeps.ite | ((conv => { arg 2; arg 34; skip }); with_reducible apply Keeps.ofMk)

/-! ### Machine/Port.lean -/

theorem State.respond_keeps {s t : State} (h : Keeps s t) (tag : Nat) (status : Nat) (data : List Byte) :
    Keeps s (t.respond tag status data) := by
  unfold State.respond
  repeat' first
    | with_reducible assumption | with_reducible apply State.emit_keeps

theorem State.debugOp_keeps {s t : State} (h : Keeps s t) (tag : Nat) (ok : Bool) (f : State → State) (hf : ∀ u,
      Keeps s u → Keeps s (f u)) :
    Keeps s (t.debugOp tag ok f) := by
  unfold State.debugOp
  repeat' first
    | with_reducible assumption | extract_lets | apply hf | with_reducible apply State.respond_keeps
    | with_reducible apply Keeps.ite

theorem execIdcode_keeps {s t : State} (h : Keeps s t) (tag : Nat) :
    NextKeeps s (execIdcode tag t) := by
  unfold execIdcode
  repeat' first
    | with_reducible assumption | extract_lets | with_reducible apply State.respond_keeps
    | with_reducible apply NextKeeps.next | with_reducible apply NextKeeps.ite

theorem State.peek_keeps {s t : State} (h : Keeps s t) (tag : Nat) (off : Nat) (size : Nat) :
    Keeps s (t.peek tag off size) := by
  unfold State.peek
  repeat' first
    | with_reducible assumption | extract_lets | exact List.suffix_refl _ | exact FusesKept.refl _
    | exact Nat.le_refl _ | with_reducible exact id | with_reducible apply State.barRead_keeps
    | with_reducible apply State.respond_keeps | with_reducible refine Keeps.ofFst (by assumption) ?_
    | ((conv => { arg 2; arg 34; skip }); with_reducible apply Keeps.ofMk) | split

theorem execPeek32_keeps {s t : State} (h : Keeps s t) (tag : Nat) (off : Nat) :
    NextKeeps s (execPeek32 tag off t) := by
  unfold execPeek32
  repeat' first
    | with_reducible assumption | extract_lets | intro _ | with_reducible apply State.debugOp_keeps
    | with_reducible apply State.peek_keeps | with_reducible apply NextKeeps.next

theorem execPeek64_keeps {s t : State} (h : Keeps s t) (tag : Nat) (off : Nat) :
    NextKeeps s (execPeek64 tag off t) := by
  unfold execPeek64
  repeat' first
    | with_reducible assumption | extract_lets | intro _ | with_reducible apply State.debugOp_keeps
    | with_reducible apply State.peek_keeps | with_reducible apply NextKeeps.next

theorem execWrite32_keeps {s t : State} (h : Keeps s t) (tag : Nat) (off : Nat) (v : Nat) :
    NextKeeps s (execWrite32 tag off v t) := by
  unfold execWrite32
  repeat' first
    | with_reducible assumption | extract_lets | intro _ | with_reducible apply State.debugOp_keeps
    | with_reducible apply State.barWrite_keeps | with_reducible apply State.respond_keeps
    | with_reducible apply NextKeeps.next

theorem execWrite64_keeps {s t : State} (h : Keeps s t) (tag : Nat) (off : Nat) (v : Nat) :
    NextKeeps s (execWrite64 tag off v t) := by
  unfold execWrite64
  repeat' first
    | with_reducible assumption | extract_lets | intro _ | with_reducible apply State.debugOp_keeps
    | with_reducible apply State.barWrite_keeps | with_reducible apply State.respond_keeps
    | with_reducible apply NextKeeps.next

theorem execMempeek_keeps {s t : State} (h : Keeps s t) (tag : Nat) (a : Nat) :
    NextKeeps s (execMempeek tag a t) := by
  unfold execMempeek
  repeat' first
    | with_reducible assumption | extract_lets | intro _ | with_reducible apply State.debugOp_keeps
    | with_reducible apply State.respond_keeps | with_reducible apply NextKeeps.next | with_reducible apply Keeps.ite

theorem execMemwrite_keeps {s t : State} (h : Keeps s t) (tag : Nat) (a : Nat) (data : List Byte) :
    NextKeeps s (execMemwrite tag a data t) := by
  unfold execMemwrite
  repeat' first
    | with_reducible assumption | extract_lets | intro _ | with_reducible apply State.debugOp_keeps
    | with_reducible apply State.respond_keeps | with_reducible apply State.store_keeps
    | with_reducible apply NextKeeps.next | with_reducible apply Keeps.ite

theorem execDebugAnswerTimeout_keeps {s t : State} (h : Keeps s t) :
    NextKeeps s (execDebugAnswerTimeout t) := by
  unfold execDebugAnswerTimeout
  repeat' first
    | with_reducible assumption | extract_lets | exact List.suffix_refl _ | exact FusesKept.refl _
    | exact Nat.le_refl _ | with_reducible exact id | with_reducible apply State.respond_keeps
    | with_reducible apply NextKeeps.next | ((conv => { arg 2; arg 34; skip }); with_reducible apply Keeps.ofMk)
    | split

theorem execDebugRequestInvalid_keeps {s t : State} (h : Keeps s t) (tag : Nat) (crcBad : Bool) :
    NextKeeps s (execDebugRequestInvalid tag crcBad t) := by
  unfold execDebugRequestInvalid
  repeat' first
    | with_reducible assumption | extract_lets | intro _ | (simp only [id]; assumption)
    | with_reducible apply State.debugOp_keeps | with_reducible apply NextKeeps.next
    | with_reducible apply NextKeeps.ite

/-! ### Machine/Tick.lean -/

theorem State.timeTick_keeps {s t : State} (h : Keeps s t) :
    Keeps s (t.timeTick) := by
  unfold State.timeTick
  repeat' first
    | with_reducible assumption | extract_lets | exact List.suffix_refl _ | exact FusesKept.refl _
    | exact Nat.le_refl _ | with_reducible exact id
    | ((conv => { arg 2; arg 34; skip }); with_reducible apply Keeps.ofMk)

theorem State.stall_keeps {s t : State} (h : Keeps s t) (n : Nat) (c : Nat) :
    Keeps s (t.stall n c) := by
  unfold State.stall
  repeat' first
    | with_reducible assumption | extract_lets | with_reducible apply State.telSat_keeps
    | with_reducible apply State.setReg_keeps | with_reducible apply Keeps.ite

theorem State.instCycle_keeps {s t : State} (h : Keeps s t) (n : Nat) :
    Keeps s (t.instCycle n) := by
  unfold State.instCycle
  repeat' first
    | with_reducible assumption | extract_lets | exact List.suffix_refl _ | exact FusesKept.refl _
    | exact Nat.le_refl _ | with_reducible exact id | with_reducible apply State.bump_keeps
    | with_reducible apply State.stall_keeps | with_reducible apply Keeps.ite
    | ((conv => { arg 2; arg 34; skip }); with_reducible apply Keeps.ofMk)

theorem State.instTick_keeps {s t : State} (h : Keeps s t) (n : Nat) :
    Keeps s (t.instTick n) := by
  unfold State.instTick
  repeat' first
    | with_reducible assumption | extract_lets | exact List.suffix_refl _ | exact FusesKept.refl _
    | exact Nat.le_refl _ | with_reducible exact id | with_reducible apply State.instCycle_keeps
    | with_reducible apply Keeps.ite
    | ((with_reducible conv => { arg 2; whnf }); (conv => { arg 2; arg 34; skip }); with_reducible apply Keeps.ofMk)

theorem State.recoverTick_keeps {s t : State} (h : Keeps s t) :
    Keeps s (t.recoverTick) := by
  unfold State.recoverTick
  repeat' first
    | with_reducible assumption | extract_lets | intro _ | with_reducible apply State.setUnit_keeps
    | with_reducible apply State.refreshFlt_keeps | with_reducible apply Keeps.foldl

theorem State.tick_keeps {s t : State} (h : Keeps s t) :
    Keeps s (t.tick) := by
  unfold State.tick
  extract_lets s1 s2 s3
  have h1 : Keeps s s1 := State.whenB_keeps h _ _ (fun u k => k.same rfl rfl rfl rfl rfl rfl rfl rfl)
  clear_value s1
  split
  · exact h1
  · have h2 : Keeps s s2 := Keeps.foldl (State.recoverTick_keeps (State.timeTick_keeps h1)) _
      (fun u n k => State.instTick_keeps k n) _
    clear_value s2
    exact (State.bump_keeps h2 _ _).fwd 1

end Sys2Proof.Machine
end

