-- ==== Sys2Proof/Laws/State.lean ====
section
/-!
SUPPORT. What each named update of State leaves as it was, one fact per field, all true by unfolding: with these in the
simp set no proof unfolds a record update.
-/

namespace Sys2Proof.Machine

@[simp] theorem State.setReg_frame (s : State) (a : Nat) (v : Word) :
    (s.setReg a v).pins = s.pins ∧ (s.setReg a v).clk = s.clk ∧ (s.setReg a v).pwr = s.pwr ∧
    (s.setReg a v).aon = s.aon ∧ (s.setReg a v).boot = s.boot ∧ (s.setReg a v).stg = s.stg ∧
    (s.setReg a v).flt = s.flt ∧ (s.setReg a v).tel = s.tel ∧ (s.setReg a v).dbg = s.dbg ∧
    (s.setReg a v).que = s.que ∧ (s.setReg a v).vlt = s.vlt ∧ (s.setReg a v).mem = s.mem ∧
    (s.setReg a v).hif = s.hif ∧ (s.setReg a v).str = s.str ∧ (s.setReg a v).ldg = s.ldg ∧
    (s.setReg a v).eth = s.eth ∧ (s.setReg a v).ngl = s.ngl ∧ (s.setReg a v).gth = s.gth ∧
    (s.setReg a v).azm = s.azm ∧ (s.setReg a v).ing = s.ing ∧ (s.setReg a v).pak = s.pak ∧
    (s.setReg a v).sen = s.sen ∧ (s.setReg a v).servo = s.servo ∧ (s.setReg a v).shHost = s.shHost ∧
    (s.setReg a v).shDbg = s.shDbg ∧ (s.setReg a v).shVlt = s.shVlt ∧ (s.setReg a v).host = s.host ∧
    (s.setReg a v).flash = s.flash ∧ (s.setReg a v).time = s.time ∧ (s.setReg a v).spine = s.spine ∧
    (s.setReg a v).free = s.free ∧ (s.setReg a v).outs = s.outs ∧ (s.setReg a v).pending = s.pending := by
  exact ⟨rfl, rfl, rfl, rfl, rfl, rfl, rfl, rfl, rfl, rfl, rfl, rfl, rfl, rfl, rfl, rfl, rfl, rfl, rfl, rfl, rfl, rfl, rfl, rfl, rfl, rfl, rfl, rfl, rfl, rfl, rfl, rfl, rfl⟩

@[simp] theorem State.bump_frame (s : State) (a n : Nat) :
    (s.bump a n).pins = s.pins ∧ (s.bump a n).clk = s.clk ∧ (s.bump a n).pwr = s.pwr ∧ (s.bump a n).aon = s.aon ∧
    (s.bump a n).boot = s.boot ∧ (s.bump a n).stg = s.stg ∧ (s.bump a n).flt = s.flt ∧ (s.bump a n).tel = s.tel ∧
    (s.bump a n).dbg = s.dbg ∧ (s.bump a n).que = s.que ∧ (s.bump a n).vlt = s.vlt ∧ (s.bump a n).mem = s.mem ∧
    (s.bump a n).hif = s.hif ∧ (s.bump a n).str = s.str ∧ (s.bump a n).ldg = s.ldg ∧ (s.bump a n).eth = s.eth ∧
    (s.bump a n).ngl = s.ngl ∧ (s.bump a n).gth = s.gth ∧ (s.bump a n).azm = s.azm ∧ (s.bump a n).ing = s.ing ∧
    (s.bump a n).pak = s.pak ∧ (s.bump a n).sen = s.sen ∧ (s.bump a n).servo = s.servo ∧
    (s.bump a n).shHost = s.shHost ∧ (s.bump a n).shDbg = s.shDbg ∧ (s.bump a n).shVlt = s.shVlt ∧
    (s.bump a n).host = s.host ∧ (s.bump a n).flash = s.flash ∧ (s.bump a n).time = s.time ∧
    (s.bump a n).spine = s.spine ∧ (s.bump a n).free = s.free ∧ (s.bump a n).outs = s.outs ∧
    (s.bump a n).pending = s.pending := by
  exact ⟨rfl, rfl, rfl, rfl, rfl, rfl, rfl, rfl, rfl, rfl, rfl, rfl, rfl, rfl, rfl, rfl, rfl, rfl, rfl, rfl, rfl, rfl, rfl, rfl, rfl, rfl, rfl, rfl, rfl, rfl, rfl, rfl, rfl⟩

@[simp] theorem State.err_frame (s : State) (a : Nat) :
    (s.err a).pins = s.pins ∧ (s.err a).clk = s.clk ∧ (s.err a).pwr = s.pwr ∧ (s.err a).aon = s.aon ∧
    (s.err a).boot = s.boot ∧ (s.err a).stg = s.stg ∧ (s.err a).flt = s.flt ∧ (s.err a).tel = s.tel ∧
    (s.err a).dbg = s.dbg ∧ (s.err a).que = s.que ∧ (s.err a).vlt = s.vlt ∧ (s.err a).mem = s.mem ∧
    (s.err a).hif = s.hif ∧ (s.err a).str = s.str ∧ (s.err a).ldg = s.ldg ∧ (s.err a).eth = s.eth ∧
    (s.err a).ngl = s.ngl ∧ (s.err a).gth = s.gth ∧ (s.err a).azm = s.azm ∧ (s.err a).ing = s.ing ∧
    (s.err a).pak = s.pak ∧ (s.err a).sen = s.sen ∧ (s.err a).servo = s.servo ∧ (s.err a).shHost = s.shHost ∧
    (s.err a).shDbg = s.shDbg ∧ (s.err a).shVlt = s.shVlt ∧ (s.err a).host = s.host ∧ (s.err a).flash = s.flash ∧
    (s.err a).time = s.time ∧ (s.err a).spine = s.spine ∧ (s.err a).free = s.free ∧ (s.err a).outs = s.outs ∧
    (s.err a).pending = s.pending := by
  exact ⟨rfl, rfl, rfl, rfl, rfl, rfl, rfl, rfl, rfl, rfl, rfl, rfl, rfl, rfl, rfl, rfl, rfl, rfl, rfl, rfl, rfl, rfl, rfl, rfl, rfl, rfl, rfl, rfl, rfl, rfl, rfl, rfl, rfl⟩

@[simp] theorem State.setBits_frame (s : State) (a m : Nat) :
    (s.setBits a m).pins = s.pins ∧ (s.setBits a m).clk = s.clk ∧ (s.setBits a m).pwr = s.pwr ∧
    (s.setBits a m).aon = s.aon ∧ (s.setBits a m).boot = s.boot ∧ (s.setBits a m).stg = s.stg ∧
    (s.setBits a m).flt = s.flt ∧ (s.setBits a m).tel = s.tel ∧ (s.setBits a m).dbg = s.dbg ∧
    (s.setBits a m).que = s.que ∧ (s.setBits a m).vlt = s.vlt ∧ (s.setBits a m).mem = s.mem ∧
    (s.setBits a m).hif = s.hif ∧ (s.setBits a m).str = s.str ∧ (s.setBits a m).ldg = s.ldg ∧
    (s.setBits a m).eth = s.eth ∧ (s.setBits a m).ngl = s.ngl ∧ (s.setBits a m).gth = s.gth ∧
    (s.setBits a m).azm = s.azm ∧ (s.setBits a m).ing = s.ing ∧ (s.setBits a m).pak = s.pak ∧
    (s.setBits a m).sen = s.sen ∧ (s.setBits a m).servo = s.servo ∧ (s.setBits a m).shHost = s.shHost ∧
    (s.setBits a m).shDbg = s.shDbg ∧ (s.setBits a m).shVlt = s.shVlt ∧ (s.setBits a m).host = s.host ∧
    (s.setBits a m).flash = s.flash ∧ (s.setBits a m).time = s.time ∧ (s.setBits a m).spine = s.spine ∧
    (s.setBits a m).free = s.free ∧ (s.setBits a m).outs = s.outs ∧ (s.setBits a m).pending = s.pending := by
  exact ⟨rfl, rfl, rfl, rfl, rfl, rfl, rfl, rfl, rfl, rfl, rfl, rfl, rfl, rfl, rfl, rfl, rfl, rfl, rfl, rfl, rfl, rfl, rfl, rfl, rfl, rfl, rfl, rfl, rfl, rfl, rfl, rfl, rfl⟩

@[simp] theorem State.clrBits_frame (s : State) (a m : Nat) :
    (s.clrBits a m).pins = s.pins ∧ (s.clrBits a m).clk = s.clk ∧ (s.clrBits a m).pwr = s.pwr ∧
    (s.clrBits a m).aon = s.aon ∧ (s.clrBits a m).boot = s.boot ∧ (s.clrBits a m).stg = s.stg ∧
    (s.clrBits a m).flt = s.flt ∧ (s.clrBits a m).tel = s.tel ∧ (s.clrBits a m).dbg = s.dbg ∧
    (s.clrBits a m).que = s.que ∧ (s.clrBits a m).vlt = s.vlt ∧ (s.clrBits a m).mem = s.mem ∧
    (s.clrBits a m).hif = s.hif ∧ (s.clrBits a m).str = s.str ∧ (s.clrBits a m).ldg = s.ldg ∧
    (s.clrBits a m).eth = s.eth ∧ (s.clrBits a m).ngl = s.ngl ∧ (s.clrBits a m).gth = s.gth ∧
    (s.clrBits a m).azm = s.azm ∧ (s.clrBits a m).ing = s.ing ∧ (s.clrBits a m).pak = s.pak ∧
    (s.clrBits a m).sen = s.sen ∧ (s.clrBits a m).servo = s.servo ∧ (s.clrBits a m).shHost = s.shHost ∧
    (s.clrBits a m).shDbg = s.shDbg ∧ (s.clrBits a m).shVlt = s.shVlt ∧ (s.clrBits a m).host = s.host ∧
    (s.clrBits a m).flash = s.flash ∧ (s.clrBits a m).time = s.time ∧ (s.clrBits a m).spine = s.spine ∧
    (s.clrBits a m).free = s.free ∧ (s.clrBits a m).outs = s.outs ∧ (s.clrBits a m).pending = s.pending := by
  exact ⟨rfl, rfl, rfl, rfl, rfl, rfl, rfl, rfl, rfl, rfl, rfl, rfl, rfl, rfl, rfl, rfl, rfl, rfl, rfl, rfl, rfl, rfl, rfl, rfl, rfl, rfl, rfl, rfl, rfl, rfl, rfl, rfl, rfl⟩

@[simp] theorem State.clearRegs_frame (s : State) (lo hi : Nat) :
    (s.clearRegs lo hi).pins = s.pins ∧ (s.clearRegs lo hi).clk = s.clk ∧ (s.clearRegs lo hi).pwr = s.pwr ∧
    (s.clearRegs lo hi).aon = s.aon ∧ (s.clearRegs lo hi).boot = s.boot ∧ (s.clearRegs lo hi).stg = s.stg ∧
    (s.clearRegs lo hi).flt = s.flt ∧ (s.clearRegs lo hi).tel = s.tel ∧ (s.clearRegs lo hi).dbg = s.dbg ∧
    (s.clearRegs lo hi).que = s.que ∧ (s.clearRegs lo hi).vlt = s.vlt ∧ (s.clearRegs lo hi).mem = s.mem ∧
    (s.clearRegs lo hi).hif = s.hif ∧ (s.clearRegs lo hi).str = s.str ∧ (s.clearRegs lo hi).ldg = s.ldg ∧
    (s.clearRegs lo hi).eth = s.eth ∧ (s.clearRegs lo hi).ngl = s.ngl ∧ (s.clearRegs lo hi).gth = s.gth ∧
    (s.clearRegs lo hi).azm = s.azm ∧ (s.clearRegs lo hi).ing = s.ing ∧ (s.clearRegs lo hi).pak = s.pak ∧
    (s.clearRegs lo hi).sen = s.sen ∧ (s.clearRegs lo hi).servo = s.servo ∧ (s.clearRegs lo hi).shHost = s.shHost ∧
    (s.clearRegs lo hi).shDbg = s.shDbg ∧ (s.clearRegs lo hi).shVlt = s.shVlt ∧ (s.clearRegs lo hi).host = s.host ∧
    (s.clearRegs lo hi).flash = s.flash ∧ (s.clearRegs lo hi).time = s.time ∧ (s.clearRegs lo hi).spine = s.spine ∧
    (s.clearRegs lo hi).free = s.free ∧ (s.clearRegs lo hi).outs = s.outs ∧
    (s.clearRegs lo hi).pending = s.pending := by
  exact ⟨rfl, rfl, rfl, rfl, rfl, rfl, rfl, rfl, rfl, rfl, rfl, rfl, rfl, rfl, rfl, rfl, rfl, rfl, rfl, rfl, rfl, rfl, rfl, rfl, rfl, rfl, rfl, rfl, rfl, rfl, rfl, rfl, rfl⟩

@[simp] theorem State.setDomReq_frame (s : State) (d : Nat) (b : Bool) :
    (s.setDomReq d b).pins = s.pins ∧ (s.setDomReq d b).clk = s.clk ∧ (s.setDomReq d b).pwr = s.pwr ∧
    (s.setDomReq d b).aon = s.aon ∧ (s.setDomReq d b).boot = s.boot ∧ (s.setDomReq d b).stg = s.stg ∧
    (s.setDomReq d b).flt = s.flt ∧ (s.setDomReq d b).tel = s.tel ∧ (s.setDomReq d b).dbg = s.dbg ∧
    (s.setDomReq d b).que = s.que ∧ (s.setDomReq d b).vlt = s.vlt ∧ (s.setDomReq d b).mem = s.mem ∧
    (s.setDomReq d b).hif = s.hif ∧ (s.setDomReq d b).str = s.str ∧ (s.setDomReq d b).ldg = s.ldg ∧
    (s.setDomReq d b).eth = s.eth ∧ (s.setDomReq d b).ngl = s.ngl ∧ (s.setDomReq d b).gth = s.gth ∧
    (s.setDomReq d b).azm = s.azm ∧ (s.setDomReq d b).ing = s.ing ∧ (s.setDomReq d b).pak = s.pak ∧
    (s.setDomReq d b).sen = s.sen ∧ (s.setDomReq d b).servo = s.servo ∧ (s.setDomReq d b).shHost = s.shHost ∧
    (s.setDomReq d b).shDbg = s.shDbg ∧ (s.setDomReq d b).shVlt = s.shVlt ∧ (s.setDomReq d b).host = s.host ∧
    (s.setDomReq d b).flash = s.flash ∧ (s.setDomReq d b).time = s.time ∧ (s.setDomReq d b).spine = s.spine ∧
    (s.setDomReq d b).free = s.free ∧ (s.setDomReq d b).outs = s.outs ∧ (s.setDomReq d b).pending = s.pending := by
  exact ⟨rfl, rfl, rfl, rfl, rfl, rfl, rfl, rfl, rfl, rfl, rfl, rfl, rfl, rfl, rfl, rfl, rfl, rfl, rfl, rfl, rfl, rfl, rfl, rfl, rfl, rfl, rfl, rfl, rfl, rfl, rfl, rfl, rfl⟩

@[simp] theorem State.setSem_frame (s : State) (n v : Nat) :
    (s.setSem n v).pins = s.pins ∧ (s.setSem n v).clk = s.clk ∧ (s.setSem n v).pwr = s.pwr ∧
    (s.setSem n v).aon = s.aon ∧ (s.setSem n v).boot = s.boot ∧ (s.setSem n v).stg = s.stg ∧
    (s.setSem n v).flt = s.flt ∧ (s.setSem n v).tel = s.tel ∧ (s.setSem n v).dbg = s.dbg ∧
    (s.setSem n v).que = s.que ∧ (s.setSem n v).vlt = s.vlt ∧ (s.setSem n v).mem = s.mem ∧
    (s.setSem n v).hif = s.hif ∧ (s.setSem n v).str = s.str ∧ (s.setSem n v).ldg = s.ldg ∧
    (s.setSem n v).eth = s.eth ∧ (s.setSem n v).ngl = s.ngl ∧ (s.setSem n v).gth = s.gth ∧
    (s.setSem n v).azm = s.azm ∧ (s.setSem n v).ing = s.ing ∧ (s.setSem n v).pak = s.pak ∧
    (s.setSem n v).sen = s.sen ∧ (s.setSem n v).servo = s.servo ∧ (s.setSem n v).shHost = s.shHost ∧
    (s.setSem n v).shDbg = s.shDbg ∧ (s.setSem n v).shVlt = s.shVlt ∧ (s.setSem n v).host = s.host ∧
    (s.setSem n v).flash = s.flash ∧ (s.setSem n v).time = s.time ∧ (s.setSem n v).spine = s.spine ∧
    (s.setSem n v).free = s.free ∧ (s.setSem n v).outs = s.outs ∧ (s.setSem n v).pending = s.pending := by
  exact ⟨rfl, rfl, rfl, rfl, rfl, rfl, rfl, rfl, rfl, rfl, rfl, rfl, rfl, rfl, rfl, rfl, rfl, rfl, rfl, rfl, rfl, rfl, rfl, rfl, rfl, rfl, rfl, rfl, rfl, rfl, rfl, rfl, rfl⟩

@[simp] theorem State.emit_frame (s : State) (o : Out) :
    (s.emit o).pins = s.pins ∧ (s.emit o).clk = s.clk ∧ (s.emit o).pwr = s.pwr ∧ (s.emit o).aon = s.aon ∧
    (s.emit o).boot = s.boot ∧ (s.emit o).stg = s.stg ∧ (s.emit o).flt = s.flt ∧ (s.emit o).tel = s.tel ∧
    (s.emit o).dbg = s.dbg ∧ (s.emit o).que = s.que ∧ (s.emit o).vlt = s.vlt ∧ (s.emit o).mem = s.mem ∧
    (s.emit o).hif = s.hif ∧ (s.emit o).str = s.str ∧ (s.emit o).ldg = s.ldg ∧ (s.emit o).eth = s.eth ∧
    (s.emit o).ngl = s.ngl ∧ (s.emit o).gth = s.gth ∧ (s.emit o).azm = s.azm ∧ (s.emit o).ing = s.ing ∧
    (s.emit o).pak = s.pak ∧ (s.emit o).sen = s.sen ∧ (s.emit o).servo = s.servo ∧ (s.emit o).regs = s.regs ∧
    (s.emit o).shHost = s.shHost ∧ (s.emit o).shDbg = s.shDbg ∧ (s.emit o).shVlt = s.shVlt ∧
    (s.emit o).host = s.host ∧ (s.emit o).flash = s.flash ∧ (s.emit o).time = s.time ∧ (s.emit o).spine = s.spine ∧
    (s.emit o).free = s.free ∧ (s.emit o).pending = s.pending := by
  exact ⟨rfl, rfl, rfl, rfl, rfl, rfl, rfl, rfl, rfl, rfl, rfl, rfl, rfl, rfl, rfl, rfl, rfl, rfl, rfl, rfl, rfl, rfl, rfl, rfl, rfl, rfl, rfl, rfl, rfl, rfl, rfl, rfl, rfl⟩

@[simp] theorem State.hostPost_frame (s : State) (a : Nat) (bs : List Byte) :
    (s.hostPost a bs).pins = s.pins ∧ (s.hostPost a bs).clk = s.clk ∧ (s.hostPost a bs).pwr = s.pwr ∧
    (s.hostPost a bs).aon = s.aon ∧ (s.hostPost a bs).boot = s.boot ∧ (s.hostPost a bs).stg = s.stg ∧
    (s.hostPost a bs).flt = s.flt ∧ (s.hostPost a bs).tel = s.tel ∧ (s.hostPost a bs).dbg = s.dbg ∧
    (s.hostPost a bs).que = s.que ∧ (s.hostPost a bs).vlt = s.vlt ∧ (s.hostPost a bs).mem = s.mem ∧
    (s.hostPost a bs).hif = s.hif ∧ (s.hostPost a bs).str = s.str ∧ (s.hostPost a bs).ldg = s.ldg ∧
    (s.hostPost a bs).eth = s.eth ∧ (s.hostPost a bs).ngl = s.ngl ∧ (s.hostPost a bs).gth = s.gth ∧
    (s.hostPost a bs).azm = s.azm ∧ (s.hostPost a bs).ing = s.ing ∧ (s.hostPost a bs).pak = s.pak ∧
    (s.hostPost a bs).sen = s.sen ∧ (s.hostPost a bs).servo = s.servo ∧ (s.hostPost a bs).regs = s.regs ∧
    (s.hostPost a bs).shHost = s.shHost ∧ (s.hostPost a bs).shDbg = s.shDbg ∧ (s.hostPost a bs).shVlt = s.shVlt ∧
    (s.hostPost a bs).flash = s.flash ∧ (s.hostPost a bs).time = s.time ∧ (s.hostPost a bs).spine = s.spine ∧
    (s.hostPost a bs).free = s.free ∧ (s.hostPost a bs).pending = s.pending := by
  exact ⟨rfl, rfl, rfl, rfl, rfl, rfl, rfl, rfl, rfl, rfl, rfl, rfl, rfl, rfl, rfl, rfl, rfl, rfl, rfl, rfl, rfl, rfl, rfl, rfl, rfl, rfl, rfl, rfl, rfl, rfl, rfl, rfl⟩

@[simp] theorem State.respond_frame (s : State) (tag status : Nat) (data : List Byte) :
    (s.respond tag status data).pins = s.pins ∧ (s.respond tag status data).clk = s.clk ∧
    (s.respond tag status data).pwr = s.pwr ∧ (s.respond tag status data).aon = s.aon ∧
    (s.respond tag status data).boot = s.boot ∧ (s.respond tag status data).stg = s.stg ∧
    (s.respond tag status data).flt = s.flt ∧ (s.respond tag status data).tel = s.tel ∧
    (s.respond tag status data).dbg = s.dbg ∧ (s.respond tag status data).que = s.que ∧
    (s.respond tag status data).vlt = s.vlt ∧ (s.respond tag status data).mem = s.mem ∧
    (s.respond tag status data).hif = s.hif ∧ (s.respond tag status data).str = s.str ∧
    (s.respond tag status data).ldg = s.ldg ∧ (s.respond tag status data).eth = s.eth ∧
    (s.respond tag status data).ngl = s.ngl ∧ (s.respond tag status data).gth = s.gth ∧
    (s.respond tag status data).azm = s.azm ∧ (s.respond tag status data).ing = s.ing ∧
    (s.respond tag status data).pak = s.pak ∧ (s.respond tag status data).sen = s.sen ∧
    (s.respond tag status data).servo = s.servo ∧ (s.respond tag status data).regs = s.regs ∧
    (s.respond tag status data).shHost = s.shHost ∧ (s.respond tag status data).shDbg = s.shDbg ∧
    (s.respond tag status data).shVlt = s.shVlt ∧ (s.respond tag status data).host = s.host ∧
    (s.respond tag status data).flash = s.flash ∧ (s.respond tag status data).time = s.time ∧
    (s.respond tag status data).spine = s.spine ∧ (s.respond tag status data).free = s.free ∧
    (s.respond tag status data).pending = s.pending := by
  exact ⟨rfl, rfl, rfl, rfl, rfl, rfl, rfl, rfl, rfl, rfl, rfl, rfl, rfl, rfl, rfl, rfl, rfl, rfl, rfl, rfl, rfl, rfl, rfl, rfl, rfl, rfl, rfl, rfl, rfl, rfl, rfl, rfl, rfl⟩

@[simp] theorem State.store_frame (s : State) (a : Nat) (bs : List Byte) :
    (s.store a bs).pins = s.pins ∧ (s.store a bs).clk = s.clk ∧ (s.store a bs).pwr = s.pwr ∧
    (s.store a bs).aon = s.aon ∧ (s.store a bs).boot = s.boot ∧ (s.store a bs).stg = s.stg ∧
    (s.store a bs).flt = s.flt ∧ (s.store a bs).tel = s.tel ∧ (s.store a bs).dbg = s.dbg ∧
    (s.store a bs).que = s.que ∧ (s.store a bs).vlt = s.vlt ∧ (s.store a bs).hif = s.hif ∧
    (s.store a bs).str = s.str ∧ (s.store a bs).ldg = s.ldg ∧ (s.store a bs).eth = s.eth ∧
    (s.store a bs).ngl = s.ngl ∧ (s.store a bs).gth = s.gth ∧ (s.store a bs).azm = s.azm ∧
    (s.store a bs).ing = s.ing ∧ (s.store a bs).pak = s.pak ∧ (s.store a bs).sen = s.sen ∧
    (s.store a bs).servo = s.servo ∧ (s.store a bs).regs = s.regs ∧ (s.store a bs).shHost = s.shHost ∧
    (s.store a bs).shDbg = s.shDbg ∧ (s.store a bs).shVlt = s.shVlt ∧ (s.store a bs).host = s.host ∧
    (s.store a bs).flash = s.flash ∧ (s.store a bs).time = s.time ∧ (s.store a bs).spine = s.spine ∧
    (s.store a bs).free = s.free ∧ (s.store a bs).outs = s.outs ∧ (s.store a bs).pending = s.pending := by
  exact ⟨rfl, rfl, rfl, rfl, rfl, rfl, rfl, rfl, rfl, rfl, rfl, rfl, rfl, rfl, rfl, rfl, rfl, rfl, rfl, rfl, rfl, rfl, rfl, rfl, rfl, rfl, rfl, rfl, rfl, rfl, rfl, rfl, rfl⟩

@[simp] theorem State.setPort_frame (s : State) (p : Nat) (x : Port) :
    (s.setPort p x).pins = s.pins ∧ (s.setPort p x).clk = s.clk ∧ (s.setPort p x).pwr = s.pwr ∧
    (s.setPort p x).aon = s.aon ∧ (s.setPort p x).boot = s.boot ∧ (s.setPort p x).stg = s.stg ∧
    (s.setPort p x).flt = s.flt ∧ (s.setPort p x).tel = s.tel ∧ (s.setPort p x).dbg = s.dbg ∧
    (s.setPort p x).que = s.que ∧ (s.setPort p x).vlt = s.vlt ∧ (s.setPort p x).mem = s.mem ∧
    (s.setPort p x).hif = s.hif ∧ (s.setPort p x).str = s.str ∧ (s.setPort p x).ldg = s.ldg ∧
    (s.setPort p x).eth = s.eth ∧ (s.setPort p x).gth = s.gth ∧ (s.setPort p x).azm = s.azm ∧
    (s.setPort p x).ing = s.ing ∧ (s.setPort p x).pak = s.pak ∧ (s.setPort p x).sen = s.sen ∧
    (s.setPort p x).servo = s.servo ∧ (s.setPort p x).regs = s.regs ∧ (s.setPort p x).shHost = s.shHost ∧
    (s.setPort p x).shDbg = s.shDbg ∧ (s.setPort p x).shVlt = s.shVlt ∧ (s.setPort p x).host = s.host ∧
    (s.setPort p x).flash = s.flash ∧ (s.setPort p x).time = s.time ∧ (s.setPort p x).spine = s.spine ∧
    (s.setPort p x).free = s.free ∧ (s.setPort p x).outs = s.outs ∧ (s.setPort p x).pending = s.pending := by
  exact ⟨rfl, rfl, rfl, rfl, rfl, rfl, rfl, rfl, rfl, rfl, rfl, rfl, rfl, rfl, rfl, rfl, rfl, rfl, rfl, rfl, rfl, rfl, rfl, rfl, rfl, rfl, rfl, rfl, rfl, rfl, rfl, rfl, rfl⟩

@[simp] theorem State.popMsg_frame (s : State) (m : RxMsg) :
    (s.popMsg m).pins = s.pins ∧ (s.popMsg m).clk = s.clk ∧ (s.popMsg m).pwr = s.pwr ∧ (s.popMsg m).aon = s.aon ∧
    (s.popMsg m).boot = s.boot ∧ (s.popMsg m).stg = s.stg ∧ (s.popMsg m).flt = s.flt ∧ (s.popMsg m).tel = s.tel ∧
    (s.popMsg m).dbg = s.dbg ∧ (s.popMsg m).que = s.que ∧ (s.popMsg m).vlt = s.vlt ∧ (s.popMsg m).mem = s.mem ∧
    (s.popMsg m).hif = s.hif ∧ (s.popMsg m).str = s.str ∧ (s.popMsg m).ldg = s.ldg ∧ (s.popMsg m).eth = s.eth ∧
    (s.popMsg m).gth = s.gth ∧ (s.popMsg m).azm = s.azm ∧ (s.popMsg m).ing = s.ing ∧ (s.popMsg m).pak = s.pak ∧
    (s.popMsg m).sen = s.sen ∧ (s.popMsg m).servo = s.servo ∧ (s.popMsg m).regs = s.regs ∧
    (s.popMsg m).shHost = s.shHost ∧ (s.popMsg m).shDbg = s.shDbg ∧ (s.popMsg m).shVlt = s.shVlt ∧
    (s.popMsg m).host = s.host ∧ (s.popMsg m).flash = s.flash ∧ (s.popMsg m).time = s.time ∧
    (s.popMsg m).spine = s.spine ∧ (s.popMsg m).free = s.free ∧ (s.popMsg m).outs = s.outs ∧
    (s.popMsg m).pending = s.pending := by
  exact ⟨rfl, rfl, rfl, rfl, rfl, rfl, rfl, rfl, rfl, rfl, rfl, rfl, rfl, rfl, rfl, rfl, rfl, rfl, rfl, rfl, rfl, rfl, rfl, rfl, rfl, rfl, rfl, rfl, rfl, rfl, rfl, rfl, rfl⟩

@[simp] theorem State.setDomn_frame (s : State) (d : Domn) :
    (s.setDomn d).pins = s.pins ∧ (s.setDomn d).clk = s.clk ∧ (s.setDomn d).pwr = s.pwr ∧ (s.setDomn d).aon = s.aon ∧
    (s.setDomn d).boot = s.boot ∧ (s.setDomn d).stg = s.stg ∧ (s.setDomn d).flt = s.flt ∧ (s.setDomn d).tel = s.tel ∧
    (s.setDomn d).dbg = s.dbg ∧ (s.setDomn d).que = s.que ∧ (s.setDomn d).vlt = s.vlt ∧ (s.setDomn d).mem = s.mem ∧
    (s.setDomn d).hif = s.hif ∧ (s.setDomn d).str = s.str ∧ (s.setDomn d).ldg = s.ldg ∧ (s.setDomn d).eth = s.eth ∧
    (s.setDomn d).gth = s.gth ∧ (s.setDomn d).azm = s.azm ∧ (s.setDomn d).ing = s.ing ∧ (s.setDomn d).pak = s.pak ∧
    (s.setDomn d).sen = s.sen ∧ (s.setDomn d).servo = s.servo ∧ (s.setDomn d).regs = s.regs ∧
    (s.setDomn d).shHost = s.shHost ∧ (s.setDomn d).shDbg = s.shDbg ∧ (s.setDomn d).shVlt = s.shVlt ∧
    (s.setDomn d).host = s.host ∧ (s.setDomn d).flash = s.flash ∧ (s.setDomn d).time = s.time ∧
    (s.setDomn d).spine = s.spine ∧ (s.setDomn d).free = s.free ∧ (s.setDomn d).outs = s.outs ∧
    (s.setDomn d).pending = s.pending := by
  exact ⟨rfl, rfl, rfl, rfl, rfl, rfl, rfl, rfl, rfl, rfl, rfl, rfl, rfl, rfl, rfl, rfl, rfl, rfl, rfl, rfl, rfl, rfl, rfl, rfl, rfl, rfl, rfl, rfl, rfl, rfl, rfl, rfl, rfl⟩

@[simp] theorem State.setPull_frame (s : State) (n : Nat) (x : Pull) :
    (s.setPull n x).pins = s.pins ∧ (s.setPull n x).clk = s.clk ∧ (s.setPull n x).pwr = s.pwr ∧
    (s.setPull n x).aon = s.aon ∧ (s.setPull n x).boot = s.boot ∧ (s.setPull n x).stg = s.stg ∧
    (s.setPull n x).flt = s.flt ∧ (s.setPull n x).tel = s.tel ∧ (s.setPull n x).dbg = s.dbg ∧
    (s.setPull n x).que = s.que ∧ (s.setPull n x).vlt = s.vlt ∧ (s.setPull n x).mem = s.mem ∧
    (s.setPull n x).hif = s.hif ∧ (s.setPull n x).str = s.str ∧ (s.setPull n x).ldg = s.ldg ∧
    (s.setPull n x).eth = s.eth ∧ (s.setPull n x).gth = s.gth ∧ (s.setPull n x).azm = s.azm ∧
    (s.setPull n x).ing = s.ing ∧ (s.setPull n x).pak = s.pak ∧ (s.setPull n x).sen = s.sen ∧
    (s.setPull n x).servo = s.servo ∧ (s.setPull n x).regs = s.regs ∧ (s.setPull n x).shHost = s.shHost ∧
    (s.setPull n x).shDbg = s.shDbg ∧ (s.setPull n x).shVlt = s.shVlt ∧ (s.setPull n x).host = s.host ∧
    (s.setPull n x).flash = s.flash ∧ (s.setPull n x).time = s.time ∧ (s.setPull n x).spine = s.spine ∧
    (s.setPull n x).free = s.free ∧ (s.setPull n x).outs = s.outs ∧ (s.setPull n x).pending = s.pending := by
  exact ⟨rfl, rfl, rfl, rfl, rfl, rfl, rfl, rfl, rfl, rfl, rfl, rfl, rfl, rfl, rfl, rfl, rfl, rfl, rfl, rfl, rfl, rfl, rfl, rfl, rfl, rfl, rfl, rfl, rfl, rfl, rfl, rfl, rfl⟩

@[simp] theorem State.waitMsg_frame (s : State) (u : Nat) (m : Msg) :
    (s.waitMsg u m).pins = s.pins ∧ (s.waitMsg u m).clk = s.clk ∧ (s.waitMsg u m).pwr = s.pwr ∧
    (s.waitMsg u m).aon = s.aon ∧ (s.waitMsg u m).boot = s.boot ∧ (s.waitMsg u m).stg = s.stg ∧
    (s.waitMsg u m).flt = s.flt ∧ (s.waitMsg u m).tel = s.tel ∧ (s.waitMsg u m).dbg = s.dbg ∧
    (s.waitMsg u m).que = s.que ∧ (s.waitMsg u m).vlt = s.vlt ∧ (s.waitMsg u m).mem = s.mem ∧
    (s.waitMsg u m).hif = s.hif ∧ (s.waitMsg u m).str = s.str ∧ (s.waitMsg u m).ldg = s.ldg ∧
    (s.waitMsg u m).eth = s.eth ∧ (s.waitMsg u m).gth = s.gth ∧ (s.waitMsg u m).azm = s.azm ∧
    (s.waitMsg u m).ing = s.ing ∧ (s.waitMsg u m).pak = s.pak ∧ (s.waitMsg u m).sen = s.sen ∧
    (s.waitMsg u m).servo = s.servo ∧ (s.waitMsg u m).regs = s.regs ∧ (s.waitMsg u m).shHost = s.shHost ∧
    (s.waitMsg u m).shDbg = s.shDbg ∧ (s.waitMsg u m).shVlt = s.shVlt ∧ (s.waitMsg u m).host = s.host ∧
    (s.waitMsg u m).flash = s.flash ∧ (s.waitMsg u m).time = s.time ∧ (s.waitMsg u m).spine = s.spine ∧
    (s.waitMsg u m).free = s.free ∧ (s.waitMsg u m).outs = s.outs ∧ (s.waitMsg u m).pending = s.pending := by
  exact ⟨rfl, rfl, rfl, rfl, rfl, rfl, rfl, rfl, rfl, rfl, rfl, rfl, rfl, rfl, rfl, rfl, rfl, rfl, rfl, rfl, rfl, rfl, rfl, rfl, rfl, rfl, rfl, rfl, rfl, rfl, rfl, rfl, rfl⟩

@[simp] theorem State.setConn_frame (s : State) (c : Nat) (x : Conn) :
    (s.setConn c x).pins = s.pins ∧ (s.setConn c x).clk = s.clk ∧ (s.setConn c x).pwr = s.pwr ∧
    (s.setConn c x).aon = s.aon ∧ (s.setConn c x).boot = s.boot ∧ (s.setConn c x).stg = s.stg ∧
    (s.setConn c x).flt = s.flt ∧ (s.setConn c x).tel = s.tel ∧ (s.setConn c x).dbg = s.dbg ∧
    (s.setConn c x).que = s.que ∧ (s.setConn c x).vlt = s.vlt ∧ (s.setConn c x).mem = s.mem ∧
    (s.setConn c x).hif = s.hif ∧ (s.setConn c x).str = s.str ∧ (s.setConn c x).ldg = s.ldg ∧
    (s.setConn c x).ngl = s.ngl ∧ (s.setConn c x).gth = s.gth ∧ (s.setConn c x).azm = s.azm ∧
    (s.setConn c x).ing = s.ing ∧ (s.setConn c x).pak = s.pak ∧ (s.setConn c x).sen = s.sen ∧
    (s.setConn c x).servo = s.servo ∧ (s.setConn c x).regs = s.regs ∧ (s.setConn c x).shHost = s.shHost ∧
    (s.setConn c x).shDbg = s.shDbg ∧ (s.setConn c x).shVlt = s.shVlt ∧ (s.setConn c x).host = s.host ∧
    (s.setConn c x).flash = s.flash ∧ (s.setConn c x).time = s.time ∧ (s.setConn c x).spine = s.spine ∧
    (s.setConn c x).free = s.free ∧ (s.setConn c x).outs = s.outs ∧ (s.setConn c x).pending = s.pending := by
  exact ⟨rfl, rfl, rfl, rfl, rfl, rfl, rfl, rfl, rfl, rfl, rfl, rfl, rfl, rfl, rfl, rfl, rfl, rfl, rfl, rfl, rfl, rfl, rfl, rfl, rfl, rfl, rfl, rfl, rfl, rfl, rfl, rfl, rfl⟩

@[simp] theorem State.setEthPort_frame (s : State) (x : Nat) (p : EthPort) :
    (s.setEthPort x p).pins = s.pins ∧ (s.setEthPort x p).clk = s.clk ∧ (s.setEthPort x p).pwr = s.pwr ∧
    (s.setEthPort x p).aon = s.aon ∧ (s.setEthPort x p).boot = s.boot ∧ (s.setEthPort x p).stg = s.stg ∧
    (s.setEthPort x p).flt = s.flt ∧ (s.setEthPort x p).tel = s.tel ∧ (s.setEthPort x p).dbg = s.dbg ∧
    (s.setEthPort x p).que = s.que ∧ (s.setEthPort x p).vlt = s.vlt ∧ (s.setEthPort x p).mem = s.mem ∧
    (s.setEthPort x p).hif = s.hif ∧ (s.setEthPort x p).str = s.str ∧ (s.setEthPort x p).ldg = s.ldg ∧
    (s.setEthPort x p).ngl = s.ngl ∧ (s.setEthPort x p).gth = s.gth ∧ (s.setEthPort x p).azm = s.azm ∧
    (s.setEthPort x p).ing = s.ing ∧ (s.setEthPort x p).pak = s.pak ∧ (s.setEthPort x p).sen = s.sen ∧
    (s.setEthPort x p).servo = s.servo ∧ (s.setEthPort x p).regs = s.regs ∧ (s.setEthPort x p).shHost = s.shHost ∧
    (s.setEthPort x p).shDbg = s.shDbg ∧ (s.setEthPort x p).shVlt = s.shVlt ∧ (s.setEthPort x p).host = s.host ∧
    (s.setEthPort x p).flash = s.flash ∧ (s.setEthPort x p).time = s.time ∧ (s.setEthPort x p).spine = s.spine ∧
    (s.setEthPort x p).free = s.free ∧ (s.setEthPort x p).outs = s.outs ∧ (s.setEthPort x p).pending = s.pending := by
  exact ⟨rfl, rfl, rfl, rfl, rfl, rfl, rfl, rfl, rfl, rfl, rfl, rfl, rfl, rfl, rfl, rfl, rfl, rfl, rfl, rfl, rfl, rfl, rfl, rfl, rfl, rfl, rfl, rfl, rfl, rfl, rfl, rfl, rfl⟩

@[simp] theorem State.setQueue_frame (s : State) (q : Nat) (x : Queue) :
    (s.setQueue q x).pins = s.pins ∧ (s.setQueue q x).clk = s.clk ∧ (s.setQueue q x).pwr = s.pwr ∧
    (s.setQueue q x).aon = s.aon ∧ (s.setQueue q x).boot = s.boot ∧ (s.setQueue q x).stg = s.stg ∧
    (s.setQueue q x).flt = s.flt ∧ (s.setQueue q x).tel = s.tel ∧ (s.setQueue q x).dbg = s.dbg ∧
    (s.setQueue q x).vlt = s.vlt ∧ (s.setQueue q x).mem = s.mem ∧ (s.setQueue q x).hif = s.hif ∧
    (s.setQueue q x).str = s.str ∧ (s.setQueue q x).ldg = s.ldg ∧ (s.setQueue q x).eth = s.eth ∧
    (s.setQueue q x).ngl = s.ngl ∧ (s.setQueue q x).gth = s.gth ∧ (s.setQueue q x).azm = s.azm ∧
    (s.setQueue q x).ing = s.ing ∧ (s.setQueue q x).pak = s.pak ∧ (s.setQueue q x).sen = s.sen ∧
    (s.setQueue q x).servo = s.servo ∧ (s.setQueue q x).regs = s.regs ∧ (s.setQueue q x).shHost = s.shHost ∧
    (s.setQueue q x).shDbg = s.shDbg ∧ (s.setQueue q x).shVlt = s.shVlt ∧ (s.setQueue q x).host = s.host ∧
    (s.setQueue q x).flash = s.flash ∧ (s.setQueue q x).time = s.time ∧ (s.setQueue q x).spine = s.spine ∧
    (s.setQueue q x).free = s.free ∧ (s.setQueue q x).outs = s.outs ∧ (s.setQueue q x).pending = s.pending := by
  exact ⟨rfl, rfl, rfl, rfl, rfl, rfl, rfl, rfl, rfl, rfl, rfl, rfl, rfl, rfl, rfl, rfl, rfl, rfl, rfl, rfl, rfl, rfl, rfl, rfl, rfl, rfl, rfl, rfl, rfl, rfl, rfl, rfl, rfl⟩

@[simp] theorem State.setTask_frame (s : State) (t : Nat) (x : Option Task) :
    (s.setTask t x).pins = s.pins ∧ (s.setTask t x).clk = s.clk ∧ (s.setTask t x).pwr = s.pwr ∧
    (s.setTask t x).aon = s.aon ∧ (s.setTask t x).boot = s.boot ∧ (s.setTask t x).stg = s.stg ∧
    (s.setTask t x).flt = s.flt ∧ (s.setTask t x).tel = s.tel ∧ (s.setTask t x).dbg = s.dbg ∧
    (s.setTask t x).vlt = s.vlt ∧ (s.setTask t x).mem = s.mem ∧ (s.setTask t x).hif = s.hif ∧
    (s.setTask t x).str = s.str ∧ (s.setTask t x).ldg = s.ldg ∧ (s.setTask t x).eth = s.eth ∧
    (s.setTask t x).ngl = s.ngl ∧ (s.setTask t x).gth = s.gth ∧ (s.setTask t x).azm = s.azm ∧
    (s.setTask t x).ing = s.ing ∧ (s.setTask t x).pak = s.pak ∧ (s.setTask t x).sen = s.sen ∧
    (s.setTask t x).servo = s.servo ∧ (s.setTask t x).regs = s.regs ∧ (s.setTask t x).shHost = s.shHost ∧
    (s.setTask t x).shDbg = s.shDbg ∧ (s.setTask t x).shVlt = s.shVlt ∧ (s.setTask t x).host = s.host ∧
    (s.setTask t x).flash = s.flash ∧ (s.setTask t x).time = s.time ∧ (s.setTask t x).spine = s.spine ∧
    (s.setTask t x).free = s.free ∧ (s.setTask t x).outs = s.outs ∧ (s.setTask t x).pending = s.pending := by
  exact ⟨rfl, rfl, rfl, rfl, rfl, rfl, rfl, rfl, rfl, rfl, rfl, rfl, rfl, rfl, rfl, rfl, rfl, rfl, rfl, rfl, rfl, rfl, rfl, rfl, rfl, rfl, rfl, rfl, rfl, rfl, rfl, rfl, rfl⟩

@[simp] theorem State.setIsl_frame (s : State) (n : Nat) (x : Island) :
    (s.setIsl n x).pins = s.pins ∧ (s.setIsl n x).pwr = s.pwr ∧ (s.setIsl n x).aon = s.aon ∧
    (s.setIsl n x).boot = s.boot ∧ (s.setIsl n x).stg = s.stg ∧ (s.setIsl n x).flt = s.flt ∧
    (s.setIsl n x).tel = s.tel ∧ (s.setIsl n x).dbg = s.dbg ∧ (s.setIsl n x).que = s.que ∧
    (s.setIsl n x).vlt = s.vlt ∧ (s.setIsl n x).mem = s.mem ∧ (s.setIsl n x).hif = s.hif ∧
    (s.setIsl n x).str = s.str ∧ (s.setIsl n x).ldg = s.ldg ∧ (s.setIsl n x).eth = s.eth ∧
    (s.setIsl n x).ngl = s.ngl ∧ (s.setIsl n x).gth = s.gth ∧ (s.setIsl n x).azm = s.azm ∧
    (s.setIsl n x).ing = s.ing ∧ (s.setIsl n x).pak = s.pak ∧ (s.setIsl n x).sen = s.sen ∧
    (s.setIsl n x).servo = s.servo ∧ (s.setIsl n x).regs = s.regs ∧ (s.setIsl n x).shHost = s.shHost ∧
    (s.setIsl n x).shDbg = s.shDbg ∧ (s.setIsl n x).shVlt = s.shVlt ∧ (s.setIsl n x).host = s.host ∧
    (s.setIsl n x).flash = s.flash ∧ (s.setIsl n x).time = s.time ∧ (s.setIsl n x).spine = s.spine ∧
    (s.setIsl n x).free = s.free ∧ (s.setIsl n x).outs = s.outs ∧ (s.setIsl n x).pending = s.pending := by
  exact ⟨rfl, rfl, rfl, rfl, rfl, rfl, rfl, rfl, rfl, rfl, rfl, rfl, rfl, rfl, rfl, rfl, rfl, rfl, rfl, rfl, rfl, rfl, rfl, rfl, rfl, rfl, rfl, rfl, rfl, rfl, rfl, rfl, rfl⟩

@[simp] theorem State.setLane_frame (s : State) (l : Nat) (x : Lane) :
    (s.setLane l x).pins = s.pins ∧ (s.setLane l x).pwr = s.pwr ∧ (s.setLane l x).aon = s.aon ∧
    (s.setLane l x).boot = s.boot ∧ (s.setLane l x).stg = s.stg ∧ (s.setLane l x).flt = s.flt ∧
    (s.setLane l x).tel = s.tel ∧ (s.setLane l x).dbg = s.dbg ∧ (s.setLane l x).que = s.que ∧
    (s.setLane l x).vlt = s.vlt ∧ (s.setLane l x).mem = s.mem ∧ (s.setLane l x).hif = s.hif ∧
    (s.setLane l x).str = s.str ∧ (s.setLane l x).ldg = s.ldg ∧ (s.setLane l x).eth = s.eth ∧
    (s.setLane l x).ngl = s.ngl ∧ (s.setLane l x).gth = s.gth ∧ (s.setLane l x).azm = s.azm ∧
    (s.setLane l x).ing = s.ing ∧ (s.setLane l x).pak = s.pak ∧ (s.setLane l x).sen = s.sen ∧
    (s.setLane l x).servo = s.servo ∧ (s.setLane l x).regs = s.regs ∧ (s.setLane l x).shHost = s.shHost ∧
    (s.setLane l x).shDbg = s.shDbg ∧ (s.setLane l x).shVlt = s.shVlt ∧ (s.setLane l x).host = s.host ∧
    (s.setLane l x).flash = s.flash ∧ (s.setLane l x).time = s.time ∧ (s.setLane l x).spine = s.spine ∧
    (s.setLane l x).free = s.free ∧ (s.setLane l x).outs = s.outs ∧ (s.setLane l x).pending = s.pending := by
  exact ⟨rfl, rfl, rfl, rfl, rfl, rfl, rfl, rfl, rfl, rfl, rfl, rfl, rfl, rfl, rfl, rfl, rfl, rfl, rfl, rfl, rfl, rfl, rfl, rfl, rfl, rfl, rfl, rfl, rfl, rfl, rfl, rfl, rfl⟩

@[simp] theorem State.setUnit_frame (s : State) (u : Nat) (x : FUnit) :
    (s.setUnit u x).pins = s.pins ∧ (s.setUnit u x).clk = s.clk ∧ (s.setUnit u x).pwr = s.pwr ∧
    (s.setUnit u x).aon = s.aon ∧ (s.setUnit u x).boot = s.boot ∧ (s.setUnit u x).stg = s.stg ∧
    (s.setUnit u x).tel = s.tel ∧ (s.setUnit u x).dbg = s.dbg ∧ (s.setUnit u x).que = s.que ∧
    (s.setUnit u x).vlt = s.vlt ∧ (s.setUnit u x).mem = s.mem ∧ (s.setUnit u x).hif = s.hif ∧
    (s.setUnit u x).str = s.str ∧ (s.setUnit u x).ldg = s.ldg ∧ (s.setUnit u x).eth = s.eth ∧
    (s.setUnit u x).ngl = s.ngl ∧ (s.setUnit u x).gth = s.gth ∧ (s.setUnit u x).azm = s.azm ∧
    (s.setUnit u x).ing = s.ing ∧ (s.setUnit u x).pak = s.pak ∧ (s.setUnit u x).sen = s.sen ∧
    (s.setUnit u x).servo = s.servo ∧ (s.setUnit u x).regs = s.regs ∧ (s.setUnit u x).shHost = s.shHost ∧
    (s.setUnit u x).shDbg = s.shDbg ∧ (s.setUnit u x).shVlt = s.shVlt ∧ (s.setUnit u x).host = s.host ∧
    (s.setUnit u x).flash = s.flash ∧ (s.setUnit u x).time = s.time ∧ (s.setUnit u x).spine = s.spine ∧
    (s.setUnit u x).free = s.free ∧ (s.setUnit u x).outs = s.outs ∧ (s.setUnit u x).pending = s.pending := by
  exact ⟨rfl, rfl, rfl, rfl, rfl, rfl, rfl, rfl, rfl, rfl, rfl, rfl, rfl, rfl, rfl, rfl, rfl, rfl, rfl, rfl, rfl, rfl, rfl, rfl, rfl, rfl, rfl, rfl, rfl, rfl, rfl, rfl, rfl⟩

@[simp] theorem State.gatePut_frame (s : State) (u : Nat) (e : Eff) :
    (s.gatePut u e).pins = s.pins ∧ (s.gatePut u e).clk = s.clk ∧ (s.gatePut u e).pwr = s.pwr ∧
    (s.gatePut u e).aon = s.aon ∧ (s.gatePut u e).boot = s.boot ∧ (s.gatePut u e).stg = s.stg ∧
    (s.gatePut u e).tel = s.tel ∧ (s.gatePut u e).dbg = s.dbg ∧ (s.gatePut u e).que = s.que ∧
    (s.gatePut u e).vlt = s.vlt ∧ (s.gatePut u e).mem = s.mem ∧ (s.gatePut u e).hif = s.hif ∧
    (s.gatePut u e).str = s.str ∧ (s.gatePut u e).ldg = s.ldg ∧ (s.gatePut u e).eth = s.eth ∧
    (s.gatePut u e).ngl = s.ngl ∧ (s.gatePut u e).gth = s.gth ∧ (s.gatePut u e).azm = s.azm ∧
    (s.gatePut u e).ing = s.ing ∧ (s.gatePut u e).pak = s.pak ∧ (s.gatePut u e).sen = s.sen ∧
    (s.gatePut u e).servo = s.servo ∧ (s.gatePut u e).regs = s.regs ∧ (s.gatePut u e).shHost = s.shHost ∧
    (s.gatePut u e).shDbg = s.shDbg ∧ (s.gatePut u e).shVlt = s.shVlt ∧ (s.gatePut u e).host = s.host ∧
    (s.gatePut u e).flash = s.flash ∧ (s.gatePut u e).time = s.time ∧ (s.gatePut u e).spine = s.spine ∧
    (s.gatePut u e).free = s.free ∧ (s.gatePut u e).outs = s.outs ∧ (s.gatePut u e).pending = s.pending := by
  exact ⟨rfl, rfl, rfl, rfl, rfl, rfl, rfl, rfl, rfl, rfl, rfl, rfl, rfl, rfl, rfl, rfl, rfl, rfl, rfl, rfl, rfl, rfl, rfl, rfl, rfl, rfl, rfl, rfl, rfl, rfl, rfl, rfl, rfl⟩

@[simp] theorem State.gateMsg_frame (s : State) (u : Nat) (m : Msg) :
    (s.gateMsg u m).pins = s.pins ∧ (s.gateMsg u m).clk = s.clk ∧ (s.gateMsg u m).pwr = s.pwr ∧
    (s.gateMsg u m).aon = s.aon ∧ (s.gateMsg u m).boot = s.boot ∧ (s.gateMsg u m).stg = s.stg ∧
    (s.gateMsg u m).tel = s.tel ∧ (s.gateMsg u m).dbg = s.dbg ∧ (s.gateMsg u m).que = s.que ∧
    (s.gateMsg u m).vlt = s.vlt ∧ (s.gateMsg u m).mem = s.mem ∧ (s.gateMsg u m).hif = s.hif ∧
    (s.gateMsg u m).str = s.str ∧ (s.gateMsg u m).ldg = s.ldg ∧ (s.gateMsg u m).eth = s.eth ∧
    (s.gateMsg u m).ngl = s.ngl ∧ (s.gateMsg u m).gth = s.gth ∧ (s.gateMsg u m).azm = s.azm ∧
    (s.gateMsg u m).ing = s.ing ∧ (s.gateMsg u m).pak = s.pak ∧ (s.gateMsg u m).sen = s.sen ∧
    (s.gateMsg u m).servo = s.servo ∧ (s.gateMsg u m).regs = s.regs ∧ (s.gateMsg u m).shHost = s.shHost ∧
    (s.gateMsg u m).shDbg = s.shDbg ∧ (s.gateMsg u m).shVlt = s.shVlt ∧ (s.gateMsg u m).host = s.host ∧
    (s.gateMsg u m).flash = s.flash ∧ (s.gateMsg u m).time = s.time ∧ (s.gateMsg u m).spine = s.spine ∧
    (s.gateMsg u m).free = s.free ∧ (s.gateMsg u m).outs = s.outs ∧ (s.gateMsg u m).pending = s.pending := by
  exact ⟨rfl, rfl, rfl, rfl, rfl, rfl, rfl, rfl, rfl, rfl, rfl, rfl, rfl, rfl, rfl, rfl, rfl, rfl, rfl, rfl, rfl, rfl, rfl, rfl, rfl, rfl, rfl, rfl, rfl, rfl, rfl, rfl, rfl⟩

@[simp] theorem State.noteFault_frame (s : State) (u : Nat) (mark : Option Nat) :
    (s.noteFault u mark).pins = s.pins ∧ (s.noteFault u mark).clk = s.clk ∧ (s.noteFault u mark).pwr = s.pwr ∧
    (s.noteFault u mark).aon = s.aon ∧ (s.noteFault u mark).boot = s.boot ∧ (s.noteFault u mark).stg = s.stg ∧
    (s.noteFault u mark).tel = s.tel ∧ (s.noteFault u mark).dbg = s.dbg ∧ (s.noteFault u mark).que = s.que ∧
    (s.noteFault u mark).vlt = s.vlt ∧ (s.noteFault u mark).mem = s.mem ∧ (s.noteFault u mark).hif = s.hif ∧
    (s.noteFault u mark).str = s.str ∧ (s.noteFault u mark).ldg = s.ldg ∧ (s.noteFault u mark).eth = s.eth ∧
    (s.noteFault u mark).ngl = s.ngl ∧ (s.noteFault u mark).gth = s.gth ∧ (s.noteFault u mark).azm = s.azm ∧
    (s.noteFault u mark).ing = s.ing ∧ (s.noteFault u mark).pak = s.pak ∧ (s.noteFault u mark).sen = s.sen ∧
    (s.noteFault u mark).servo = s.servo ∧ (s.noteFault u mark).regs = s.regs ∧
    (s.noteFault u mark).shHost = s.shHost ∧ (s.noteFault u mark).shDbg = s.shDbg ∧
    (s.noteFault u mark).shVlt = s.shVlt ∧ (s.noteFault u mark).host = s.host ∧ (s.noteFault u mark).flash = s.flash ∧
    (s.noteFault u mark).time = s.time ∧ (s.noteFault u mark).spine = s.spine ∧ (s.noteFault u mark).free = s.free ∧
    (s.noteFault u mark).outs = s.outs ∧ (s.noteFault u mark).pending = s.pending := by
  exact ⟨rfl, rfl, rfl, rfl, rfl, rfl, rfl, rfl, rfl, rfl, rfl, rfl, rfl, rfl, rfl, rfl, rfl, rfl, rfl, rfl, rfl, rfl, rfl, rfl, rfl, rfl, rfl, rfl, rfl, rfl, rfl, rfl, rfl⟩

@[simp] theorem State.setDom_frame (s : State) (d : Nat) (x : Dom) :
    (s.setDom d x).pins = s.pins ∧ (s.setDom d x).clk = s.clk ∧ (s.setDom d x).aon = s.aon ∧
    (s.setDom d x).boot = s.boot ∧ (s.setDom d x).stg = s.stg ∧ (s.setDom d x).flt = s.flt ∧
    (s.setDom d x).tel = s.tel ∧ (s.setDom d x).dbg = s.dbg ∧ (s.setDom d x).que = s.que ∧
    (s.setDom d x).vlt = s.vlt ∧ (s.setDom d x).mem = s.mem ∧ (s.setDom d x).hif = s.hif ∧
    (s.setDom d x).str = s.str ∧ (s.setDom d x).ldg = s.ldg ∧ (s.setDom d x).eth = s.eth ∧
    (s.setDom d x).ngl = s.ngl ∧ (s.setDom d x).gth = s.gth ∧ (s.setDom d x).azm = s.azm ∧
    (s.setDom d x).ing = s.ing ∧ (s.setDom d x).pak = s.pak ∧ (s.setDom d x).sen = s.sen ∧
    (s.setDom d x).servo = s.servo ∧ (s.setDom d x).regs = s.regs ∧ (s.setDom d x).shHost = s.shHost ∧
    (s.setDom d x).shDbg = s.shDbg ∧ (s.setDom d x).shVlt = s.shVlt ∧ (s.setDom d x).host = s.host ∧
    (s.setDom d x).flash = s.flash ∧ (s.setDom d x).time = s.time ∧ (s.setDom d x).spine = s.spine ∧
    (s.setDom d x).free = s.free ∧ (s.setDom d x).outs = s.outs ∧ (s.setDom d x).pending = s.pending := by
  exact ⟨rfl, rfl, rfl, rfl, rfl, rfl, rfl, rfl, rfl, rfl, rfl, rfl, rfl, rfl, rfl, rfl, rfl, rfl, rfl, rfl, rfl, rfl, rfl, rfl, rfl, rfl, rfl, rfl, rfl, rfl, rfl, rfl, rfl⟩

@[simp] theorem State.setRec_frame (s : State) (r : IngRec) :
    (s.setRec r).pins = s.pins ∧ (s.setRec r).clk = s.clk ∧ (s.setRec r).pwr = s.pwr ∧ (s.setRec r).aon = s.aon ∧
    (s.setRec r).boot = s.boot ∧ (s.setRec r).stg = s.stg ∧ (s.setRec r).flt = s.flt ∧ (s.setRec r).tel = s.tel ∧
    (s.setRec r).dbg = s.dbg ∧ (s.setRec r).que = s.que ∧ (s.setRec r).vlt = s.vlt ∧ (s.setRec r).mem = s.mem ∧
    (s.setRec r).hif = s.hif ∧ (s.setRec r).str = s.str ∧ (s.setRec r).ldg = s.ldg ∧ (s.setRec r).eth = s.eth ∧
    (s.setRec r).ngl = s.ngl ∧ (s.setRec r).gth = s.gth ∧ (s.setRec r).azm = s.azm ∧ (s.setRec r).pak = s.pak ∧
    (s.setRec r).sen = s.sen ∧ (s.setRec r).servo = s.servo ∧ (s.setRec r).regs = s.regs ∧
    (s.setRec r).shHost = s.shHost ∧ (s.setRec r).shDbg = s.shDbg ∧ (s.setRec r).shVlt = s.shVlt ∧
    (s.setRec r).host = s.host ∧ (s.setRec r).flash = s.flash ∧ (s.setRec r).time = s.time ∧
    (s.setRec r).spine = s.spine ∧ (s.setRec r).free = s.free ∧ (s.setRec r).outs = s.outs ∧
    (s.setRec r).pending = s.pending := by
  exact ⟨rfl, rfl, rfl, rfl, rfl, rfl, rfl, rfl, rfl, rfl, rfl, rfl, rfl, rfl, rfl, rfl, rfl, rfl, rfl, rfl, rfl, rfl, rfl, rfl, rfl, rfl, rfl, rfl, rfl, rfl, rfl, rfl, rfl⟩

@[simp] theorem State.setVpath_frame (s : State) (dbg : Bool) (v : VPath) :
    (s.setVpath dbg v).pins = s.pins ∧ (s.setVpath dbg v).clk = s.clk ∧ (s.setVpath dbg v).pwr = s.pwr ∧
    (s.setVpath dbg v).aon = s.aon ∧ (s.setVpath dbg v).boot = s.boot ∧ (s.setVpath dbg v).stg = s.stg ∧
    (s.setVpath dbg v).flt = s.flt ∧ (s.setVpath dbg v).tel = s.tel ∧ (s.setVpath dbg v).dbg = s.dbg ∧
    (s.setVpath dbg v).que = s.que ∧ (s.setVpath dbg v).mem = s.mem ∧ (s.setVpath dbg v).hif = s.hif ∧
    (s.setVpath dbg v).str = s.str ∧ (s.setVpath dbg v).ldg = s.ldg ∧ (s.setVpath dbg v).eth = s.eth ∧
    (s.setVpath dbg v).ngl = s.ngl ∧ (s.setVpath dbg v).gth = s.gth ∧ (s.setVpath dbg v).azm = s.azm ∧
    (s.setVpath dbg v).ing = s.ing ∧ (s.setVpath dbg v).pak = s.pak ∧ (s.setVpath dbg v).sen = s.sen ∧
    (s.setVpath dbg v).servo = s.servo ∧ (s.setVpath dbg v).regs = s.regs ∧ (s.setVpath dbg v).shHost = s.shHost ∧
    (s.setVpath dbg v).shDbg = s.shDbg ∧ (s.setVpath dbg v).shVlt = s.shVlt ∧ (s.setVpath dbg v).host = s.host ∧
    (s.setVpath dbg v).flash = s.flash ∧ (s.setVpath dbg v).time = s.time ∧ (s.setVpath dbg v).spine = s.spine ∧
    (s.setVpath dbg v).free = s.free ∧ (s.setVpath dbg v).outs = s.outs ∧ (s.setVpath dbg v).pending = s.pending := by
  exact ⟨rfl, rfl, rfl, rfl, rfl, rfl, rfl, rfl, rfl, rfl, rfl, rfl, rfl, rfl, rfl, rfl, rfl, rfl, rfl, rfl, rfl, rfl, rfl, rfl, rfl, rfl, rfl, rfl, rfl, rfl, rfl, rfl, rfl⟩

@[simp] theorem State.setFuses_frame (s : State) (f : Fuses) :
    (s.setFuses f).pins = s.pins ∧ (s.setFuses f).clk = s.clk ∧ (s.setFuses f).pwr = s.pwr ∧
    (s.setFuses f).aon = s.aon ∧ (s.setFuses f).boot = s.boot ∧ (s.setFuses f).stg = s.stg ∧
    (s.setFuses f).flt = s.flt ∧ (s.setFuses f).tel = s.tel ∧ (s.setFuses f).dbg = s.dbg ∧
    (s.setFuses f).que = s.que ∧ (s.setFuses f).mem = s.mem ∧ (s.setFuses f).hif = s.hif ∧
    (s.setFuses f).str = s.str ∧ (s.setFuses f).ldg = s.ldg ∧ (s.setFuses f).eth = s.eth ∧
    (s.setFuses f).ngl = s.ngl ∧ (s.setFuses f).gth = s.gth ∧ (s.setFuses f).azm = s.azm ∧
    (s.setFuses f).ing = s.ing ∧ (s.setFuses f).pak = s.pak ∧ (s.setFuses f).sen = s.sen ∧
    (s.setFuses f).servo = s.servo ∧ (s.setFuses f).regs = s.regs ∧ (s.setFuses f).shHost = s.shHost ∧
    (s.setFuses f).shDbg = s.shDbg ∧ (s.setFuses f).shVlt = s.shVlt ∧ (s.setFuses f).host = s.host ∧
    (s.setFuses f).flash = s.flash ∧ (s.setFuses f).time = s.time ∧ (s.setFuses f).spine = s.spine ∧
    (s.setFuses f).free = s.free ∧ (s.setFuses f).outs = s.outs ∧ (s.setFuses f).pending = s.pending := by
  exact ⟨rfl, rfl, rfl, rfl, rfl, rfl, rfl, rfl, rfl, rfl, rfl, rfl, rfl, rfl, rfl, rfl, rfl, rfl, rfl, rfl, rfl, rfl, rfl, rfl, rfl, rfl, rfl, rfl, rfl, rfl, rfl, rfl, rfl⟩

@[simp] theorem State.setCtx_frame (s : State) (n : Nat) (c : Ctx) :
    (s.setCtx n c).pins = s.pins ∧ (s.setCtx n c).clk = s.clk ∧ (s.setCtx n c).pwr = s.pwr ∧
    (s.setCtx n c).aon = s.aon ∧ (s.setCtx n c).boot = s.boot ∧ (s.setCtx n c).stg = s.stg ∧
    (s.setCtx n c).flt = s.flt ∧ (s.setCtx n c).tel = s.tel ∧ (s.setCtx n c).dbg = s.dbg ∧
    (s.setCtx n c).que = s.que ∧ (s.setCtx n c).vlt = s.vlt ∧ (s.setCtx n c).mem = s.mem ∧
    (s.setCtx n c).hif = s.hif ∧ (s.setCtx n c).str = s.str ∧ (s.setCtx n c).eth = s.eth ∧
    (s.setCtx n c).ngl = s.ngl ∧ (s.setCtx n c).gth = s.gth ∧ (s.setCtx n c).azm = s.azm ∧
    (s.setCtx n c).ing = s.ing ∧ (s.setCtx n c).pak = s.pak ∧ (s.setCtx n c).sen = s.sen ∧
    (s.setCtx n c).servo = s.servo ∧ (s.setCtx n c).regs = s.regs ∧ (s.setCtx n c).shHost = s.shHost ∧
    (s.setCtx n c).shDbg = s.shDbg ∧ (s.setCtx n c).shVlt = s.shVlt ∧ (s.setCtx n c).host = s.host ∧
    (s.setCtx n c).flash = s.flash ∧ (s.setCtx n c).time = s.time ∧ (s.setCtx n c).spine = s.spine ∧
    (s.setCtx n c).free = s.free ∧ (s.setCtx n c).outs = s.outs ∧ (s.setCtx n c).pending = s.pending := by
  exact ⟨rfl, rfl, rfl, rfl, rfl, rfl, rfl, rfl, rfl, rfl, rfl, rfl, rfl, rfl, rfl, rfl, rfl, rfl, rfl, rfl, rfl, rfl, rfl, rfl, rfl, rfl, rfl, rfl, rfl, rfl, rfl, rfl, rfl⟩

@[simp] theorem State.journal_frame (s : State) (type pipe id arg0 arg1 : Nat) :
    (s.journal type pipe id arg0 arg1).pins = s.pins ∧ (s.journal type pipe id arg0 arg1).clk = s.clk ∧
    (s.journal type pipe id arg0 arg1).pwr = s.pwr ∧ (s.journal type pipe id arg0 arg1).aon = s.aon ∧
    (s.journal type pipe id arg0 arg1).boot = s.boot ∧ (s.journal type pipe id arg0 arg1).stg = s.stg ∧
    (s.journal type pipe id arg0 arg1).flt = s.flt ∧ (s.journal type pipe id arg0 arg1).tel = s.tel ∧
    (s.journal type pipe id arg0 arg1).dbg = s.dbg ∧ (s.journal type pipe id arg0 arg1).que = s.que ∧
    (s.journal type pipe id arg0 arg1).vlt = s.vlt ∧ (s.journal type pipe id arg0 arg1).mem = s.mem ∧
    (s.journal type pipe id arg0 arg1).hif = s.hif ∧ (s.journal type pipe id arg0 arg1).str = s.str ∧
    (s.journal type pipe id arg0 arg1).eth = s.eth ∧ (s.journal type pipe id arg0 arg1).ngl = s.ngl ∧
    (s.journal type pipe id arg0 arg1).gth = s.gth ∧ (s.journal type pipe id arg0 arg1).azm = s.azm ∧
    (s.journal type pipe id arg0 arg1).ing = s.ing ∧ (s.journal type pipe id arg0 arg1).pak = s.pak ∧
    (s.journal type pipe id arg0 arg1).sen = s.sen ∧ (s.journal type pipe id arg0 arg1).servo = s.servo ∧
    (s.journal type pipe id arg0 arg1).regs = s.regs ∧ (s.journal type pipe id arg0 arg1).shHost = s.shHost ∧
    (s.journal type pipe id arg0 arg1).shDbg = s.shDbg ∧ (s.journal type pipe id arg0 arg1).shVlt = s.shVlt ∧
    (s.journal type pipe id arg0 arg1).host = s.host ∧ (s.journal type pipe id arg0 arg1).flash = s.flash ∧
    (s.journal type pipe id arg0 arg1).time = s.time ∧ (s.journal type pipe id arg0 arg1).spine = s.spine ∧
    (s.journal type pipe id arg0 arg1).free = s.free ∧ (s.journal type pipe id arg0 arg1).outs = s.outs ∧
    (s.journal type pipe id arg0 arg1).pending = s.pending := by
  exact ⟨rfl, rfl, rfl, rfl, rfl, rfl, rfl, rfl, rfl, rfl, rfl, rfl, rfl, rfl, rfl, rfl, rfl, rfl, rfl, rfl, rfl, rfl, rfl, rfl, rfl, rfl, rfl, rfl, rfl, rfl, rfl, rfl, rfl⟩

@[simp] theorem State.setCc_frame (s : State) (l : Nat) (x : Option CcLine) :
    (s.setCc l x).pins = s.pins ∧ (s.setCc l x).clk = s.clk ∧ (s.setCc l x).pwr = s.pwr ∧ (s.setCc l x).aon = s.aon ∧
    (s.setCc l x).boot = s.boot ∧ (s.setCc l x).stg = s.stg ∧ (s.setCc l x).flt = s.flt ∧ (s.setCc l x).tel = s.tel ∧
    (s.setCc l x).dbg = s.dbg ∧ (s.setCc l x).que = s.que ∧ (s.setCc l x).vlt = s.vlt ∧ (s.setCc l x).mem = s.mem ∧
    (s.setCc l x).str = s.str ∧ (s.setCc l x).ldg = s.ldg ∧ (s.setCc l x).eth = s.eth ∧ (s.setCc l x).ngl = s.ngl ∧
    (s.setCc l x).gth = s.gth ∧ (s.setCc l x).azm = s.azm ∧ (s.setCc l x).ing = s.ing ∧ (s.setCc l x).pak = s.pak ∧
    (s.setCc l x).sen = s.sen ∧ (s.setCc l x).servo = s.servo ∧ (s.setCc l x).regs = s.regs ∧
    (s.setCc l x).shHost = s.shHost ∧ (s.setCc l x).shDbg = s.shDbg ∧ (s.setCc l x).shVlt = s.shVlt ∧
    (s.setCc l x).host = s.host ∧ (s.setCc l x).flash = s.flash ∧ (s.setCc l x).time = s.time ∧
    (s.setCc l x).spine = s.spine ∧ (s.setCc l x).free = s.free ∧ (s.setCc l x).outs = s.outs ∧
    (s.setCc l x).pending = s.pending := by
  exact ⟨rfl, rfl, rfl, rfl, rfl, rfl, rfl, rfl, rfl, rfl, rfl, rfl, rfl, rfl, rfl, rfl, rfl, rfl, rfl, rfl, rfl, rfl, rfl, rfl, rfl, rfl, rfl, rfl, rfl, rfl, rfl, rfl, rfl⟩

@[simp] theorem State.setRead_frame (s : State) (tag : Nat) (x : Option HostRead) :
    (s.setRead tag x).pins = s.pins ∧ (s.setRead tag x).clk = s.clk ∧ (s.setRead tag x).pwr = s.pwr ∧
    (s.setRead tag x).aon = s.aon ∧ (s.setRead tag x).boot = s.boot ∧ (s.setRead tag x).stg = s.stg ∧
    (s.setRead tag x).flt = s.flt ∧ (s.setRead tag x).tel = s.tel ∧ (s.setRead tag x).dbg = s.dbg ∧
    (s.setRead tag x).que = s.que ∧ (s.setRead tag x).vlt = s.vlt ∧ (s.setRead tag x).mem = s.mem ∧
    (s.setRead tag x).str = s.str ∧ (s.setRead tag x).ldg = s.ldg ∧ (s.setRead tag x).eth = s.eth ∧
    (s.setRead tag x).ngl = s.ngl ∧ (s.setRead tag x).gth = s.gth ∧ (s.setRead tag x).azm = s.azm ∧
    (s.setRead tag x).ing = s.ing ∧ (s.setRead tag x).pak = s.pak ∧ (s.setRead tag x).sen = s.sen ∧
    (s.setRead tag x).servo = s.servo ∧ (s.setRead tag x).regs = s.regs ∧ (s.setRead tag x).shHost = s.shHost ∧
    (s.setRead tag x).shDbg = s.shDbg ∧ (s.setRead tag x).shVlt = s.shVlt ∧ (s.setRead tag x).host = s.host ∧
    (s.setRead tag x).flash = s.flash ∧ (s.setRead tag x).time = s.time ∧ (s.setRead tag x).spine = s.spine ∧
    (s.setRead tag x).free = s.free ∧ (s.setRead tag x).outs = s.outs ∧ (s.setRead tag x).pending = s.pending := by
  exact ⟨rfl, rfl, rfl, rfl, rfl, rfl, rfl, rfl, rfl, rfl, rfl, rfl, rfl, rfl, rfl, rfl, rfl, rfl, rfl, rfl, rfl, rfl, rfl, rfl, rfl, rfl, rfl, rfl, rfl, rfl, rfl, rfl, rfl⟩

@[simp] theorem State.setLayer_frame (s : State) (l : Nat) (x : Layer) :
    (s.setLayer l x).pins = s.pins ∧ (s.setLayer l x).clk = s.clk ∧ (s.setLayer l x).pwr = s.pwr ∧
    (s.setLayer l x).aon = s.aon ∧ (s.setLayer l x).boot = s.boot ∧ (s.setLayer l x).stg = s.stg ∧
    (s.setLayer l x).flt = s.flt ∧ (s.setLayer l x).tel = s.tel ∧ (s.setLayer l x).dbg = s.dbg ∧
    (s.setLayer l x).que = s.que ∧ (s.setLayer l x).vlt = s.vlt ∧ (s.setLayer l x).mem = s.mem ∧
    (s.setLayer l x).hif = s.hif ∧ (s.setLayer l x).str = s.str ∧ (s.setLayer l x).ldg = s.ldg ∧
    (s.setLayer l x).eth = s.eth ∧ (s.setLayer l x).ngl = s.ngl ∧ (s.setLayer l x).gth = s.gth ∧
    (s.setLayer l x).azm = s.azm ∧ (s.setLayer l x).ing = s.ing ∧ (s.setLayer l x).pak = s.pak ∧
    (s.setLayer l x).servo = s.servo ∧ (s.setLayer l x).regs = s.regs ∧ (s.setLayer l x).shHost = s.shHost ∧
    (s.setLayer l x).shDbg = s.shDbg ∧ (s.setLayer l x).shVlt = s.shVlt ∧ (s.setLayer l x).host = s.host ∧
    (s.setLayer l x).flash = s.flash ∧ (s.setLayer l x).time = s.time ∧ (s.setLayer l x).spine = s.spine ∧
    (s.setLayer l x).free = s.free ∧ (s.setLayer l x).outs = s.outs ∧ (s.setLayer l x).pending = s.pending := by
  exact ⟨rfl, rfl, rfl, rfl, rfl, rfl, rfl, rfl, rfl, rfl, rfl, rfl, rfl, rfl, rfl, rfl, rfl, rfl, rfl, rfl, rfl, rfl, rfl, rfl, rfl, rfl, rfl, rfl, rfl, rfl, rfl, rfl, rfl⟩

@[simp] theorem State.setGroup_frame (s : State) (g : Nat) (x : Group) :
    (s.setGroup g x).pins = s.pins ∧ (s.setGroup g x).clk = s.clk ∧ (s.setGroup g x).pwr = s.pwr ∧
    (s.setGroup g x).aon = s.aon ∧ (s.setGroup g x).boot = s.boot ∧ (s.setGroup g x).stg = s.stg ∧
    (s.setGroup g x).flt = s.flt ∧ (s.setGroup g x).tel = s.tel ∧ (s.setGroup g x).dbg = s.dbg ∧
    (s.setGroup g x).que = s.que ∧ (s.setGroup g x).vlt = s.vlt ∧ (s.setGroup g x).mem = s.mem ∧
    (s.setGroup g x).hif = s.hif ∧ (s.setGroup g x).str = s.str ∧ (s.setGroup g x).ldg = s.ldg ∧
    (s.setGroup g x).eth = s.eth ∧ (s.setGroup g x).ngl = s.ngl ∧ (s.setGroup g x).gth = s.gth ∧
    (s.setGroup g x).azm = s.azm ∧ (s.setGroup g x).ing = s.ing ∧ (s.setGroup g x).pak = s.pak ∧
    (s.setGroup g x).servo = s.servo ∧ (s.setGroup g x).regs = s.regs ∧ (s.setGroup g x).shHost = s.shHost ∧
    (s.setGroup g x).shDbg = s.shDbg ∧ (s.setGroup g x).shVlt = s.shVlt ∧ (s.setGroup g x).host = s.host ∧
    (s.setGroup g x).flash = s.flash ∧ (s.setGroup g x).time = s.time ∧ (s.setGroup g x).spine = s.spine ∧
    (s.setGroup g x).free = s.free ∧ (s.setGroup g x).outs = s.outs ∧ (s.setGroup g x).pending = s.pending := by
  exact ⟨rfl, rfl, rfl, rfl, rfl, rfl, rfl, rfl, rfl, rfl, rfl, rfl, rfl, rfl, rfl, rfl, rfl, rfl, rfl, rfl, rfl, rfl, rfl, rfl, rfl, rfl, rfl, rfl, rfl, rfl, rfl, rfl, rfl⟩

@[simp] theorem State.setTrig_frame (s : State) (t : Nat) (x : Trig) :
    (s.setTrig t x).pins = s.pins ∧ (s.setTrig t x).clk = s.clk ∧ (s.setTrig t x).pwr = s.pwr ∧
    (s.setTrig t x).aon = s.aon ∧ (s.setTrig t x).boot = s.boot ∧ (s.setTrig t x).stg = s.stg ∧
    (s.setTrig t x).flt = s.flt ∧ (s.setTrig t x).tel = s.tel ∧ (s.setTrig t x).dbg = s.dbg ∧
    (s.setTrig t x).que = s.que ∧ (s.setTrig t x).vlt = s.vlt ∧ (s.setTrig t x).mem = s.mem ∧
    (s.setTrig t x).hif = s.hif ∧ (s.setTrig t x).str = s.str ∧ (s.setTrig t x).ldg = s.ldg ∧
    (s.setTrig t x).eth = s.eth ∧ (s.setTrig t x).ngl = s.ngl ∧ (s.setTrig t x).gth = s.gth ∧
    (s.setTrig t x).azm = s.azm ∧ (s.setTrig t x).ing = s.ing ∧ (s.setTrig t x).pak = s.pak ∧
    (s.setTrig t x).servo = s.servo ∧ (s.setTrig t x).regs = s.regs ∧ (s.setTrig t x).shHost = s.shHost ∧
    (s.setTrig t x).shDbg = s.shDbg ∧ (s.setTrig t x).shVlt = s.shVlt ∧ (s.setTrig t x).host = s.host ∧
    (s.setTrig t x).flash = s.flash ∧ (s.setTrig t x).time = s.time ∧ (s.setTrig t x).spine = s.spine ∧
    (s.setTrig t x).free = s.free ∧ (s.setTrig t x).outs = s.outs ∧ (s.setTrig t x).pending = s.pending := by
  exact ⟨rfl, rfl, rfl, rfl, rfl, rfl, rfl, rfl, rfl, rfl, rfl, rfl, rfl, rfl, rfl, rfl, rfl, rfl, rfl, rfl, rfl, rfl, rfl, rfl, rfl, rfl, rfl, rfl, rfl, rfl, rfl, rfl, rfl⟩

@[simp] theorem State.setResult_frame (s : State) (copy r : Nat) :
    (s.setResult copy r).pins = s.pins ∧ (s.setResult copy r).clk = s.clk ∧ (s.setResult copy r).pwr = s.pwr ∧
    (s.setResult copy r).aon = s.aon ∧ (s.setResult copy r).stg = s.stg ∧ (s.setResult copy r).flt = s.flt ∧
    (s.setResult copy r).tel = s.tel ∧ (s.setResult copy r).dbg = s.dbg ∧ (s.setResult copy r).que = s.que ∧
    (s.setResult copy r).vlt = s.vlt ∧ (s.setResult copy r).mem = s.mem ∧ (s.setResult copy r).hif = s.hif ∧
    (s.setResult copy r).str = s.str ∧ (s.setResult copy r).ldg = s.ldg ∧ (s.setResult copy r).eth = s.eth ∧
    (s.setResult copy r).ngl = s.ngl ∧ (s.setResult copy r).gth = s.gth ∧ (s.setResult copy r).azm = s.azm ∧
    (s.setResult copy r).ing = s.ing ∧ (s.setResult copy r).pak = s.pak ∧ (s.setResult copy r).sen = s.sen ∧
    (s.setResult copy r).servo = s.servo ∧ (s.setResult copy r).regs = s.regs ∧
    (s.setResult copy r).shHost = s.shHost ∧ (s.setResult copy r).shDbg = s.shDbg ∧
    (s.setResult copy r).shVlt = s.shVlt ∧ (s.setResult copy r).host = s.host ∧ (s.setResult copy r).flash = s.flash ∧
    (s.setResult copy r).time = s.time ∧ (s.setResult copy r).spine = s.spine ∧ (s.setResult copy r).free = s.free ∧
    (s.setResult copy r).outs = s.outs ∧ (s.setResult copy r).pending = s.pending := by
  exact ⟨rfl, rfl, rfl, rfl, rfl, rfl, rfl, rfl, rfl, rfl, rfl, rfl, rfl, rfl, rfl, rfl, rfl, rfl, rfl, rfl, rfl, rfl, rfl, rfl, rfl, rfl, rfl, rfl, rfl, rfl, rfl, rfl, rfl⟩

@[simp] theorem State.setPakDest_frame (s : State) (k : Nat) (x : Dest) :
    (s.setPakDest k x).pins = s.pins ∧ (s.setPakDest k x).clk = s.clk ∧ (s.setPakDest k x).pwr = s.pwr ∧
    (s.setPakDest k x).aon = s.aon ∧ (s.setPakDest k x).boot = s.boot ∧ (s.setPakDest k x).stg = s.stg ∧
    (s.setPakDest k x).flt = s.flt ∧ (s.setPakDest k x).tel = s.tel ∧ (s.setPakDest k x).dbg = s.dbg ∧
    (s.setPakDest k x).que = s.que ∧ (s.setPakDest k x).vlt = s.vlt ∧ (s.setPakDest k x).mem = s.mem ∧
    (s.setPakDest k x).hif = s.hif ∧ (s.setPakDest k x).str = s.str ∧ (s.setPakDest k x).ldg = s.ldg ∧
    (s.setPakDest k x).eth = s.eth ∧ (s.setPakDest k x).ngl = s.ngl ∧ (s.setPakDest k x).gth = s.gth ∧
    (s.setPakDest k x).azm = s.azm ∧ (s.setPakDest k x).ing = s.ing ∧ (s.setPakDest k x).sen = s.sen ∧
    (s.setPakDest k x).servo = s.servo ∧ (s.setPakDest k x).regs = s.regs ∧ (s.setPakDest k x).shHost = s.shHost ∧
    (s.setPakDest k x).shDbg = s.shDbg ∧ (s.setPakDest k x).shVlt = s.shVlt ∧ (s.setPakDest k x).host = s.host ∧
    (s.setPakDest k x).flash = s.flash ∧ (s.setPakDest k x).time = s.time ∧ (s.setPakDest k x).spine = s.spine ∧
    (s.setPakDest k x).free = s.free ∧ (s.setPakDest k x).outs = s.outs ∧ (s.setPakDest k x).pending = s.pending := by
  exact ⟨rfl, rfl, rfl, rfl, rfl, rfl, rfl, rfl, rfl, rfl, rfl, rfl, rfl, rfl, rfl, rfl, rfl, rfl, rfl, rfl, rfl, rfl, rfl, rfl, rfl, rfl, rfl, rfl, rfl, rfl, rfl, rfl, rfl⟩

@[simp] theorem State.setPakBatch_frame (s : State) (e : Nat) (x : Option PakBatch) :
    (s.setPakBatch e x).pins = s.pins ∧ (s.setPakBatch e x).clk = s.clk ∧ (s.setPakBatch e x).pwr = s.pwr ∧
    (s.setPakBatch e x).aon = s.aon ∧ (s.setPakBatch e x).boot = s.boot ∧ (s.setPakBatch e x).stg = s.stg ∧
    (s.setPakBatch e x).flt = s.flt ∧ (s.setPakBatch e x).tel = s.tel ∧ (s.setPakBatch e x).dbg = s.dbg ∧
    (s.setPakBatch e x).que = s.que ∧ (s.setPakBatch e x).vlt = s.vlt ∧ (s.setPakBatch e x).mem = s.mem ∧
    (s.setPakBatch e x).hif = s.hif ∧ (s.setPakBatch e x).str = s.str ∧ (s.setPakBatch e x).ldg = s.ldg ∧
    (s.setPakBatch e x).eth = s.eth ∧ (s.setPakBatch e x).ngl = s.ngl ∧ (s.setPakBatch e x).gth = s.gth ∧
    (s.setPakBatch e x).azm = s.azm ∧ (s.setPakBatch e x).ing = s.ing ∧ (s.setPakBatch e x).sen = s.sen ∧
    (s.setPakBatch e x).servo = s.servo ∧ (s.setPakBatch e x).regs = s.regs ∧ (s.setPakBatch e x).shHost = s.shHost ∧
    (s.setPakBatch e x).shDbg = s.shDbg ∧ (s.setPakBatch e x).shVlt = s.shVlt ∧ (s.setPakBatch e x).host = s.host ∧
    (s.setPakBatch e x).flash = s.flash ∧ (s.setPakBatch e x).time = s.time ∧ (s.setPakBatch e x).spine = s.spine ∧
    (s.setPakBatch e x).free = s.free ∧ (s.setPakBatch e x).outs = s.outs ∧
    (s.setPakBatch e x).pending = s.pending := by
  exact ⟨rfl, rfl, rfl, rfl, rfl, rfl, rfl, rfl, rfl, rfl, rfl, rfl, rfl, rfl, rfl, rfl, rfl, rfl, rfl, rfl, rfl, rfl, rfl, rfl, rfl, rfl, rfl, rfl, rfl, rfl, rfl, rfl, rfl⟩

@[simp] theorem State.setPakPipe_frame (s : State) (p : Nat) (x : PakPipe) :
    (s.setPakPipe p x).pins = s.pins ∧ (s.setPakPipe p x).clk = s.clk ∧ (s.setPakPipe p x).pwr = s.pwr ∧
    (s.setPakPipe p x).aon = s.aon ∧ (s.setPakPipe p x).boot = s.boot ∧ (s.setPakPipe p x).stg = s.stg ∧
    (s.setPakPipe p x).flt = s.flt ∧ (s.setPakPipe p x).tel = s.tel ∧ (s.setPakPipe p x).dbg = s.dbg ∧
    (s.setPakPipe p x).que = s.que ∧ (s.setPakPipe p x).vlt = s.vlt ∧ (s.setPakPipe p x).mem = s.mem ∧
    (s.setPakPipe p x).hif = s.hif ∧ (s.setPakPipe p x).str = s.str ∧ (s.setPakPipe p x).ldg = s.ldg ∧
    (s.setPakPipe p x).eth = s.eth ∧ (s.setPakPipe p x).ngl = s.ngl ∧ (s.setPakPipe p x).gth = s.gth ∧
    (s.setPakPipe p x).azm = s.azm ∧ (s.setPakPipe p x).ing = s.ing ∧ (s.setPakPipe p x).sen = s.sen ∧
    (s.setPakPipe p x).servo = s.servo ∧ (s.setPakPipe p x).regs = s.regs ∧ (s.setPakPipe p x).shHost = s.shHost ∧
    (s.setPakPipe p x).shDbg = s.shDbg ∧ (s.setPakPipe p x).shVlt = s.shVlt ∧ (s.setPakPipe p x).host = s.host ∧
    (s.setPakPipe p x).flash = s.flash ∧ (s.setPakPipe p x).time = s.time ∧ (s.setPakPipe p x).spine = s.spine ∧
    (s.setPakPipe p x).free = s.free ∧ (s.setPakPipe p x).outs = s.outs ∧ (s.setPakPipe p x).pending = s.pending := by
  exact ⟨rfl, rfl, rfl, rfl, rfl, rfl, rfl, rfl, rfl, rfl, rfl, rfl, rfl, rfl, rfl, rfl, rfl, rfl, rfl, rfl, rfl, rfl, rfl, rfl, rfl, rfl, rfl, rfl, rfl, rfl, rfl, rfl, rfl⟩

@[simp] theorem State.setBuf_frame (s : State) (k : Nat) (b : PakBuf) :
    (s.setBuf k b).pins = s.pins ∧ (s.setBuf k b).clk = s.clk ∧ (s.setBuf k b).pwr = s.pwr ∧
    (s.setBuf k b).aon = s.aon ∧ (s.setBuf k b).boot = s.boot ∧ (s.setBuf k b).stg = s.stg ∧
    (s.setBuf k b).flt = s.flt ∧ (s.setBuf k b).tel = s.tel ∧ (s.setBuf k b).dbg = s.dbg ∧
    (s.setBuf k b).que = s.que ∧ (s.setBuf k b).vlt = s.vlt ∧ (s.setBuf k b).mem = s.mem ∧
    (s.setBuf k b).hif = s.hif ∧ (s.setBuf k b).str = s.str ∧ (s.setBuf k b).ldg = s.ldg ∧
    (s.setBuf k b).eth = s.eth ∧ (s.setBuf k b).ngl = s.ngl ∧ (s.setBuf k b).gth = s.gth ∧
    (s.setBuf k b).azm = s.azm ∧ (s.setBuf k b).ing = s.ing ∧ (s.setBuf k b).sen = s.sen ∧
    (s.setBuf k b).servo = s.servo ∧ (s.setBuf k b).regs = s.regs ∧ (s.setBuf k b).shHost = s.shHost ∧
    (s.setBuf k b).shDbg = s.shDbg ∧ (s.setBuf k b).shVlt = s.shVlt ∧ (s.setBuf k b).host = s.host ∧
    (s.setBuf k b).flash = s.flash ∧ (s.setBuf k b).time = s.time ∧ (s.setBuf k b).spine = s.spine ∧
    (s.setBuf k b).free = s.free ∧ (s.setBuf k b).outs = s.outs ∧ (s.setBuf k b).pending = s.pending := by
  exact ⟨rfl, rfl, rfl, rfl, rfl, rfl, rfl, rfl, rfl, rfl, rfl, rfl, rfl, rfl, rfl, rfl, rfl, rfl, rfl, rfl, rfl, rfl, rfl, rfl, rfl, rfl, rfl, rfl, rfl, rfl, rfl, rfl, rfl⟩

@[simp] theorem State.setHalt_frame (s : State) (n : Nat) (h : HaltState) :
    (s.setHalt n h).pins = s.pins ∧ (s.setHalt n h).clk = s.clk ∧ (s.setHalt n h).pwr = s.pwr ∧
    (s.setHalt n h).aon = s.aon ∧ (s.setHalt n h).boot = s.boot ∧ (s.setHalt n h).stg = s.stg ∧
    (s.setHalt n h).flt = s.flt ∧ (s.setHalt n h).tel = s.tel ∧ (s.setHalt n h).que = s.que ∧
    (s.setHalt n h).vlt = s.vlt ∧ (s.setHalt n h).mem = s.mem ∧ (s.setHalt n h).hif = s.hif ∧
    (s.setHalt n h).str = s.str ∧ (s.setHalt n h).ldg = s.ldg ∧ (s.setHalt n h).eth = s.eth ∧
    (s.setHalt n h).ngl = s.ngl ∧ (s.setHalt n h).gth = s.gth ∧ (s.setHalt n h).azm = s.azm ∧
    (s.setHalt n h).ing = s.ing ∧ (s.setHalt n h).pak = s.pak ∧ (s.setHalt n h).sen = s.sen ∧
    (s.setHalt n h).servo = s.servo ∧ (s.setHalt n h).regs = s.regs ∧ (s.setHalt n h).shHost = s.shHost ∧
    (s.setHalt n h).shDbg = s.shDbg ∧ (s.setHalt n h).shVlt = s.shVlt ∧ (s.setHalt n h).host = s.host ∧
    (s.setHalt n h).flash = s.flash ∧ (s.setHalt n h).time = s.time ∧ (s.setHalt n h).spine = s.spine ∧
    (s.setHalt n h).free = s.free ∧ (s.setHalt n h).outs = s.outs ∧ (s.setHalt n h).pending = s.pending := by
  exact ⟨rfl, rfl, rfl, rfl, rfl, rfl, rfl, rfl, rfl, rfl, rfl, rfl, rfl, rfl, rfl, rfl, rfl, rfl, rfl, rfl, rfl, rfl, rfl, rfl, rfl, rfl, rfl, rfl, rfl, rfl, rfl, rfl, rfl⟩

@[simp] theorem State.setStrm_frame (s : State) (n : Nat) (x : Strm) :
    (s.setStrm n x).pins = s.pins ∧ (s.setStrm n x).clk = s.clk ∧ (s.setStrm n x).pwr = s.pwr ∧
    (s.setStrm n x).aon = s.aon ∧ (s.setStrm n x).boot = s.boot ∧ (s.setStrm n x).stg = s.stg ∧
    (s.setStrm n x).flt = s.flt ∧ (s.setStrm n x).tel = s.tel ∧ (s.setStrm n x).dbg = s.dbg ∧
    (s.setStrm n x).que = s.que ∧ (s.setStrm n x).vlt = s.vlt ∧ (s.setStrm n x).mem = s.mem ∧
    (s.setStrm n x).hif = s.hif ∧ (s.setStrm n x).ldg = s.ldg ∧ (s.setStrm n x).eth = s.eth ∧
    (s.setStrm n x).ngl = s.ngl ∧ (s.setStrm n x).gth = s.gth ∧ (s.setStrm n x).azm = s.azm ∧
    (s.setStrm n x).ing = s.ing ∧ (s.setStrm n x).pak = s.pak ∧ (s.setStrm n x).sen = s.sen ∧
    (s.setStrm n x).servo = s.servo ∧ (s.setStrm n x).regs = s.regs ∧ (s.setStrm n x).shHost = s.shHost ∧
    (s.setStrm n x).shDbg = s.shDbg ∧ (s.setStrm n x).shVlt = s.shVlt ∧ (s.setStrm n x).host = s.host ∧
    (s.setStrm n x).flash = s.flash ∧ (s.setStrm n x).time = s.time ∧ (s.setStrm n x).spine = s.spine ∧
    (s.setStrm n x).free = s.free ∧ (s.setStrm n x).outs = s.outs ∧ (s.setStrm n x).pending = s.pending := by
  exact ⟨rfl, rfl, rfl, rfl, rfl, rfl, rfl, rfl, rfl, rfl, rfl, rfl, rfl, rfl, rfl, rfl, rfl, rfl, rfl, rfl, rfl, rfl, rfl, rfl, rfl, rfl, rfl, rfl, rfl, rfl, rfl, rfl, rfl⟩

@[simp] theorem State.mapStrms_frame (s : State) (f : Strm → Strm) :
    (s.mapStrms f).pins = s.pins ∧ (s.mapStrms f).clk = s.clk ∧ (s.mapStrms f).pwr = s.pwr ∧
    (s.mapStrms f).aon = s.aon ∧ (s.mapStrms f).boot = s.boot ∧ (s.mapStrms f).stg = s.stg ∧
    (s.mapStrms f).flt = s.flt ∧ (s.mapStrms f).tel = s.tel ∧ (s.mapStrms f).dbg = s.dbg ∧
    (s.mapStrms f).que = s.que ∧ (s.mapStrms f).vlt = s.vlt ∧ (s.mapStrms f).mem = s.mem ∧
    (s.mapStrms f).hif = s.hif ∧ (s.mapStrms f).ldg = s.ldg ∧ (s.mapStrms f).eth = s.eth ∧
    (s.mapStrms f).ngl = s.ngl ∧ (s.mapStrms f).gth = s.gth ∧ (s.mapStrms f).azm = s.azm ∧
    (s.mapStrms f).ing = s.ing ∧ (s.mapStrms f).pak = s.pak ∧ (s.mapStrms f).sen = s.sen ∧
    (s.mapStrms f).servo = s.servo ∧ (s.mapStrms f).regs = s.regs ∧ (s.mapStrms f).shHost = s.shHost ∧
    (s.mapStrms f).shDbg = s.shDbg ∧ (s.mapStrms f).shVlt = s.shVlt ∧ (s.mapStrms f).host = s.host ∧
    (s.mapStrms f).flash = s.flash ∧ (s.mapStrms f).time = s.time ∧ (s.mapStrms f).spine = s.spine ∧
    (s.mapStrms f).free = s.free ∧ (s.mapStrms f).outs = s.outs ∧ (s.mapStrms f).pending = s.pending := by
  exact ⟨rfl, rfl, rfl, rfl, rfl, rfl, rfl, rfl, rfl, rfl, rfl, rfl, rfl, rfl, rfl, rfl, rfl, rfl, rfl, rfl, rfl, rfl, rfl, rfl, rfl, rfl, rfl, rfl, rfl, rfl, rfl, rfl, rfl⟩

end Sys2Proof.Machine
end

