-- ==== Sys2Proof/Laws/Ops.lean ====
section
/-!
SUPPORT. Reading what an update wrote: registers, memory, and each table of State through its accessor. At the key written
the value comes back, where the table is in key order; at every other key the old value stands.
-/

namespace Sys2Proof.Machine

theorem State.reg_setReg (s : State) (a : Nat) (v : Word) (h : tsorted none s.regs = true) : (s.setReg a v).reg a = v :=
  tget_tset_same h a v

theorem State.reg_setReg_ne (s : State) (v : Word) {a b : Nat} (h : a ≠ b) : (s.setReg a v).reg b = s.reg b :=
  tget_tset_ne s.regs v h

theorem Mem.rd_wr (m : Mem) (a : Nat) (x : Byte) (h : tsorted none m.bytes = true) : (m.wr a x).rd a = x :=
  tget_tset_same h a x

theorem Mem.rd_wr_ne (m : Mem) (x : Byte) {a b : Nat} (h : a ≠ b) : (m.wr a x).rd b = m.rd b :=
  tget_tset_ne m.bytes x h

theorem Mem.rd_wrs_outside (bs : List Byte) : ∀ (m : Mem) (a b : Nat), b < a ∨ a + bs.length ≤ b → (m.wrs a bs).rd b = m.rd b := by
  induction bs with
  | nil => intros; rfl
  | cons x xs ih =>
    intro m a b h
    simp only [List.length_cons] at h
    rw [Mem.wrs, ih _ _ _ (by omega), Mem.rd_wr_ne _ _ (by omega)]

theorem State.port_setPort (s : State) (p : Nat) (y : Port) (h : tsorted none s.ngl.port = true) : (s.setPort p y).port p = y :=
  tget_tset_same h p y

theorem State.port_setPort_ne (s : State) (y : Port) {p i : Nat} (h : p ≠ i) : (s.setPort p y).port i = s.port i :=
  tget_tset_ne s.ngl.port y h

theorem State.conn_setConn (s : State) (c : Nat) (y : Conn) (h : tsorted none s.eth.conn = true) : (s.setConn c y).conn c = y :=
  tget_tset_same h c y

theorem State.conn_setConn_ne (s : State) (y : Conn) {c i : Nat} (h : c ≠ i) : (s.setConn c y).conn i = s.conn i :=
  tget_tset_ne s.eth.conn y h

theorem State.ethPort_setEthPort (s : State) (x : Nat) (y : EthPort) (h : tsorted none s.eth.port = true) : (s.setEthPort x y).ethPort x = y :=
  tget_tset_same h x y

theorem State.ethPort_setEthPort_ne (s : State) (y : EthPort) {x i : Nat} (h : x ≠ i) : (s.setEthPort x y).ethPort i = s.ethPort i :=
  tget_tset_ne s.eth.port y h

theorem State.queue_setQueue (s : State) (q : Nat) (y : Queue) (h : tsorted none s.que.q = true) : (s.setQueue q y).queue q = y :=
  tget_tset_same h q y

theorem State.queue_setQueue_ne (s : State) (y : Queue) {q i : Nat} (h : q ≠ i) : (s.setQueue q y).queue i = s.queue i :=
  tget_tset_ne s.que.q y h

theorem State.task_setTask (s : State) (t : Nat) (y : Option Task) (h : tsorted none s.que.tasks = true) : (s.setTask t y).task t = y :=
  tget_tset_same h t y

theorem State.task_setTask_ne (s : State) (y : Option Task) {t i : Nat} (h : t ≠ i) : (s.setTask t y).task i = s.task i :=
  tget_tset_ne s.que.tasks y h

theorem State.isl_setIsl (s : State) (n : Nat) (y : Island) (h : tsorted none s.clk.isl = true) : (s.setIsl n y).isl n = y :=
  tget_tset_same h n y

theorem State.isl_setIsl_ne (s : State) (y : Island) {n i : Nat} (h : n ≠ i) : (s.setIsl n y).isl i = s.isl i :=
  tget_tset_ne s.clk.isl y h

theorem State.lane_setLane (s : State) (l : Nat) (y : Lane) (h : tsorted none s.clk.lane = true) : (s.setLane l y).lane l = y :=
  tget_tset_same h l y

theorem State.lane_setLane_ne (s : State) (y : Lane) {l i : Nat} (h : l ≠ i) : (s.setLane l y).lane i = s.lane i :=
  tget_tset_ne s.clk.lane y h

theorem State.funit_setUnit (s : State) (u : Nat) (y : FUnit) (h : tsorted none s.flt.unit = true) : (s.setUnit u y).funit u = y :=
  tget_tset_same h u y

theorem State.funit_setUnit_ne (s : State) (y : FUnit) {u i : Nat} (h : u ≠ i) : (s.setUnit u y).funit i = s.funit i :=
  tget_tset_ne s.flt.unit y h

theorem State.dom_setDom (s : State) (d : Nat) (y : Dom) (h : tsorted none s.pwr.dom = true) : (s.setDom d y).dom d = y :=
  tget_tset_same h d y

theorem State.dom_setDom_ne (s : State) (y : Dom) {d i : Nat} (h : d ≠ i) : (s.setDom d y).dom i = s.dom i :=
  tget_tset_ne s.pwr.dom y h

theorem State.ctx_setCtx (s : State) (n : Nat) (y : Ctx) (h : tsorted none s.ldg.ctx = true) : (s.setCtx n y).ctx n = y :=
  tget_tset_same h n y

theorem State.ctx_setCtx_ne (s : State) (y : Ctx) {n i : Nat} (h : n ≠ i) : (s.setCtx n y).ctx i = s.ctx i :=
  tget_tset_ne s.ldg.ctx y h

theorem State.layer_setLayer (s : State) (l : Nat) (y : Layer) (h : tsorted none s.sen.layer = true) : (s.setLayer l y).layer l = y :=
  tget_tset_same h l y

theorem State.layer_setLayer_ne (s : State) (y : Layer) {l i : Nat} (h : l ≠ i) : (s.setLayer l y).layer i = s.layer i :=
  tget_tset_ne s.sen.layer y h

theorem State.group_setGroup (s : State) (g : Nat) (y : Group) (h : tsorted none s.sen.group = true) : (s.setGroup g y).group g = y :=
  tget_tset_same h g y

theorem State.group_setGroup_ne (s : State) (y : Group) {g i : Nat} (h : g ≠ i) : (s.setGroup g y).group i = s.group i :=
  tget_tset_ne s.sen.group y h

theorem State.trig_setTrig (s : State) (t : Nat) (y : Trig) (h : tsorted none s.sen.trig = true) : (s.setTrig t y).trig t = y :=
  tget_tset_same h t y

theorem State.trig_setTrig_ne (s : State) (y : Trig) {t i : Nat} (h : t ≠ i) : (s.setTrig t y).trig i = s.trig i :=
  tget_tset_ne s.sen.trig y h

theorem State.pakDest_setPakDest (s : State) (k : Nat) (y : Dest) (h : tsorted none s.pak.dest = true) : (s.setPakDest k y).pakDest k = y :=
  tget_tset_same h k y

theorem State.pakDest_setPakDest_ne (s : State) (y : Dest) {k i : Nat} (h : k ≠ i) : (s.setPakDest k y).pakDest i = s.pakDest i :=
  tget_tset_ne s.pak.dest y h

theorem State.pakBatch_setPakBatch (s : State) (e : Nat) (y : Option PakBatch) (h : tsorted none s.pak.batch = true) : (s.setPakBatch e y).pakBatch e = y :=
  tget_tset_same h e y

theorem State.pakBatch_setPakBatch_ne (s : State) (y : Option PakBatch) {e i : Nat} (h : e ≠ i) : (s.setPakBatch e y).pakBatch i = s.pakBatch i :=
  tget_tset_ne s.pak.batch y h

theorem State.pakPipe_setPakPipe (s : State) (p : Nat) (y : PakPipe) (h : tsorted none s.pak.pipe = true) : (s.setPakPipe p y).pakPipe p = y :=
  tget_tset_same h p y

theorem State.pakPipe_setPakPipe_ne (s : State) (y : PakPipe) {p i : Nat} (h : p ≠ i) : (s.setPakPipe p y).pakPipe i = s.pakPipe i :=
  tget_tset_ne s.pak.pipe y h

theorem State.haltOf_setHalt (s : State) (n : Nat) (y : HaltState) (h : tsorted none s.dbg.halt = true) : (s.setHalt n y).haltOf n = y :=
  tget_tset_same h n y

theorem State.haltOf_setHalt_ne (s : State) (y : HaltState) {n i : Nat} (h : n ≠ i) : (s.setHalt n y).haltOf i = s.haltOf i :=
  tget_tset_ne s.dbg.halt y h

theorem State.pull_setPull (s : State) (n : Nat) (y : Pull) (h : tsorted none s.ngl.dom.pull = true) : (s.setPull n y).pull n = y :=
  tget_tset_same h n y

theorem State.pull_setPull_ne (s : State) (y : Pull) {n i : Nat} (h : n ≠ i) : (s.setPull n y).pull i = s.pull i :=
  tget_tset_ne s.ngl.dom.pull y h

theorem State.ccLine_setCc (s : State) (l : Nat) (y : Option CcLine) (h : tsorted none s.hif.cc = true) : (s.setCc l y).ccLine l = y :=
  tget_tset_same h l y

theorem State.ccLine_setCc_ne (s : State) (y : Option CcLine) {l i : Nat} (h : l ≠ i) : (s.setCc l y).ccLine i = s.ccLine i :=
  tget_tset_ne s.hif.cc y h

end Sys2Proof.Machine
end

