-- ==== Sys2Proof/Tests/Slice0.lean ====
section
/-!
SUPPORT. The model's own tests: for every statement with hypotheses, a concrete
state and operands that meet them, clause by clause (`meets_…`); the smoke test of WellFormed (`refuses_…`); and results
read off the manual's rules and worked examples (`test_…`).
-/

namespace Sys2Proof.Tests
open Sys2Proof Sys2Proof.Machine

set_option Elab.async false

/-- A part in service: rails up, out of reset, image running, every domain ON, host link up, Vault ready, debug open. -/
def up : State :=
  { pins := { porst := true, perst := true, straps := some { dbgEn := true } }
    pwr := { dom := (span 1 14).map (fun d => (d, { state := .on })) }
    boot := { state := .running }
    hif := { linkUp := true, mse := true, bme := true }
    vlt := { state := .ready }
    mem := { stack := (List.range 8).map (fun n => (n, { state := .ready })) }
    ldg := { initDone := true } }

/-- The state with some staged registers of the generation in force. -/
def cfgd (s : State) (l : List (Nat × Word)) : State := { s with stg := { s.stg with gens := [(0, l)] } }

/-- The state with bytes of device memory. -/
def memd (s : State) (a : Nat) (b : List Byte) : State := s.store a b

/-- A part with one issued command, of one stage, and the streams of the stage by key. -/
def job (kind op inst : Nat) (d : List (Nat × Desc)) (w : List Nat := []) (f : Task → Task := id) (g : Stage → Stage := id) (s : State := up) : State :=
  let h : Stage := g { kind := kind, op := op, inst := inst, words := w, nTiles := 1 }
  let x : Task := f { queue := 4095, index := 0, tag := 0, words := w, gen := 0, stages := [h] }
  let str (i : Nat) : Strm := { task := 0, stage := 0, key := (d.getD i (0, {})).1, desc := (d.getD i (0, {})).2 }
  { s with
    que := { s.que with tasks := [(0, some x)], nextTask := 1 }
    str := { strm := (List.range d.length).map (fun i => (i, some (str i))), nextStrm := d.length } }

/-- A task and its stage 0 satisfy a test. -/
def State.hasStage (s : State) (t : Nat) (P : Task → Stage → Bool) : Bool :=
  match s.task t with
  | some x => (match x.stages[0]? with | some g => P x g | none => false)
  | none => false

/-- What `engReady` asks of a first stage. -/
def readyAt (s : State) (kind op : Nat) : Bool :=
  State.hasStage s 0 (fun _ g => decide (g.kind = kind) && decide (g.op = op) && g.res.isNone && s.instRuns g.inst && s.mayWork g.inst 0 && s.parReady 0 g)

theorem ready_of {s : State} {kind op : Nat} (h : readyAt s kind op = true) : ∃ x g, s.engReady 0 0 kind op x g := by
  unfold readyAt State.hasStage at h
  split at h
  · rename_i x hx
    split at h
    · rename_i g hg
      simp only [Bool.and_eq_true, decide_eq_true_eq, Option.isNone_iff_eq_none] at h
      obtain ⟨⟨⟨⟨⟨h1, h2⟩, h3⟩, h4⟩, h5⟩, h6⟩ := h
      exact ⟨x, g, hx, hg, h1, h2, h3, h4, h5, h6, by simp⟩
    · simp at h
  · simp at h

/-- Sixty-four bytes from 0x1000 on. -/
def line : Desc := { start := 0x1000, strides := [1], counts := [64], elem := 1 }

/-! ### Statements: the frame of the block, registers, staging, resets -/

theorem meets_StepIdle : State.reset.pending = [] ∧ State.reset.mainRunning = false := by decide

theorem meets_QueueFifo : ∃ t, step { up with pending := [.droop 3, .bypass] } = .next t := ⟨_, rfl⟩

theorem meets_StepKeepsCanonical : State.reset.canonical ∧ ∃ t, step State.reset = .next t :=
  ⟨by simp [State.canonical, State.reset, Mem.wf, tsorted, twf], _, rfl⟩

theorem meets_OutputsStand : ∃ t, step State.reset = .next t := ⟨_, rfl⟩

theorem meets_FusesNeverClear : ∃ t, step { up with pending := [.lockDebug true] } = .next t := ⟨_, rfl⟩

theorem meets_AccessRule : 0x10 < barSize ∧ up.pathUp .host = true ∧ ¬ ((2 = 4 ∨ 2 = 8) ∧ 0x10 % 2 = 0) ∧
    ¬ ((8 = 4 ∨ 8 = 8) ∧ 0x3FFFFFC % 8 = 0) ∧ 0x3FFFFFC < barSize ∧ 0x3FFFFFC % 4 = 0 ∧
    (up.barRead .host 0x10 8).2.isSome = true ∧
    (({ up with azm := { jobs := [([], [])] } }).barRead .host 0x838 8).2 = none := by decide +kernel

theorem meets_RegisterWrites : bPWR + 0x20 < barSize ∧ up.unclaimed .debug = false ∧ aligned (bPWR + 0x20) 4 = true ∧
    up.wgate .debug 0x38 = true ∧ regFam 0x38 = none ∧
    (∃ a f, up.wgate .debug a = true ∧ a < bVLT ∧ regFam a = some f ∧ f.typ = .rw) ∧
    (∃ a f, up.wgate .debug a = true ∧ regFam a = some f ∧ f.typ = .event) ∧ State.reset.wgate .debug 0 = false :=
  ⟨by decide, by decide, by decide, by decide +kernel, by decide +kernel,
   ⟨0x30, _, by decide +kernel, by decide, rfl, by decide +kernel⟩,
   ⟨bSTG + 0x40, _, by decide +kernel, rfl, by decide +kernel⟩, by decide +kernel⟩

theorem meets_StagedWrites : 0x204000 % 4 = 0 ∧ up.wgate .host 0x204000 = true ∧ stMask 0x204000 ≠ 0 ∧ stFixed 0x204000 = false ∧
    up.stg.state = .idle ∧ up.stg.owner = none ∧ up.stg.set.length < 16384 ∧
    (∃ x : State, x.stg.set.length = 16384 ∧ tget none x.stg.set 0x204000 = none) ∧
    (∃ q : Path, ({ up with stg := { owner := some .debug } } : State).stg.owner = some q ∧ q ≠ .host) :=
  ⟨by decide, by decide +kernel, by decide +kernel, by decide +kernel, rfl, rfl, by decide,
   ⟨{ stg := { set := List.replicate 16384 (0x204004, some 0) } }, List.length_replicate,
     (by have h : ∀ n, tget none (List.replicate n (0x204004, (some 0 : Option Half))) 0x204000 = none := by
           intro n; induction n with
           | zero => rfl
           | succ n ih => simpa [List.replicate_succ, tget] using ih
         exact h 16384)⟩, .debug, rfl, by decide⟩

theorem meets_BusySetDiscards : ({ up with stg := { state := .wait } } : State).stg.state = .wait ∧
    up.wgate .host (0x204000 - 0x204000 % 8) = true ∧ stMask 0x204000 ≠ 0 ∧ stFixed 0x204000 = false ∧ up.wgate .host bSTG = true ∧
    up.wgate .host (bSTG + 8) = true ∧ 0x204000 % 4 = 0 := by decide +kernel

theorem meets_RegisterReads : 0x38 < barSize ∧ up.unclaimed .debug = false ∧ up.pathUp .debug = true ∧ aligned 0x38 8 = true ∧
    (up.barRead .debug 0x38 8).2.isSome = true ∧ regFam 0x38 = none ∧ pairWord 0x38 = false ∧ up.azmWaits 0x38 = false ∧
    up.fromShadow .debug 0x3C = false ∧ up.powered (regDom 0x38) = true ∧ regFam (bSTG + 0x40) ≠ none ∧ (bSTG + 0x40) % 8 = 0 ∧
    pairWord (bSTG + 0x40) = false ∧ up.azmWaits (bSTG + 0x40) = false ∧ up.powered (regDom (bSTG + 0x40)) = true ∧
    ({ up with shDbg := some (bSTG + 0x40, 7) } : State).shadow .debug = some (bSTG + 0x40, 7) := by decide +kernel

theorem meets_ResetPins : State.reset.pins.sby = true ∧ State.reset.pins.porst = false ∧ State.reset.railUp = true ∧ up.bootRuns = true ∧
    up.powered 1 = true ∧ up.boot.flBusy = none ∧ ({ up with pins := { up.pins with warmDrain := true } } : State).pins.warmDrain = true ∧
    (up.pins.straps.getD {}).test.val = 0 ∧ up.domOn 1 = true ∧ ({ up with hif := {} } : State).hif.linkUp = false ∧
    tget false up.clk.lost 1 = false ∧ ({ up with hif := { training := true } } : State).hif.training = true ∧ up.pins.perst = true ∧
    64 ∈ [16, 32, 64] ∧ 16 ∈ [4, 8, 16] := by decide +kernel

/-- An island that runs at code 60 under a configuration with f_min 40, f_max 80, v_max 100 and slack target 8. -/
def isl15 (i : Island) (ctl : Nat := 0) : State :=
  (cfgd up [(bCLK + 0x100, 0x640032), (rIslCfg 15, BitVec.ofNat 64 (put 80 24 8 + put 40 16 8 + put 100 8 8 + put ctl 6 2 + 8))]).setIsl 15 i

theorem meets_IslandLoops :
    (let s := isl15 { state := .run, f := 60, v := 60, target := 60 }
     (s.isl 15).state ≠ .off ∧ islandKind 15 = .dvfs ∧ s.islCfgd 15 = true ∧ s.cf (rIslCfg 15) 7 6 = 0 ∧ (s.isl 15).droopThis = false ∧
       (s.isl 15).droopPrev = false ∧ s.cf (bCLK + 0x100) 15 0 = 50 ∧ s.cf (bCLK + 0x100) 31 16 = 100 ∧ (s.isl 15).target < s.effCeil 15 ∧
       islandKind 15 ≠ .fixed ∧ (s.isl 15).state ≠ .ramp ∧ s.slackTarget 15 = 8) ∧
    (let s := isl15 { state := .run, f := 60, v := 60, target := 60, droopThis := true } 1
     s.cf (rIslCfg 15) 7 6 = 1 ∧ (s.isl 15).droopThis = true ∧ (s.isl 15).target < s.effCeil 15) ∧
    (let s := isl15 { state := .ramp, f := 60, v := 60, target := 61 }
     (s.isl 15).f < (s.isl 15).target ∧ s.vPoint 15 (s.isl 15).target ≤ (s.isl 15).v) ∧
    (let s := isl15 { state := .ramp, f := 60, v := 59, target := 61 }
     (s.isl 15).f < (s.isl 15).target ∧ (s.isl 15).v < s.vPoint 15 (s.isl 15).target) ∧
    (let s := isl15 { state := .ramp, f := 60, v := 59, target := 60 }
     (s.isl 15).v < s.vPoint 15 (s.isl 15).target ∧ (s.isl 15).f ≤ (s.isl 15).target) ∧
    (let s := isl15 { state := .ramp, f := 60, v := 61, target := 60 }
     (s.isl 15).f = (s.isl 15).target ∧ s.vPoint 15 (s.isl 15).target < (s.isl 15).v) ∧
    (let s := isl15 { state := .ramp, f := 60, v := 61, target := 59 }
     (s.isl 15).target < (s.isl 15).f) := by decide +kernel

theorem meets_IslandLimits :
    (let s := isl15 { state := .run, f := 60, v := 100, target := 60 }
     islandKind 15 = .dvfs ∧ (s.isl 15).state ≠ .off ∧ (s.isl 15).state ≠ .limit ∧ s.islCfgd 15 = true ∧ s.cf (rIslCfg 15) 15 8 ≤ (s.isl 15).v ∧
       s.fMin 15 < islandNominal 15 - (s.isl 15).limitDrop) ∧
    (let s := isl15 { state := .limit, f := 40, v := 100, target := 40, limitDrop := 24 }
     (s.isl 15).f ≤ s.fMin 15 ∧ islandClass 15 ≠ 3) ∧
    (let s := up.startIsland 3
     islandKind 3 ≠ .fixed ∧ islandKind 3 ≠ .dvfs ∧ (s.isl 3).state ≠ .off ∧ islandClass 3 = 3) := by decide +kernel

/-- A part whose lane 16 is enabled for adaptation and recalibration. -/
def lane16 (x : Lane) (f : Word := 0) : State :=
  ((cfgd up [(rSdCtl 16, 0x1A)]).setLane 16 x).setReg (rSdFreeze 16) f

theorem meets_Lanes : 16 < 24 ∧
    (let s := lane16 { los := false }
     s.cb (rSdCtl 16) 1 = true ∧ s.frozen 16 = false ∧ s.cb (rSdCtl 16) 3 = true ∧ s.cf (rSdCtl 16) 7 4 ≠ 0 ∧ (s.lane 16).los = false ∧
       s.tel.bistLane ≠ some 16 ∧ s.wgate .host (rSdFreeze 16) = true) ∧
    (lane16 { los := false } 1).frozen 16 = true ∧
    (let s := lane16 { los := false, recal := true, main := { eyeH := 10 } }
     (s.lane 16).recal = true ∧ (s.lane 16).los = false ∧ (s.lane 16).main.eyeH + 4 ≤ 14 ∧ 13 < (s.lane 16).main.eyeH + 4 ∧
       s.frozen 16 = false ∧ s.retryIdle 16 = true) := by decide +kernel

/-! ### Statements: power, start-up, flash, commits -/

theorem meets_PowerDomains :
    up.wgate .host (rDomReq 5) = true ∧
    ((up.setDom 5 {}).dom 5).state = .off ∧ ((up.setDom 14 { state := .draining }).dom 14).state = .draining ∧ (up.dom 1).state = .on ∧
    (let s := (up.setDom 5 { waiting := true }).setDom 4 { waiting := true, fallingOff := true }
     s.bootRuns = true ∧ (s.dom 5).waiting = true ∧ (s.dom 5).fallingOff = false ∧ (∀ e ∈ span 1 14, (s.dom e).state ≠ .powering) ∧
       ∀ e ∈ span 1 4, (s.dom e).waiting = false ∨ (s.dom e).fallingOff = true) ∧
    (let s := (up.setDom 5 { state := .powering }).setReg (rDomReq 5) 1
     (s.dom 5).state = .powering ∧ ((s.domTo 5 { s.dom 5 with state := .on, waiting := false }).domGain 5).domReq 5 = true) ∧
    (let s := up.setDom 8 { state := .draining }
     ∀ n ∈ domBays 8, s.tasksOn n = []) ∧
    (let s := cfgd (up.setDom 6 { state := .on, scan := true }) [(bMEM, 1)]
     (s.dom 6).scan = true ∧ (s.dom 6).state = .on ∧ s.dieOwned 0 = false ∧ s.holdsHalted 6 = false) := by decide +kernel

theorem meets_PowerDomains_owned :
    (let s := cfgd (up.setDom 6 { state := .on, scan := true }) [(bMEM, 1)]
     let s : State := { s with stg := { s.stg with gens := [(0, (List.range 4096).filterMap fun i =>
       if i % 8 = 0 then some (bMEM + i, 0xFFFFFFFFFFFFFFFF) else none)] } }
     (s.dom 6).scan = true ∧ (s.dom 6).state = .on ∧ s.dieOwned 0 = true) := by decide +kernel

/-- The part with other pins. -/
def pinned (p : Pins) : State := { up with pins := p }

theorem meets_SupplyRails : (pinned { sby := false }).pins.sby = false ∧ up.pins.sby = true ∧ up.boot.flBusy = none ∧
    (let p := (pinned { mainPg := false, porst := true, straps := some {} }).pins
     p.sby = true ∧ p.mainPwrEn = true ∧ p.mainPg = false ∧ p.porst = true ∧ p.straps.isSome = true) ∧
    up.pins.mainPg = true ∧ up.pins.mainPwrEn = true ∧ (pinned { mainPwrEn := false }).pins.mainPg = true ∧
    (pinned { mainPwrEn := false }).pins.mainPwrEn = false := by decide

theorem meets_SleepAndWake : up.wgate .host (bAON + 0x120) = true ∧ up.wgate .host (bAON + 0x208) = true ∧ up.pwr.sleepEntry = false ∧
    (let s : State := { up with pwr := { up.pwr with sleepEntry := true }, aon := { wakeCfg := 0x0F, firedSince := 0x10 } }
     s.pwr.sleepEntry = true ∧ s.ldg.flush = none ∧ s.boot.flBusy = none ∧ s.aon.firedSince &&& wfld s.aon.wakeCfg 7 0 = 0 ∧
       s.aon.asleep = false ∧ s.pins.sby = true) ∧
    (let s : State := { up with pwr := { up.pwr with sleepEntry := true }, aon := { wakeCfg := 0x1F, firedSince := 0x10 } }
     s.aon.firedSince &&& wfld s.aon.wakeCfg 7 0 ≠ 0) ∧
    (let s : State := { up with pwr := { up.pwr with sleepEntry := true }, boot := { flBusy := some .erase } }
     s.pwr.sleepEntry = true ∧ s.boot.flBusy.isSome = true) ∧
    (let s : State := { State.reset with aon := { wakeCfg := 0x20, asleep := true } }
     s.pins.sby = true ∧ s.powered 3 = false ∧ s.pwr.sleepEntry = false ∧ s.aon.asleep = true ∧ s.pins.thermTrip = false ∧
       wbit s.aon.wakeCfg 5 = true) ∧ up.powered 3 = true := by decide +kernel

theorem meets_PowerFailAndHeat : up.mainRunning = true ∧ up.pwr.pfTripped = false ∧ up.ldg.initDone = true ∧
    ({ up with ldg := {} } : State).ldg.initDone = false ∧
    (let s : State := { up with ldg := { flush := some .powerFail }, pwr := { up.pwr with pfFlush := true } }
     s.ldg.flush.isSome = true ∧ s.pwr.pfFlush = true) ∧
    (cfgd up []).cfg (bPWR + 0x10) = 0 ∧
    (let s := cfgd { up with boot := { up.boot with cal := 1 } } [(bPWR + 0x10, 0x15E00005A05)]
     s.cfg (bPWR + 0x10) ≠ 0 ∧ s.boot.cal = 1 ∧ s.cf (bPWR + 0x10) 47 32 ≠ 0 ∧ 10 * 300 < 95 * s.cf (bPWR + 0x10) 47 32) ∧
    (pinned { thermTrip := true }).pins.thermTrip = true ∧ wbit State.reset.aon.wakeDir 3 = false ∧
    ({ State.reset with aon := { wakeDir := 8, asleep := true } } : State).aon.asleep = true ∧ wbit (8 : Nat) 3 = true := by decide +kernel

theorem meets_BootFlow : ({ up with boot := { state := .flashInit } } : State).boot.state = .flashInit ∧
    (up.pins.straps.getD {}).nvmFb = false ∧ ((up.vaultTests true).pins.straps.getD {}).nvmFb = false ∧
    ({ up with boot := { state := .cal } } : State).boot.state = .cal ∧ ({ up with boot := { state := .verify } } : State).boot.state = .verify ∧
    up.wgate .host (bNVC + 0x20) = true ∧ ({ up with boot := { state := .noImage } } : State).boot.state = .noImage ∧
    ({ up with boot := { state := .noImage } } : State).wgate .host (bNVC + 0x20) = true ∧ up.bootRuns = true := by decide +kernel

/-- A part that runs the start-up program, at a record with the operation. -/
def execAt (r : Rec) (x : List Section := []) (replay : Bool := false) : State :=
  { up with boot := { state := .execute, prog := [r], sections := x, replay := replay } }

theorem meets_StartUpProgram :
    (let r : Rec := { op := 3, rsvd := 0, arg := 1, off := 0x30, data := 0x100000001 }
     (execAt r).atRecord 3 r ∧ ((execAt r).barRead .boot r.bar 4).2.isSome = true) ∧
    (let r : Rec := { op := 5, rsvd := 0, arg := 0, off := 0, data := 0 }
     let x : Section := { kind := 3, flags := 0, len := 64, target := 0, digest := [], addr := 0x50000 }
     (execAt r [x]).atRecord 5 r ∧ (execAt r [x]).boot.replay = false ∧ (execAt r [x]).boot.sections[r.arg]? = some x ∧
       (execAt r [x]).loadable x.target x.len = true ∧ (execAt r [x]).loadable (2 ^ 43) 1 = false ∧ (execAt r [x] true).boot.replay = true) ∧
    (∀ op ∈ [1, 2, 4, 6], (execAt { op := op, rsvd := 0, arg := 0, off := 0, data := 0 }).atRecord op
      { op := op, rsvd := 0, arg := 0, off := 0, data := 0 }) := by
  refine ⟨⟨⟨by decide, by decide⟩, by decide +kernel⟩, ⟨⟨by decide, by decide⟩, by decide +kernel⟩, ?_⟩
  intro op h; simp at h; rcases h with rfl | rfl | rfl | rfl <;> exact ⟨by decide, by decide⟩

/-- A part with a flash of 64 MiB at a flash address, the calibration region unlocked or not. -/
def flashAt (a : Word) (b : Boot := { state := .running, densLog2 := 26 }) : State :=
  { up with boot := b }.setReg (bNVC + 0x100) a

theorem meets_FlashCommands : (flashAt 0x3FFFF00).wgate .host (bNVC + 0x108) = true ∧
    ({ up with boot := { flBusy := some .read } } : State).boot.flBusy.isSome = true ∧ (flashAt 0x2000000).boot.flBusy = none ∧
    (flashAt 0x2000000).boot.state = .running ∧ ((flashAt 0x2FF0000).reg (bNVC + 0x100)).toNat = 0x2FF0000 ∧
    0x2FF0000 < (flashAt 0x2FF0000).flashSize ∧ 0x2FF0000 % 65536 = 0 ∧ (flashAt 0x2FF0000).flLocked .program 0x2FF0000 = false ∧
    (flashAt 0x2FF0000).flLocked .erase 0x2FF0000 = false ∧ (flashAt 0x30000).flLocked .erase 0x30000 = true ∧
    (flashAt 0x3FF00).flLocked .program 0x3FF00 = true := by decide +kernel

theorem meets_Commits : up.wgate .host bSTG = true ∧ up.wgate .debug (bSTG + 8) = true ∧ up.stg.state = .idle ∧ up.stg.owner = none ∧
    (∃ q, ({ up with stg := { owner := some .debug } } : State).stg.owner = some q ∧ q ≠ .host) ∧
    (let s : State := { up with stg := { state := .check } }
     s.stg.state = .check ∧ s.stg.set = [] ∧ s.stg.overflow = false ∧ s.stg.gens.length < 4) ∧
    (let s : State := { up with stg := { state := .check, gens := [(3, []), (2, []), (1, []), (0, [])] } }
     4 ≤ s.stg.gens.length ∧ wfld (s.reg (bSTG + 0x30)) 15 0 ≠ 0 ∧ wfld ((s.setReg (bSTG + 0x30) 0).reg (bSTG + 0x30)) 15 0 = 0) ∧
    ({ up with stg := { state := .wait } } : State).stg.state = .wait ∧ ({ up with stg := { state := .apply } } : State).stg.state = .apply :=
  ⟨by decide +kernel, by decide +kernel, rfl, rfl, ⟨.debug, rfl, by decide⟩, by decide +kernel, by decide +kernel, rfl, rfl⟩

theorem meets_Commits_rejected :
    (let s : State := { up with stg := { state := .check, set := [(0x200100, some 0xFFFFFFFF)] } }
     s.stg.state = .check ∧ s.stg.set ≠ [] ∧ ∃ id a, s.firstFail = some (id, a) ∧ id ≠ 0x0100) := by
  refine ⟨rfl, by decide, ?_⟩
  have h : ∀ o : Option (Nat × Nat), o.isSome = true ∧ (o.map Prod.fst).getD 0x100 ≠ 0x100 → ∃ id a, o = some (id, a) ∧ id ≠ 0x0100 := by
    rintro (_ | ⟨id, a⟩) h
    · simp at h
    · exact ⟨id, a, rfl, by simpa using h.2⟩
  exact h _ (by decide +kernel)

/-! ### Statements: the Vault -/

/-- The part with a request for a service in the host mailbox, its payload given in words, under a session. -/
def asked (c : Nat) (w : List Nat) (sess : Option Role := some .co) (v : Vlt := { state := .ready }) : State :=
  let n := (svcLen c).getD 0 + 8
  let s : State := { up with vlt := { v with order := [false], host := { v.host with sess := sess, busy := true } } }
  (List.range w.length).foldl (fun s i => s.setReg (mbxBuf false + 8 * (i + 1)) (BitVec.ofNat 64 (w.getD i 0)))
    (s.setReg (mbxBuf false) (BitVec.ofNat 64 (n * 2 ^ 32 + c)))

theorem meets_VaultSessions :
    (asked 0x01 [] none).asks false 0x01 .any ∧ (asked 0x02 [] none).asks false 0x02 .any ∧ ((asked 0x02 [] none).vpath false).locked = false ∧
    (let s := asked 0x02 [] none { state := .ready, host := { locked := true } }
     s.asks false 0x02 .any ∧ (s.vpath false).locked = true) ∧
    (let s := asked 0x03 [0x01] none
     s.asks false 0x03 .any ∧ (s.vpath false).locked = false ∧ (s.vpath false).nonce = none) ∧
    (let s := asked 0x03 [0x01] none { state := .ready, host := { nonce := some (leBytes 32 7) }, policy := some [] }
     s.asks false 0x03 .any ∧ (s.vpath false).locked = false ∧ (s.vpath false).nonce = some (leBytes 32 7) ∧ s.vlt.policy = some []) ∧
    (asked 0x04 []).asks false 0x04 .session ∧
    (let s := asked 0x7F []
     s.mbxFront false = true ∧ svcLen (s.mbxCode false) ≠ some (s.mbxLen false - 8)) := by
  simp only [State.asks]; decide +kernel

theorem meets_VaultKeys :
    (let s := asked 0x10 [15] (some .co) { state := .ready, fuses := { ownerSet := true } }
     s.asks false 0x10 .co ∧ s.mbxF false 0 1 < 16 ∧ s.vlt.fuses.ownerSet = true ∧ s.vlt.fuses.decommissioned = false) ∧
    (let s := asked 0x11 [15]
     s.asks false 0x11 .co ∧ s.mbxF false 0 1 < 16) ∧
    (let s := asked 0x20 [0x0F0FFF] (some .user) { state := .ready, kek := [(15, some [])] }
     s.asks false 0x20 .user ∧ s.mbxF false 0 2 < 4096 ∧ s.mbxF false 2 1 < 16 ∧ s.vlt.fuses.decommissioned = false ∧
       tget none s.vlt.kek (s.mbxF false 2 1) = some []) ∧
    (asked 0x20 [0] (some .user) { state := .ready, fuses := { decommissioned := true } }).asks false 0x20 .user ∧
    (let s := asked 0x21 [4095] (some .user)
     s.asks false 0x21 .user ∧ s.mbxF false 0 2 < 4096) ∧
    (let s := asked 0x22 [4095] (some .user)
     s.asks false 0x22 .user ∧ s.mbxF false 0 2 < 4096 ∧ (s.vlt.slot (s.mbxF false 0 2)).key = none) ∧
    (let s := asked 0x22 [1] (some .user) { state := .ready, keys := [(1, { key := some { key := [], kek := 0, dataset := 0, epoch := 0 } })] }
     s.asks false 0x22 .user ∧ (s.vlt.slot (s.mbxF false 0 2)).key ≠ none) ∧
    (let s := asked 0x30 [1024] (some .user)
     s.asks false 0x30 .user ∧ s.mbxF false 0 4 ≤ 1024) := by
  simp only [State.asks]; decide +kernel

theorem meets_VaultFuses :
    (let s := asked 0x40 [3] none
     s.asks false 0x40 (if s.vlt.fuses.noKey && !s.vlt.fuses.approved then .any else .co) ∧ s.mbxF false 0 1 < 4 ∧
       tget none s.vlt.fuses.imgKey (s.mbxF false 0 1) = none) ∧
    (let s := asked 0x40 [0] (some .co) { state := .ready, fuses := { imgKey := [(0, some [])] } }
     s.asks false 0x40 (if s.vlt.fuses.noKey && !s.vlt.fuses.approved then .any else .co) ∧
       (tget none s.vlt.fuses.imgKey (s.mbxF false 0 1)).isSome = true) ∧
    (let s := asked 0x41 [0]
     s.asks false 0x41 .co ∧ s.mbxF false 0 1 < 4 ∧ s.boot.state = .running ∧ s.boot.keySlot = s.mbxF false 0 1) ∧
    (let s : State := { asked 0x41 [1] (some .co) { state := .ready, fuses := { imgKey := [(0, some []), (1, some [])] } } with boot := { state := .noImage } }
     s.asks false 0x41 .co ∧ s.boot.state ≠ .running ∧
       (List.range 4).filter (fun k => (tget none s.vlt.fuses.imgKey k).isSome && !tget false s.vlt.fuses.imgRevoked k) ≠ [s.mbxF false 0 1]) ∧
    (let s : State := { asked 0x42 [64] with boot := { state := .running, svn := 64 } }
     s.asks false 0x42 .co ∧ s.mbxF false 0 4 ≤ 64 ∧ s.mbxF false 0 4 ≤ s.runSvn ∧ s.vlt.fuses.svn ≤ s.mbxF false 0 4) ∧
    (let s := asked 0x42 [1]
     s.asks false 0x42 .co ∧ s.mbxF false 0 4 ≤ 64 ∧ s.runSvn < s.mbxF false 0 4) ∧
    (asked 0x43 []).asks false 0x43 .co ∧ (asked 0x44 []).asks false 0x44 .co ∧
    (asked 0x44 [] (some .co) { state := .ready, fuses := { ownerSet := true } }).asks false 0x44 .co ∧
    (asked 0x45 [] (some .co) { state := .ready, fuses := { ownerSet := true, debugLock := true } }).asks false 0x45 .co ∧
    (asked 0x45 []).asks false 0x45 .co ∧ (asked 0x45 []).vlt.fuses.ownerSet = false := by
  simp only [State.asks]; decide +kernel

theorem meets_VaultTamper :
    (asked 0x50 [] none).asks false 0x50 .any ∧
    (let s := asked 0x51 [] (some .co) { state := .tampered }
     s.asks false 0x51 .co ∧ s.vlt.state = .tampered) ∧
    (asked 0x52 []).asks false 0x52 .co ∧ (asked 0x60 [] none).asks false 0x60 .any ∧ up.pins.sby = true ∧
    (let s : State := { State.reset with vlt := { pinEn := true }, aon := { sbyArmed := true } }
     s.vlt.pinEn = true ∧ s.aon.sbyArmed = true ∧ s.mainRunning = false ∧ s.aon.asleep = false) ∧
    up.mainRunning = true ∧ up.aon.asleep = false ∧
    (let u : State := { up with vlt := { up.vlt.zeroise with tamper := up.vlt.zeroise.tamper ||| 4, state := .tampered, tamperDue := false } }
     (u.faultC3 0x13 uVLT).aon.asleep = false) := by
  simp only [State.asks]; decide +kernel

/-! ### Statements: memory, queues, streams -/

theorem meets_MemoryWriteRead : State.reset.mem.wf ∧ ([1, 2] : List Byte)[1]? = some 2 := by
  constructor
  · simp [Mem.wf, State.reset, tsorted]
  · rfl

theorem meets_Stacks :
    (let s := up.setStack 3 .training
     (tget {} s.mem.stack 3).state = .training ∧ (s.setStack 3 .ready).dieReady (3 / 4) = true) ∧
    (let s := (up.setStack 3 .training).setStack 0 .failed
     (tget {} s.mem.stack 3).state = .training ∧ (s.setStack 3 .ready).dieReady (3 / 4) = false) ∧
    (up.dieReady 1 = true ∧ tget false up.mem.init (65536 * 1 + 0) = false ∧
      (up.mem.init.filter (fun e => decide (65536 * 1 ≤ e.1) && decide (e.1 < 65536 * 1 + 0))).length = 0) ∧
    (let s : State := { up with mem := { up.mem with init := [(65536, true)] } }
     tget false s.mem.init (65536 * 1 + 1) = false ∧
       (s.mem.init.filter (fun e => decide (65536 * 1 ≤ e.1) && decide (e.1 < 65536 * 1 + 1))).length = 1) ∧
    (tget {} up.mem.stack 7).state ≠ .off ∧ (tget {} up.mem.stack 7).state ≠ .failed := by decide +kernel

/-- A part whose scrubbers run, with the first and the last block of HBM written. -/
def scrubbed (pos : Nat := 0) (rs : List Repair := []) : State :=
  cfgd { up with mem := { up.mem with init := [(0, true), (131071, true)], scrubPos := pos, repairs := rs } } [(bMEM + 0x20, 3)]

theorem meets_ScrubAndRepair :
    (let s := scrubbed
     s.cb (bMEM + 0x20) 0 = true ∧ s.mainRunning = true ∧ s.scrubLine s.mem.scrubPos = some 0 ∧
       (({ s.metErr 0 1 false .ce with mem := { (s.metErr 0 1 false .ce).mem with scrubPos := 64 } } : State).scrubLine 64).isSome = true) ∧
    (let s := scrubbed (0x4000000000 - 64)
     s.scrubLine s.mem.scrubPos = some (0x4000000000 - 64) ∧
       (({ s.metErr (0x4000000000 - 64) 1 false .ue with
            mem := { (s.metErr (0x4000000000 - 64) 1 false .ue).mem with scrubPos := 0x4000000000 } } : State).scrubLine 0x4000000000).isSome = false) ∧
    up.cb (bMEM + 0x20) 0 = false ∧ scrubbed.cb (bMEM + 0x20) 1 = true ∧ region 0x4004A000000 = none ∧
    region 0x40049FFFFFF = some (.depot 1) ∧ region 0x5000D7FFFFF = some (.bay 53) ∧ scrubbed.domOn (bayDom 53) = true ∧
    (let r : Repair := { table := 4095, version := 1, row := 0, addr := 0x1000, bytes := 2 }
     (scrubbed 0 [r]).mem.repairs = [r] ∧ ([7, 8] : List Byte).length = r.bytes ∧ (scrubbed 0 [r]).mem.wf) := by
  refine ⟨by decide +kernel, by decide +kernel, by decide +kernel, by decide +kernel, by decide, by decide, by decide, by decide +kernel,
    rfl, rfl, ?_⟩
  simp [Mem.wf, scrubbed, cfgd, up, tsorted]

theorem meets_Semaphores : up.wgate .host (bGLB + 0x80000 + 4 * 65535) = true ∧ up.wgate .debug (bGLB + 0xC0000 + 4 * 65535) = true ∧
    up.sem 65535 + 0xFFFFFFFF % 2 ^ 32 < 2 ^ 32 ∧
    (let s := up.setReg (bGLB + 0x80000 + 8 * 32767) 0xFFFFFFFF00000001
     s.sem 65535 = 2 ^ 32 - 1 ∧ s.sem 65534 = 1 ∧ 2 ^ 32 ≤ s.sem 65535 + 1 % 2 ^ 32) ∧ up.canonical := by
  refine ⟨by decide +kernel, by decide +kernel, by decide +kernel, by decide +kernel, ?_⟩
  simp [State.canonical, up, Mem.wf, tsorted, twf]

/-- A part with queue 4095 of kind XCH, its ring of 4 entries at 0x10000, and its state. -/
def queued (x : Queue) (w2 : Word := 0) : State :=
  (cfgd up [(rQ 4095, 0x10000), (rQ 4095 + 8, 0x20000), (rQ 4095 + 16, BitVec.ofNat 64 (put 9 59 4 + put 2 28 5) ||| w2),
    (rQ 4095 + 24, 0xFFFFFF)]).setQueue 4095 x

theorem meets_QueueRegisters :
    (let s := queued { state := .active, head := 0xFFFFFFFF, tail := 1, issuePt := 0xFFFFFFFF, cplTail := 2, cplHead := 0 }
     s.wgate .host (rDb 4095) = true ∧ s.wgate .host (rCplHead 4095) = true ∧ s.wgate .host (rQCtl 4095) = true ∧
       (s.queue 4095).state ≠ .disabled ∧ dist32 (s.queue 4095).tail (s.queue 4095).head ≤ dist32 3 (s.queue 4095).head ∧
       dist32 3 (s.queue 4095).head ≤ s.ringSize 4095 ∧ s.ringSize 4095 < dist32 4 (s.queue 4095).head ∧
       dist32 0 (s.queue 4095).head < dist32 (s.queue 4095).tail (s.queue 4095).head ∧
       dist32 2 (s.queue 4095).cplHead ≤ dist32 (s.queue 4095).cplTail (s.queue 4095).cplHead ∧
       dist32 (s.queue 4095).cplTail (s.queue 4095).cplHead < dist32 3 (s.queue 4095).cplHead ∧ (s.queue 4095).state ≠ .stopped) ∧
    ((queued { state := .stopped }).queue 4095).state = .stopped ∧ (up.queue 4095).state = .disabled := by decide +kernel

/-- A NOP of kind XCH. -/
def nopWord : List Nat := 0x90000000 :: List.replicate 15 0

def isGo : Verdict → Bool | .go _ _ => true | _ => false
def isFail : Verdict → Bool | .fail _ => true | _ => false
def isWait : Verdict → Bool | .wait => true | _ => false

theorem ex_go {v : Verdict} (h : isGo v = true) : ∃ cs ns, v = .go cs ns := by cases v <;> simp_all [isGo]
theorem ex_fail {v : Verdict} (h : isFail v = true) : ∃ f, v = .fail f := by cases v <;> simp_all [isFail]
theorem ex_wait {v : Verdict} (h : isWait v = true) : v = .wait := by cases v <;> simp_all [isWait]

theorem meets_FetchAndIssue_fetch :
    (let s := queued { state := .active, head := 3, tail := 4, issuePt := 3 }
     s.running = true ∧ (s.queue 4095).state ≠ .disabled ∧ (s.queue 4095).head ≠ (s.queue 4095).tail ∧
       dist32 (s.queue 4095).head (s.queue 4095).issuePt < 16 ∧ s.qB s.gen 4095 0 0 = false ∧
       s.reachable (s.slotOf 4095 (s.queue 4095).head) = true) ∧
    16 ≤ dist32 ((queued { state := .active, head := 16 }).queue 4095).head ((queued { state := .active, head := 16 }).queue 4095).issuePt := by
  decide +kernel

theorem meets_FetchAndIssue_issue :
    (let s := queued { state := .active, head := 1, tail := 1, fetched := [(false, nopWord)] }
     (s.queue 4095).fetched = [(false, nopWord)] ∧ (∃ cs ns, s.verdict 4095 = .go cs ns) ∧ s.firstOfKind 4095 = true ∧
       s.running = true ∧ s.flt.state ≠ .c2Recovery ∧ s.qHalted 4095 = false ∧ wb nopWord 0 17 = false ∧ s.qB s.gen 4095 2 56 = false ∧
       headerBad (s.qF s.gen 4095 2 62 59) nopWord = [] ∧ wd nopWord 0 27 20 = 0 ∧ s.kindGone (wd nopWord 0 31 28) = false ∧
       s.canTake nopWord = true ∧ (s.pickInsts (s.qF s.gen 4095 3 23 0) [wd nopWord 0 31 28] []).isSome = true) ∧
    (let s := queued { state := .active, head := 1, tail := 1, fetched := [(false, 0x80000000 :: List.replicate 15 0)] }
     (∃ f, s.verdict 4095 = .fail f) ∧ s.cplFull s.gen 4095 = false ∧
       (invalidAt (headerBad (s.qF s.gen 4095 2 62 59) (0x80000000 :: List.replicate 15 0))).isSome = true) ∧
    (queued { state := .stopped, head := 1, tail := 1, fetched := [(false, nopWord)] }).verdict 4095 = .wait ∧
    up.canTake [0, 0, 0x8000, 0x01000000] = false :=
  ⟨⟨by decide +kernel, ex_go (by decide +kernel), by decide +kernel⟩, ⟨ex_fail (by decide +kernel), by decide +kernel⟩,
   ex_wait (by decide +kernel), by decide +kernel⟩

theorem meets_FetchAndIssue_nop : readyAt (job 9 0 53 []) 9 0 = true := by decide +kernel

theorem meets_Completions :
    (let s := job 9 0 53 [] [] id (fun g => { g with res := some {} })
     s.mainRunning = true ∧ s.que.reissue.contains 0 = false ∧
       State.hasStage s 0 (fun x _ => x.finished && !s.cplFull x.gen x.queue && !x.stalled) = true) ∧
    State.hasStage (job 9 0 53 [] [0x8000] id (fun g => { g with res := some {} })) 0
      (fun x _ => wb x.words 0 15 && x.finished && decide (x.source.2.status = stOK)) = true ∧
    (let s := (job 9 0 53 [] [] id (fun g => { g with res := some {} }) (queued { state := .active }))
     let s := s.setQueue 4095 { s.queue 4095 with cplTail := s.cplSize 0 4095 }
     State.hasStage s 0 (fun x _ => x.finished && s.cplFull x.gen x.queue && !wb x.words 0 15) = true) ∧
    (let s := job 9 0 53 [] [] (fun x => { x with stalled := true }) (fun g => { g with res := some {} })
     State.hasStage s 0 (fun x _ => x.finished && x.stalled && !s.cplFull x.gen x.queue) = true) ∧
    State.hasStage (job 9 0 53 []) 0 (fun x _ => !x.finished && !x.failed) = true ∧
    ((queued { holdoff := true, irqPend := true }).queue 4095).holdoff = true ∧ ((queued { holdoff := true }).queue 4095).irqPend = false := by
  decide +kernel

/-- The part with a stream that waits at its port, having passed some bridges. -/
def waiting (b : Nat) : State :=
  let s := job 9 1 53 [(0, line)]
  { s with str := { s.str with strm := [(0, some { task := 0, stage := 0, key := 0, desc := line, cursor := 1, presented := some { q := 5, seq := 0, bridged := b } })] } }

theorem meets_StreamAccounts :
    (∃ b, ((waiting 0).winner (.bridge b)).isSome = true) ∧ ((waiting 2).winner (homePort 0 0x1000)).isSome = true ∧
    (∀ b, homePort 0 0x1000 ≠ .bridge b) ∧ (waiting 2).mainRunning = true ∧
    (let s : State := { waiting 2 with str := { (waiting 2).str with xfer := [(0, some { stream := 0, queue := 4095, addr := 0x1000, len := 64 })] } }
     (tget none s.str.xfer 0).isSome = true ∧ (tget none s.str.strm 0).isSome = true ∧
       (∀ r ∈ s.hif.reads, ∀ h, r.2 = some h → h.xfer ≠ some 0)) ∧
    5 * 65536 ≤ 5 * 65536 := by
  refine ⟨?_, by decide +kernel, ?_, by decide, ⟨by decide, by decide, by simp [waiting, job, up]⟩, by decide⟩
  · exact ⟨_, (by decide +kernel : ((waiting 0).winner (.bridge 2)).isSome = true)⟩
  · intro b; simp [homePort, region]


/-! ### Statements: parameters, the Ledger, ingress -/

/-- A stage whose parameter stream has key 9. -/
def withPar (g : Stage) : Stage := { g with par := some 9 }

/-- An instance that loads the parameter set of a command. -/
def loads (kind inst : Nat) : State :=
  let s := job kind 1 inst [(9, line)] [] id withPar
  { s with str := { s.str with inst := [(inst, { banks := [some { addr := 0x1000, bytes := 64, off := 0, users := [0] }, none] })] } }

def loadsOk (kind inst : Nat) (bad : Bool) : Bool :=
  let s := loads kind inst
  decide ((tget ({} : Inst) s.str.inst inst).loading = some 0) && s.mainRunning && s.powered (bayDom inst) && (s.bankOf 0 inst).isSome &&
    State.hasStage s 0 (fun y g => decide ((y.parStage inst).map (fun e => (e.1, e.2.2)) = some (0, 9)) && g.res.isNone &&
      decide ((s.parBad 0 0 g ((s.elAll (s.descOf 0 0 9)).flatMap El.data)).isSome = bad)) &&
    (s.elAll (s.descOf 0 0 9)).all (fun e => decide (e.err = none) && decide (e.poison = []))

theorem meets_TilesAndParameters :
    (let s := job 4 1 30 []
     let s : State := { s with que := { s.que with tasks := [(0, s.task 0), (1, s.task 0)], nextTask := 2 } }
     let s := cfgd s [(bSTR + 0x1000 + 8 * 30, 0x80000000)]
     s.cb (bSTR + 0x1000 + 8 * 30) 31 = true ∧ s.haltOf 30 = .running ∧ s.curTask 30 = some 0 ∧
       ((s.tasksOn 30).filter (fun v => decide (some v ≠ some 0))).find? (s.taskReady 30) = some 1) ∧
    up.cb (bSTR + 0x1000 + 8 * 30) 31 = false ∧ wbit (up.reg (bTEL + 0x10000 + 0x80 * 53 + 8 * 15)) 63 = false ∧
    State.hasStage (job 4 1 30 []) 0 (fun _ g => g.res.isNone && decide (g.tiles < g.nTiles) && (job 4 1 30 []).instRuns g.inst &&
      (job 4 1 30 []).mayWork g.inst 0 && (job 4 1 30 []).parReady 0 g) = true ∧
    (let s := job 4 1 30 [(9, line)] [] id withPar
     let s : State := { s with str := { s.str with inst := [(30, { waitBank := [0] })] } }
     (tget ({} : Inst) s.str.inst 30).waitBank = [0] ∧ s.mainRunning = true ∧
       State.hasStage s 0 (fun y _ => decide ((y.parStage 30).map (fun e => (e.1, e.2.2)) = some (0, 9))) = true ∧
       (s.claimBank 30 0 0 (((s.descOf 0 0 9).start : Int) + (s.descOf 0 0 9).offset) ((s.descOf 0 0 9).total * (s.descOf 0 0 9).elem)).isSome = true) ∧
    loadsOk 9 53 false = true ∧ loadsOk 2 (kindBay 2) true = true := by
  decide +kernel

def isAdmit (h : Hold) : Bool := match h with | .go _ _ => true | _ => false

/-- Pipeline 0 enabled, one sample a batch, of a schedule of one shard with two records. -/
def piped : State :=
  let s := cfgd up [(rPipe 0, BitVec.ofNat 64 (2 ^ 63 + put 1 40 16 + put 3 0 12)), (rPipe 0 + 8, 0x10000), (rPipe 0 + 16, 0x11000),
    (rPipe 0 + 24, BitVec.ofNat 64 (put 1 44 20 + put 1 27 17)), (rPipe 0 + 40, 0x10000), (rPipe 0 + 48, BitVec.ofNat 64 (put 4 59 5 + 0x20000)),
    (rPak 0 + 16, 4)]
  memd { s with
    pak := { s.pak with pipe := [(0, { ready := true })] }
    ldg := { s.ldg with pipe := [(0, { state := .running })] } } 0x11000 [2, 0, 0, 0]

theorem admits : isAdmit (piped.canAdmit 0) = true := by decide +kernel

/-- Slot 5 ACTIVE in an open batch whose samples have so many ms. -/
def sampled (ms : Nat) : State :=
  { up with ldg := { up.ldg with
      ctx := [(5, { state := .active, batchRef := 65535 })]
      batch := [(65535, some { pipe := 0, epoch := 0, num := 0, mains := [(0, some 5)], reserves := [], sampleMs := ms })] } }

theorem meets_LedgerRows :
    up.mainRunning = true ∧
    (piped.running = true ∧ piped.ldg.initDone = true ∧ piped.ldg.stopped = false ∧ piped.ldg.flush = none ∧ piped.flt.state ≠ .c2Recovery ∧
      (∃ after, (span (piped.ldg.lastAdmit + 1) 256).map (· % 256) = [] ++ 0 :: after) ∧ isAdmit (piped.canAdmit 0) = true) ∧
    State.reset.ldg.initDone = false ∧
    (up.ctxBad 5 = false ∧ (up.ctx 5).state ≠ .active) ∧
    (let s := sampled 0
     s.ctxBad 5 = false ∧ (s.ctx 5).state = .active ∧ (s.openBatch (s.ctx 5).batchRef).isSome = true ∧
       0 * 1000 ≤ (s.ns / 1000 % 2 ^ 32 + 2 ^ 32 - (s.ctx 5).admitUs) % 2 ^ 32) ∧
    (let s := sampled 1
     (s.ctx 5).state = .active ∧ (s.ns / 1000 % 2 ^ 32 + 2 ^ 32 - (s.ctx 5).admitUs) % 2 ^ 32 < 1 * 1000) ∧
    ({ up with mem := { up.mem with poison := [(storeAddr (32 * 2097151) / 64, true)] } } : State).ctxBad 2097151 = true ∧
    (let s : State := { up with ldg := { up.ldg with pipe := [(255, { pinWait := [(7, 3)] })] } }
     (7, 3) ∈ (tget {} s.ldg.pipe 255).pinWait ∧ s.freePin = some 0 ∧ s.jrnRoom 1 = true) ∧
    (piped.running = true ∧ piped.jrnRoom piped.pipesOn.length = true ∧ piped.ldg.flush = none) := by
  refine ⟨by decide +kernel, ⟨by decide +kernel, by decide +kernel, by decide +kernel, by decide +kernel, by decide +kernel,
    ⟨(span 1 255).map (· % 256), by decide +kernel⟩, admits⟩, by decide +kernel, by decide +kernel, by decide +kernel, by decide +kernel,
    by decide +kernel, by decide +kernel, by decide +kernel⟩

theorem tget_map {β : Type} (d v : β) : ∀ (l : List Nat) (m : Nat), m ∈ l → tget d (l.map (fun i => (i, v))) m = v
  | a :: l, m, h => by
    by_cases e : a = m
    · simp [tget, e]
    · have : m ∈ l := by simpa [Ne.symm e] using h
      simp [tget, e, tget_map d v l m this]

theorem meets_LedgerRows_noPin :
    ({ up with ldg := { up.ldg with pins := (List.range 1024).map (fun i => (i, { count := 1 })) } } : State).freePin = none := by
  unfold State.freePin
  rw [List.find?_eq_none]
  intro i hi
  simp only [tget_map _ _ _ i hi]
  decide

/-- A FETCH of one entry each, as its wait began or is over, on a ring that holds some. -/
def fetching (head tail : Nat) (past : Bool) (k : PipeState := .disabled) : State :=
  job 0 1 0 [(5, { line with strides := [1, 1], counts := [1, 64] })] [] (fun x => { x with waitOver := past }) id
    { up with ldg := { up.ldg with pipe := [(0, { admHead := head, admTail := tail, state := k })] } }

theorem meets_FetchRows_fetch :
    (readyAt (fetching 3 67 false) 0 1 = true ∧ ((fetching 3 67 false).bayUse 0 []).recsOf 0 = [] ∧
      ((fetching 3 67 false).descOf 0 0 5).cnt 1 = 64) ∧
    (readyAt (fetching 3 66 true) 0 1 = true ∧ readyAt (fetching 3 66 false) 0 1 = true ∧ readyAt (fetching 9 9 true) 0 1 = true) := by
  decide +kernel

/-- A record of 8 bytes of host memory, of a field type, as its FETCH waits for it. -/
def recording (man : List Byte) (pin : Option (Nat × Nat) := none) (s : State := up) : State :=
  let s := job 0 1 0 [(5, { line with strides := [1, 1], counts := [1, 64] })] [] id id s
  { s with ing := { s.ing with recs := [{ task := 0, idx := 0, inst := 0, pipe := 0, entry := List.replicate 16 0, man := man, started := true, toSend := some 0, pin := pin }] } }

/-- A manifest entry: source, place, key slot, length and field type. -/
def manifest (src loc slot len type : Nat) : List Byte :=
  leBytes 1 src ++ leBytes 7 0 ++ leBytes 8 loc ++ leBytes 4 len ++ leBytes 2 0 ++ leBytes 2 slot ++ leBytes 4 0 ++
    leBytes 1 type ++ List.replicate 35 0

def isErr {α : Type} (x : Except Nat α) (e : Nat) : Bool := match x with | .error n => n = e | .ok _ => false
def isOk {α : Type} (x : Except Nat α) : Bool := match x with | .ok _ => true | .error _ => false

/-- What recordDone meets: a record that is ready, what its stored bytes and its plaintext give, and its frame. -/
def recCase (s : State) (data : List Byte) (P : IngRec → Except Nat (List Byte) → Except Nat (List Byte) → Bool) : Bool :=
  match s.recReady 0 0 with
  | some (r, _) =>
    P r (s.recStored r data) (match s.recStored r data with
      | .ok b => (s.bump (ingCtr 1) b.length).recPlain r b (4096 * ((s.bump (ingCtr 1) b.length).descOf 0 0 5).cnt 0)
      | .error e => .error e)
  | none => false

def framing (r : IngRec) (b : Except Nat (List Byte)) : Bool := match b with | .ok p => (framed r.man p).isSome | .error _ => false

theorem meets_FetchRows_record :
    recCase (recording (manifest 0 0x60000000000 0xFFFF 8 1)) [] (fun _ a _ => isErr a stADDR_RANGE) = true ∧
    recCase (recording (manifest 1 0x1000 5 8 1)) [] (fun _ a b => isOk a && isErr b stKEY_EMPTY) = true ∧
    recCase (recording (manifest 1 0x1000 0xFFFF 8 0)) [] (fun r _ b => isOk b && !framing r b) = true ∧
    recCase (recording (manifest 2 0x1000 0xFFFF 8 1)) (List.replicate 8 7) (fun r _ b => isOk b && framing r b && r.pin.isNone) = true ∧
    recCase (recording (manifest 1 0x1000 0xFFFF 8 1) (some (0, 0)) { up with vlt := { up.vlt with keys := [(0xFFFF, { key := some { key := [], kek := 0, dataset := 0, epoch := 0 } })] } }) []
      (fun r _ b => isOk b && framing r b && decide (r.pin = some (0, 0))) = true ∧
    (let s := recording (manifest 1 0x1000 0xFFFF 8 1)
     let s : State := { s with hif := { s.hif with reads := [(0, some { addr := 0x1000, len := 8, task := some 0, record := some 0 })] } }
     (s.recOf 0 0).isSome = true ∧ s.recWaits 0 0 = true) ∧
    up.recOf 0 0 = none := by
  decide +kernel

/-- A part with one connection to target 63 over a port, and the ports up. -/
def linked (port : Nat) (k : Conn) (x : EthPort := { up := true }) : State :=
  { up with eth := { port := [(0, x), (1, x)], conn := [(2 * 63 + port, k)] } }

/-- A Read under command identifier 9. -/
def reading (quar : Bool) : Conn := { state := .ready, reads := [(9, some { task := 0, record := 0, quar := quar })] }

theorem meets_NvmeRows :
    (((linked 1 { state := .connecting }).conn 127).state = .connecting ∧ ((linked 1 { state := .connecting }).ethPort 1).up = true) ∧
    (up.conn 127).state ≠ .ready ∧
    (tget none ((linked 1 (reading true)).conn 127).reads 9).map NvmeRead.quar = some true ∧
    (let s := { linked 1 (reading false) with ing := (recording (manifest 2 0 0xFFFF 8 1)).ing }
     let u := s.setConn 127 { s.conn 127 with reads := tset none (s.conn 127).reads 9 none }
     let v := s.setConn 127 { s.conn 127 with reads := tset none (s.conn 127).reads 9 (some { task := 0, record := 0, quar := true }) }
     (tget none (s.conn 127).reads 9).map NvmeRead.quar = some false ∧ (u.recOf 0 0).isSome = true ∧ (v.recOf 0 0).isSome = true) ∧
    (let s := linked 0 (reading false)
     (s.conn (2 * 63)).state = .ready ∧ (s.conn (2 * 63 + 1)).state ≠ .ready ∧ (s.ethPort 0).paused = false) := by
  decide +kernel

/-- The configuration of port 1: its enable bit, and one transport retry. -/
def ethCfg : List (Nat × Word) := [(rEth 1, 0x3000000000000 + 0x50000000000000), (bING + 0x10, 0x1A0)]

theorem meets_EthernetRows :
    (((linked 1 {}).ethPort 1).up = true ∧ ((linked 1 {}).conn 127).state = .none) ∧
    (let s := cfgd (linked 1 { state := .ready, unacked := 2 }) ethCfg
     (s.conn 127).state = .ready ∧ (s.conn 127).unacked ≠ 0 ∧ (s.conn 127).rnrs < s.cf (bING + 0x10) 7 5 ∧ (s.conn 127).retries < s.cf (bING + 0x10) 10 8) ∧
    (let s := linked 1 { state := .ready, unacked := 2 }
     (s.conn 127).unacked ≠ 0 ∧ s.cf (bING + 0x10) 10 8 ≤ (s.conn 127).retries) ∧
    (let s := linked 1 { state := .ready }
     (s.conn 127).state = .ready ∧ (s.conn 127).unacked = 0) ∧
    (let s := cfgd (linked 1 {}) ethCfg
     5 = s.cf (rEth 1) 55 52 ∧ 4 ≠ s.cf (rEth 1) 55 52 ∧ s.ownIp 1 ≠ 1) ∧
    (let s := cfgd up ethCfg
     (s.ethPort 1).up = false ∧ s.ethCan 1 = true) ∧
    (∀ mac ∈ [(none : Option Nat), some 5],
     let s := linked 1 {} { up := true, arp := [(77, some { mac := mac, tries := 3 })] }
     (∃ e, tget none (s.ethPort 1).arp 77 = some e ∧ e.mac = mac ∧ e.tries < 4) ∧ s.connsOn 1 77 = [] ∧
       (s.arpPut 1 77 { mac := some 6 }).connsOn 1 77 = []) ∧
    tget none (up.ethPort 1).arp 77 = none := by
  refine ⟨by decide +kernel, by decide +kernel, by decide +kernel, by decide +kernel, by decide +kernel, by decide +kernel, ?_, by decide +kernel⟩
  intro mac h
  simp only [List.mem_cons, List.not_mem_nil, or_false] at h
  rcases h with h | h <;> (subst h; exact ⟨⟨_, rfl, rfl, by decide⟩, by decide +kernel, by decide +kernel⟩)

/-- Target 63 configured at address 77, enabled, over port 1. -/
def addressed : State :=
  cfgd (linked 1 { state := .ready } { up := true, arp := [(77, some { mac := some 6 })] }) ((rTgt 63 + 8, 0x4D00000000000000) :: ethCfg)

theorem meets_EthernetRows_refresh : addressed.connsOn 1 77 ≠ [] := by decide +kernel

/-! ### Statements: the engines -/

theorem meets_MediaAndMatrixRows :
    readyAt (job 1 1 (kindBay 1) []) 1 1 = true ∧ readyAt (job 1 2 (kindBay 1) []) 1 2 = true ∧ readyAt (job 2 1 (kindBay 2) []) 2 1 = true ∧
    readyAt (job 3 1 (kindBay 3) []) 3 1 = true ∧ readyAt (job 4 1 (kindBay 4) []) 4 1 = true ∧ readyAt (job 4 2 (kindBay 4) []) 4 2 = true ∧
    readyAt (job 4 3 (kindBay 4) []) 4 3 = true := by decide +kernel

theorem meets_ExchangeRows : readyAt (job 9 1 53 []) 9 1 = true ∧ readyAt (job 9 2 53 []) 9 2 = true ∧ readyAt (job 9 3 53 []) 9 3 = true := by
  decide +kernel

/-- A part with a request of another device in a read slot. -/
def asking (n mode : Nat) : State :=
  { up with gth := { up.gth with
      slots := [(n, { req := some { task := 0, stage := 0, poss := [0], bag := 0, home := 1, mode := mode, table := 0, version := 0 } })] } }

theorem meets_GatherRows :
    (readyAt (job 5 1 (kindBay 5) []) 5 1 = true ∧ readyAt (job 5 2 (kindBay 5) []) 5 2 = true ∧ readyAt (job 5 3 (kindBay 5) []) 5 3 = true) ∧
    (tget ({} : ReadSlot) (asking 7 0).gth.slots 7).req.isSome = true ∧ (tget ({} : ReadSlot) up.gth.slots 7).req = none ∧
    (let s : State := { up with gth := { up.gth with ver := [(4 * 4095 + 3, { state := .retiring, version := 2 })] } }
     (tget {} s.gth.ver (4 * 4095 + 3)).state = .retiring ∧ s.ldg.pins = [] ∧ s.taskList = [] ∧ (∀ e ∈ s.gth.slots, e.2.req = none)) ∧
    (let s : State := { up with ldg := { up.ldg with pins := [(0, { tables := [(4095, 2)] })] }
                                gth := { up.gth with ver := [(4 * 4095 + 3, { state := .retiring, version := 2 })] } }
     ∃ e ∈ s.ldg.pins, (4095, (tget {} s.gth.ver (4 * 4095 + 3)).version) ∈ e.2.tables) ∧
    (tget {} up.gth.ver (4 * 4095 + 3)).state ≠ .retiring := by
  refine ⟨by decide +kernel, by decide +kernel, by decide +kernel, by decide +kernel, ?_, by decide +kernel⟩
  exact ⟨_, List.mem_cons_self, by decide +kernel⟩

/-- A message in the inbox. -/
def msgIn (type : Nat) (body : List Byte) (src : Nat := 9) (srcEp : Bool := false) : RxMsg :=
  { port := 15, type := type, poison := false, srcEp := srcEp, src := src, body := body }

def got (m : RxMsg) (s : State := up) : State := { s with ngl := { s.ngl with inbox := [m] } }

theorem meets_GatherMessages :
    (∀ b ∈ [List.replicate 64 (0 : Byte), List.replicate 64 1], (got (msgIn 3 b)).has 3 0 (msgIn 3 b)) ∧
    ((kindBays 5).find? (fun n => up.instRuns n)).isSome = true ∧ (up.inMsg 3 0 = none ∧ up.inMsg 4 0 = none ∧ up.inMsg 5 0 = none) ∧
    (let m := msgIn 4 (List.replicate 64 0)
     (got m).has 4 0 m ∧ ((got m).popMsg m).slotFor 0 false = none ∧ (got m (asking 0 0)).has 4 0 m ∧
       (((got m (asking 0 0)).popMsg m).slotFor 0 false).isSome = true) ∧
    (let m := msgIn 5 (List.replicate 64 0)
     (got m).has 5 0 m ∧ ((got m).popMsg m).slotFor 0 true = none ∧ (got m (asking 0 1)).has 5 0 m ∧
       (((got m (asking 0 1)).popMsg m).slotFor 0 true).isSome = true) := by
  unfold State.has
  decide +kernel

/-- A sequence record, ACTIVE, of some step, with logits received and expected. -/
def seqRec (step got vocab : Nat) : List Byte :=
  leBytes 4 0 ++ leBytes 1 1 ++ leBytes 3 0 ++ leBytes 4 vocab ++ leBytes 2 0 ++ leBytes 2 step ++ leBytes 24 0 ++ leBytes 8 0x40000 ++
    leBytes 8 0 ++ leBytes 4 got ++ List.replicate 68 0

/-- A part with one sequence at 0x10000 and a SAMPLE of it. -/
def sampling (n : Nat) (rec : List Byte) (past : Bool := false) (s : State := up) : State :=
  memd (job 6 1 (kindBay 6) [(5, { start := 0x2000, strides := [4], counts := [n], elem := 4 })] [] (fun x => { x with waitOver := past }) id
    (cfgd s [(bSMP + 0x10, BitVec.ofNat 64 (put 1 44 17 + 0x10000))])) 0x10000 rec

/-- The head of a SAMPLE as the statement takes it: errors, poison, and where the walk of the sequences gets. -/
def sampleCase (s : State) (P : Option Nat → Bool → Nat → Nat → Option Nat → Bool) : Bool :=
  let els := (List.range ((s.descOf 0 0 5).cnt 0)).map (s.elN (s.descOf 0 0 5))
  let ids := els.map (fun e => leNat e.data)
  readyAt s 6 1 && State.hasStage s 0 (fun x g =>
    let r := s.seqLoop x.gen g.inst x.waitOver ids (ids.drop g.work.length) g.work
    P (els.findSome? El.err) (els.any (fun e => e.poison ≠ [])) ids.length r.2.1.length r.2.2)

theorem meets_SamplingRows_sample :
    sampleCase (job 6 1 (kindBay 6) [(5, { start := 0x60000000000, strides := [4], counts := [1], elem := 4 })]) (fun e _ _ _ _ => e.isSome) = true ∧
    (let s := sampling 1 []
     sampleCase { s with mem := { s.mem with poison := [(0x2000 / 64, true)] } } (fun e p _ _ _ => e.isNone && p)) = true ∧
    (let s := sampling 1 []
     sampleCase { s with mem := { s.mem with poison := [(0x10000 / 64, true)] } } (fun e p _ _ f => e.isNone && !p && f.isSome)) = true ∧
    sampleCase (sampling 0 []) (fun e p n k f => e.isNone && !p && f.isNone && decide (n ≤ k)) = true ∧
    sampleCase (sampling 1 (seqRec 0 0 8)) (fun e p n k f => e.isNone && !p && f.isNone && decide (n ≤ k)) = true ∧
    sampleCase (sampling 1 (seqRec 0 0 8) false { up with ldg := { up.ldg with ctx := [(0, { state := .active })] } })
      (fun e p n k f => e.isNone && !p && f.isNone && decide (k < n)) = true := by
  decide +kernel

/-- A page of n logits for sequence `id`. -/
def page (id step first n : Nat) : RxMsg :=
  msgIn 7 (leBytes 4 id ++ leBytes 2 step ++ leBytes 2 0 ++ leBytes 4 first ++ leBytes 4 n ++ List.replicate (2 * n) 0)

theorem meets_SamplingRows_page :
    up.wgate .host (bSMP + 0x20) = true ∧ up.domOn 13 = true ∧
    (let m := page 1 0 0 8
     let s := got m (sampling 1 (seqRec 0 0 8))
     s.has 7 0 m ∧ (s.popMsg m).seqCount (s.popMsg m).gen ≤ 1) ∧
    (let m := page 0 0 0 8
     let u := (got m (sampling 1 (List.replicate 128 0))).popMsg m
     0 < u.seqCount u.gen ∧ u.rdErr (u.seqAddr u.gen 0) 128 = none ∧ (Seq.ofBytes (u.mem.rds (u.seqAddr u.gen 0) 128)).state ≠ 1) ∧
    (let m := page 0 3 2 6
     let u := (got m (sampling 1 (seqRec 3 2 8))).popMsg m
     let q := Seq.ofBytes (u.mem.rds (u.seqAddr u.gen 0) 128)
     u.rdErr (u.seqAddr u.gen 0) 128 = none ∧ q.state = 1 ∧ q.step = 3 ∧ q.received = 2 ∧ q.received + 6 ≤ q.vocab ∧ q.fmt = 0 ∧
       16 + 6 * q.width ≤ m.body.length ∧ u.accErr 0 ((q.logits + q.received * q.width : Nat) : Int) (6 * q.width) = none) := by
  unfold State.has
  decide +kernel

/-! ### Statements: delivery, sensors and the Azimuth port -/

/-- Batch 65,535 of pipeline 255 with one field of 4 bytes, to be built at 0x100000. -/
def aBatch (built : Bool := false) : PakBatch :=
  { pipe := 255, id := 0, addr := 0x100000, fields := [{ packed := false, tokBytes := 0, maxRows := 0, size := 4, rowLen := 0, padId := 0 }],
    batchSize := 1, comp := [{ key := 7, status := 0 }], substituted := 0, masked := 0, dropped := 0, inst := some 44, built := built }

def batched (d : Dest) (built : Bool := false) (s : State := up) : State :=
  { s with pak := { s.pak with batch := [(65535, some (aBatch built))], dest := [(16384 * 255, d)] } }

/-- The acknowledgement of dsn 5 of the batch, from the endpoint of entry 0. -/
def ackMsg : RxMsg := msgIn 8 (leBytes 2 1 ++ leBytes 6 0 ++ leBytes 8 0 ++ leBytes 4 5 ++ leBytes 1 255 ++ List.replicate 11 0) 0 true

/-- Sixty-four journal entries wait. -/
def jrnFull (s : State) : State := { s with ldg := { s.ldg with queue := List.replicate 64 [] } }

theorem meets_PackRows_stage : readyAt (job 7 1 (kindBay 7) []) 7 1 = true ∧ readyAt (job 7 2 (kindBay 7) []) 7 2 = true := by decide +kernel

theorem meets_PackRows_layout :
    (∀ m ∈ [(0x4C4B5057 : Nat), 0],
      let s := memd (cfgd { up with pak := { up.pak with pipe := [(255, { due := true })] } }
        [(rPak 255, 0x20000), (rPak 255 + 16, 0x0010000000000001), (rPipe 255, 0x10000000000)]) 0x20000
          (leBytes 4 m ++ leBytes 2 1 ++ leBytes 1 1 ++ List.replicate 57 0 ++ leBytes 4 0 ++ leBytes 4 4)
      (s.pakPipe 255).due = true ∧ s.domOn 14 = true ∧ (s.readLayout 255).isSome = decide (m ≠ 0)) := by decide +kernel

theorem meets_PackRows_build :
    (let s := batched {}
     let b := aBatch
     let w := match s.openBatch 65535 with | some x => x.mains.length + x.reserves.length | none => b.batchSize
     s.pakBatch 65535 = some b ∧ b.inst = some 44 ∧ b.built = false ∧ s.instRuns 44 = true ∧ (s.buildImage b w).lost = [] ∧ s.jrnRoom 0 = true ∧
       s.accErr 0 ((b.addr : Nat) : Int) (s.buildImage b w).bytes.length = none) := by decide +kernel

theorem meets_PackRows_offer :
    ((batched { cur := some { entry := 65535, dsn := 5 } } true).pakDest (16384 * 255)).cur.isSome = true ∧
    (let s := batched { dsn := 2 ^ 32 - 1, queue := [65535] } true
     (s.pakDest (16384 * 255)).cur = none ∧ (s.pakDest (16384 * 255)).queue = [65535] ∧ s.pakBatch 65535 = some (aBatch true) ∧
       s.instOk 44 = true ∧ s.running = true ∧ s.flt.state ≠ .c2Recovery ∧ s.jrnRoom 1 = true) ∧
    (let s := got ackMsg (batched { cur := some { entry := 65535, dsn := 5 } } true)
     s.has 8 1 ackMsg ∧ s.ackedDest ackMsg = some (16384 * 255) ∧ s.jrnRoom 1 = true ∧ (jrnFull s).has 8 1 ackMsg ∧
       (jrnFull s).ackedDest ackMsg = some (16384 * 255) ∧ (jrnFull s).jrnRoom 1 = false ∧ (got ackMsg).has 8 1 ackMsg ∧
       (got ackMsg).ackedDest ackMsg = none) ∧
    (let s := cfgd (batched { cur := some { entry := 65535, dsn := 5, sent := true } } true) [(rPak 255, 0x8000000000000000)]
     (s.pakDest (16384 * 255)).cur = some { entry := 65535, dsn := 5, sent := true } ∧ s.pakHost 255 = true ∧ s.hostUp = true ∧ s.jrnRoom 1 = true) ∧
    up.wgate .host (bPAK + 0x20000 + 8 * 255) = true ∧ up.stepHeld 3 1 = false ∧
    (let m : Msg := { dst := 3, toEp := true, type := 1, payload := leBytes 8 0 ++ leBytes 4 1 ++ leBytes 4 0 ++ leBytes 1 1 }
     ({ up with ngl := { up.ngl with wait := [{ unit := 44, msg := m }] } } : State).stepHeld 3 1 = true) := by
  unfold State.has
  decide +kernel

/-- Layer 31 enabled: port 7, virtual channel 15, data type 0x2A, 4 pixels by 2 lines; and what the servo, trigger 3 and group 7 take. -/
def seeing (fr : Option SFrame := none) (s : State := up) : State :=
  cfgd { s with sen := { s.sen with layer := [(31, { openF := fr })], group := [(7, { next := some 4 })] }, eth := { port := [(1, { up := true })] } }
    [(bSEN + 0x1000 + 0x20 * 7, 0x80000000), (rLayer 31, BitVec.ofNat 64 (2 ^ 63 + put 7 60 3 + put 15 56 4 + put 0x2A 50 6 + put 4 35 15 + put 2 20 15)),
     (bSEN + 8, 1), (bSEN + 0x5000 + 0x70, 2), (bSEN + 0x6000 + 0x60, 0xC000000000000000), (rGrp 7, 0x8000000000000000)]

def aFrame (lines : Nat) (good : Option Nat) (latch : Nat := 0) : SFrame :=
  { layer := 31, no := 1, csi := 9, ring := { base := 0x30000, slots := 2, slotBytes := 64, latch := latch }, slot := 0, ts := 0, fallback := false,
    lines := lines, good := good }

theorem meets_SensorRows_packets :
    seeing.senPort 7 = true ∧ (∀ l ∈ seeing.layersOf 7 15, seeing.layerDt l ≠ 0x2B) ∧
    (let s := seeing (some (aFrame 1 none))
     (s.layersOf 7 15).find? (fun l => s.layerDt l = 0x2A && decide (15 < 16)) = some 31 ∧ (s.layer 31).openF = some (aFrame 1 none) ∧
       1 < s.layerH 31 ∧ ([1, 2, 3, 4] : List Byte).length = cdiv (s.layerW 31 * wireBits 0x2A) 8) ∧
    (let s := seeing (some (aFrame 1 (some 0)))
     (s.layer 31).openF = some (aFrame 1 (some 0)) ∧ 1 < s.layerH 31) ∧
    (let s := seeing (some (aFrame 1 none))
     s.latchLine (aFrame 1 none) < 1) := by decide +kernel

theorem meets_SensorRows_time :
    seeing.ptpFrom 1 = true ∧ up.ptpFrom 2 = false ∧ seeing.instRuns 52 = true ∧ seeing.cf (bSEN + 0x5000 + 0x10 * 7) 1 0 = 2 ∧
    up.cf (bSEN + 0x5000 + 0x10 * 7) 1 0 = (if true then 0 else 1) ∧ (tget [] up.sen.ts 7).length < 64 ∧
    (let s : State := { up with sen := { up.sen with ts := [(7, List.replicate 64 0)] } }
     64 ≤ (tget [] s.sen.ts 7).length ∧ s.instRuns 52 = true) ∧
    ({ up with sen := { up.sen with trig := [(3, { pulse := some (5, true) })] } } : State).trig 3 = { pulse := some (5, true) } ∧
    ((seeing.trig 3).pulse = none ∧ seeing.cb (bSEN + 0x6000 + 0x20 * 3) 63 = true) ∧ up.cb (bSEN + 0x6000 + 0x20 * 3) 63 = false ∧
    ((seeing.group 7).next = some 4 ∧ seeing.grpOn 7 = true) := by decide +kernel

/-- A CAPTURE of n frames of group 0 with so many in its ring. -/
def capturing (n ring : Nat) (past : Bool) : State :=
  job 8 1 52 [(7, { start := 0x1000, strides := [1, 1, 1], counts := [4, 4, n], elem := 1 })] [] (fun x => { x with waitOver := past }) id
    { up with sen := { up.sen with group := [(0, { ring := (List.range ring).map (fun i => { seq := i, ticket := 0, at' := 0, members := [{}] }) })] } }

theorem meets_SensorRows_capture :
    (readyAt (capturing 2 1 false) 8 1 = true ∧ ((capturing 2 1 false).capAvail []).length < ((capturing 2 1 false).descOf 0 0 7).cnt 2) ∧
    (readyAt (capturing 2 2 false) 8 1 = true ∧ ((capturing 2 2 false).descOf 0 0 7).cnt 2 ≤ ((capturing 2 2 false).capAvail []).length ∧
      ((capturing 2 2 false).descOf 0 0 7).cnt 2 ≠ 0) ∧
    (readyAt (capturing 2 1 true) 8 1 = true ∧ (capturing 2 1 true).capAvail [] ≠ []) ∧
    State.hasStage (capturing 2 1 false) 0 (fun x _ => x.stages.any (fun g => g.kind = 8 && g.op = 1)) = true := by decide +kernel

theorem meets_AzimuthRows :
    up.wgate .host (bGLB + 0x830) = true ∧ State.reset.wgate .debug (bGLB + 0x830) = false ∧ State.reset.azm.jobs = [] ∧
    (let s : State := { up with azm := { up.azm with jobs := [(List.replicate 8 0, List.replicate 4 0)] } }
     s.azm.jobs = (List.replicate 8 0, List.replicate 4 0) :: [] ∧ s.azm.held = []) := by decide +kernel

/-! ### Statements: the fabric -/

def porting (x : Port) (s : State := up) : State := { s with ngl := { s.ngl with port := [(15, x)] } }

theorem meets_PortTraining :
    (∀ k ∈ [PortState.pmdTrain, .fecLock, .flitSync, .param, .active], ((porting { state := k }).port 15).state = k) ∧
    (∀ n ∈ [0, 1, 2], let x := (porting { state := .retrain, sub := n, attempts := n }).port 15
      x.state = .retrain ∧ x.sub = n ∧ x.attempts = n) ∧
    (∃ v, v < 4 ∧ ([8, 8, 8, 7] : List Nat).getD v 0 < 8) ∧ 4096 < (([4000, 97, 0, 0] : List Nat).take 4).sum ∧
    ((∀ v, v < 4 → 8 ≤ ([4072, 8, 8, 8] : List Nat).getD v 0) ∧ (([4072, 8, 8, 8] : List Nat).take 4).sum ≤ 4096) ∧
    (∀ seen ∈ [true, false], ((((porting { state := .param, sentSeen := true }).port 15).peerSeen || seen) = seen)) :=
  ⟨by decide +kernel, by decide +kernel, ⟨3, by decide, by decide⟩, by decide, ⟨by decide, by decide⟩, by decide +kernel⟩

def aFlit : Flit := { seq := 9, vc := 0, data := [] }

theorem meets_Flits :
    (∀ x ∈ [({ state := .active, nakDue := true } : Port), { state := .active, replay := some 0 }, { state := .flitSync }, { state := .param }],
      (porting x).port 15 = x) ∧
    (let x : Port := { state := .active, adv := [1, 0, 0, 1], tx := [[[1]], [], [], [[2]]] }
     x.nakDue = false ∧ x.replay = none ∧ x.canSend 0 = true) ∧
    (let x : Port := { state := .active }
     x.nakDue = false ∧ x.replay = none ∧ x.canSend 0 = false ∧ (porting x).rrPick 15 x = none ∧ x.retry = []) ∧
    (let x : Port := { state := .active, adv := [0, 0, 0, 1], tx := [[], [], [], [[2]]] }
     x.canSend 0 = false ∧ ((porting x).rrPick 15 x).isSome = true) ∧
    (let x : Port := { state := .active, expected := 4095 }
     (4094 : Nat) ≠ (x.used none []).expected ∧ (4095 : Nat) = (x.used none []).expected) ∧
    (let x : Port := { state := .active, nakFor := some 4, expected := 4, retry := [aFlit] }
     x.nakFor = some x.expected ∧ x.retry ≠ [] ∧ (∀ f ∈ (x.used none []).retry, f.seq ≠ 8) ∧ (x.used none []).retry = aFlit :: [] ∧ aFlit.seq = 9 ∧
       (x.used none []).replay = none) ∧
    ((porting { state := .detect }).port 15).state ≠ .active ∧ ((porting { state := .detect }).port 15).state ≠ .disabled ∧
    up.cf (bNGL + 0x10) 31 0 < 1 ∧ 0 ≤ up.cf (bNGL + 0x10) 31 0 := by decide +kernel

/-- A port with a message of so many bytes on a channel: type, length and destination. -/
def carrying (v type len dst have' : Nat) : State :=
  let b := (leBytes 1 type ++ leBytes 3 0 ++ leBytes 4 len ++ leBytes 2 9 ++ leBytes 2 dst ++ List.replicate 52 0).take have'
  porting { state := .active, rx := ([[], [], [], []] : List (List Byte)).set v b }

def rx (s : State) (v : Nat) : List Byte := (s.port 15).rx.getD v []

theorem meets_Messages :
    (∀ len ∈ [12, 0, 16777224], (((carrying 0 0 len 0 8).port 15).state = .active ∧ 8 ≤ (rx (carrying 0 0 len 0 8) 0).length ∧
      leNat (((rx (carrying 0 0 len 0 8) 0).drop 4).take 4) = len ∧ (len % 8 ≠ 0 ∨ len < 8 ∨ 16777216 < len))) ∧
    ((rx (carrying 3 0 16777216 0 64) 3).length < 16777216) ∧
    (∀ type ∈ [0, 1, 9], let s := carrying 0 type 8 0 8
      8 ≤ (rx s 0).length ∧ leNat (((rx s 0).drop 4).take 4) = 8 ∧ leNat (((rx s 0).drop 0).take 1) = type) ∧
    (∀ dst ∈ [0, 1], let s := carrying (msgVc 3) 3 32 dst 32
      let u := s.setPort 15 ((s.port 15).eat (msgVc 3) 32)
      32 ≤ (rx s (msgVc 3)).length ∧ leNat (((rx s (msgVc 3)).drop 0).take 1) = 3 ∧
        (leNat (((rx s (msgVc 3)).drop 10).take 2) = u.devId ↔ dst = 0)) ∧
    (let x : Port := { state := .active, peer := some { kind := 0, id := 77, port := 0, count := 0 } }
     (∃ tr, (porting x).route false 77 = some tr ∧ ((porting x).member tr 0).isSome = true) ∧
     (∃ tr, (porting { x with state := .detect }).route false 77 = some tr ∧ (porting { x with state := .detect }).member tr 0 = none ∧
       (porting { x with state := .detect }).ngl.wait = [])) ∧
    (let m := msgIn 8 (leBytes 2 3 ++ leBytes 6 0 ++ leBytes 8 77)
     (got m).has 8 3 m ∧ up.inMsg 8 3 = none) ∧
    (∀ tok ∈ [77, 78],
     let m := msgIn 8 (leBytes 2 4 ++ leBytes 6 0 ++ leBytes 8 77)
     let s := got m { up with ngl := { up.ngl with dom := { heldRoot := 9, echoSent := some (tok, 0) } } }
     s.has 8 4 m ∧ s.ngl.dom.echoSent = some (tok, 0) ∧ (tok = m.fld 0 8 ↔ tok = 77) ∧ m.src = s.ngl.dom.heldRoot ∧ m.srcEp = false) ∧
    (let s := cfgd { up with ngl := { up.ngl with dom := { rootHeld := true, heldRoot := 9 } } } [(bSEN + 8, 3)]
     s.timeSrc = 3 ∧ s.ngl.dom.rootHeld = true ∧ s.ngl.dom.state ≠ .root ∧ s.ngl.dom.heldRoot ≠ s.devId) ∧ up.timeSrc ≠ 3 := by
  unfold State.has
  refine ⟨by decide +kernel, by decide +kernel, by decide +kernel, by decide +kernel, ⟨⟨_, rfl, by decide +kernel⟩, ⟨_, rfl, by decide +kernel, by decide +kernel⟩⟩,
    by decide +kernel, by decide +kernel, by decide +kernel, by decide +kernel⟩

/-- A domain of two endpoints and two members, this device among them. -/
def inDom (d : Domn) (l : List (Nat × Word) := []) : State :=
  memd (cfgd { up with ngl := { up.ngl with dom := d } }
    (l ++ [(rDom 0, BitVec.ofNat 64 (put 1 62 2)), (rDom 1, BitVec.ofNat 64 (put 2 52 12 + put 2 21 15)), (rDom 2, 0x30000), (rDom 3, 0x31000), (rDom 6, 0xA00000000)]))
    0x30000 [0, 0x80, 9, 0x80]

/-- A token, and a CTRL message with two-byte fields 0 and 2 and the rest zero. -/
def tokenMsg (e n : Nat) : RxMsg := msgIn 2 (leBytes 2 0 ++ leBytes 2 e ++ leBytes 4 0 ++ leBytes 8 n ++ List.replicate 16 0)
def ctrlIn (sub a b : Nat) (ep : Bool := false) (n : Nat := 0) : RxMsg :=
  msgIn 8 (leBytes 2 sub ++ leBytes 6 0 ++ leBytes 2 a ++ leBytes 2 b ++ leBytes 4 0 ++ leBytes 8 n ++ List.replicate 48 0) 9 ep

theorem meets_StepsAndBeats :
    (let s := inDom { state := .root, doneEps := [0, 1], token := some (0, 9) }
     s.ngl.dom.state = .root ∧ (∀ i, i < s.epCount → i ∈ s.ngl.dom.doneEps) ∧ s.ngl.dom.cur = (0, 9) ∧ 9 + 1 = s.cf (rDom 6) 63 32) ∧
    up.ngl.dom.state ≠ .root ∧ (let s := inDom { state := .root }; 0 < s.epCount ∧ 0 ∉ s.ngl.dom.doneEps ∧ s.ngl.dom.late = false) ∧
    (∀ tok ∈ [none, some (1, 4)],
      let s := got (tokenMsg 1 5) (inDom { state := .isIn, rootHeld := true, heldRoot := 9, token := tok })
      s.has 2 0 (tokenMsg 1 5) ∧ s.ngl.dom.state = .isIn ∧ (tokenMsg 1 5).srcEp = false ∧ s.ngl.dom.rootHeld = true ∧ (tokenMsg 1 5).src = s.ngl.dom.heldRoot ∧
        (s.ngl.dom.token = none ∨ stepLt (s.ngl.dom.token.getD (0, 0)) (1, 5) = true)) ∧
    (got (tokenMsg 1 5) (inDom { state := .joining })).has 2 0 (tokenMsg 1 5) ∧ stepLt (1, 5) (1, 5) = false ∧
    (let m := ctrlIn 0x100 0 1 true 5
     let s := got m (inDom { state := .root, token := some (1, 5) })
     s.has 8 0x100 m ∧ s.ngl.dom.state = .root ∧ m.srcEp = true ∧ s.ngl.dom.token = some (m.fld 2 2, m.fld 8 8) ∧ (some (1, 6) : Option (Nat × Nat)) ≠ some (m.fld 2 2, m.fld 8 8)) ∧
    (let m := ctrlIn 0x101 0 7
     let s := got m (inDom { state := .root })
     s.has 8 0x101 m ∧ s.domTerm < m.fld 2 2 ∧ (got (ctrlIn 0x101 0 0) (inDom { state := .root })).domTerm ≥ (ctrlIn 0x101 0 0).fld 2 2 ∧
       (got m (inDom { state := .joining })).ngl.dom.accepts (m.fld 2 2) m.src = true ∧ m.srcEp = false ∧
       (got m (inDom { state := .deposed, rootHeld := true, heldRoot := 9 })).ngl.dom.heldRoot = m.src) ∧
    (inDom { lease := true }).ngl.dom.lease = true ∧ (inDom {}).ngl.dom.lease = false ∧ (inDom { late := true }).ngl.dom.late = true := by
  unfold State.has
  decide +kernel

theorem meets_ClaimsAndMembers :
    (∀ l ∈ [true, false], ∀ c ∈ [true, false], let d := (inDom { state := .claiming, lease := l, claimed := c }).ngl.dom
      d.state = .claiming ∧ d.lease = l ∧ d.claimed = c) ∧
    (∀ k ∈ [DomRole.root, .isIn, .joining, .claiming, .out], let m := ctrlIn 0x102 0 7
      let s := got m (inDom { state := k })
      s.has 8 0x102 m ∧ s.domRole ≠ 0 ∧ s.ngl.dom.state = k ∧ s.domTerm < m.fld 2 2 ∧ s.ngl.dom.accepts (m.fld 2 2) m.src = true) ∧
    (let m := ctrlIn 0x102 0 0
     (got m up).domRole = 0 ∧ (got m (inDom { state := .root })).domTerm ≥ m.fld 2 2 ∧
       (got m (inDom { state := .isIn, heldTerm := 4, heldRoot := 3, rootHeld := true })).ngl.dom.accepts (m.fld 2 2) m.src = false) ∧
    (let m := ctrlIn 0x103 0 0
     let s := got m (inDom { state := .claiming, claimed := true })
     s.has 8 0x103 m ∧ m.fld 2 2 = s.domTerm ∧ m.src ∈ s.others ∧ m.srcEp = false) ∧
    (ctrlIn 0x103 0 7).fld 2 2 ≠ (got (ctrlIn 0x103 0 7) (inDom {})).domTerm ∧
    (let m := ctrlIn 0x104 0 0
     (got m (inDom { state := .claiming })).has 8 0x104 m ∧ (got m (inDom {})).has 8 0x104 m) ∧
    (∀ k ∈ [DomRole.root, .out], let m := ctrlIn 0x105 0 0
      (got m (inDom { state := k })).has 8 0x105 m ∧ (got m (inDom { state := k })).ngl.dom.state = k) ∧
    (let m := ctrlIn 0x106 0 0
     (got m).has 8 0x106 m) ∧
    (let m := ctrlIn 0x107 0 0
     let s := got m (inDom { state := .root })
     s.has 8 0x107 m ∧ s.memberTbl.find? (fun e => e.2 = m.src) = some (1, 9) ∧ s.reachable (put (s.cf (rDom 7) 43 7) 7 37 + 128 * 1) = true) := by
  unfold State.has
  decide +kernel

/-- Pull 7 busy: table 5 version 2 of device 9, rows 0 to 3. -/
def pulling (p : PullState := .busy) (l : List (Nat × Word) := []) : State :=
  cfgd { up with ngl := { up.ngl with dom := { pull := [(7, { state := p, dev := 9, table := 5, version := 2, count := 4, dest := 0x50000 })] } } } l

def chunkIn (n : Nat) : RxMsg :=
  msgIn 6 (leBytes 2 5 ++ leBytes 2 0 ++ leBytes 4 2 ++ leBytes 4 0 ++ leBytes 4 n ++ leBytes 4 8 ++ leBytes 4 0 ++ List.replicate (8 * n) 1)

/-- A table of 16 rows of two F16 values at 0x60000, its descriptor at 0x70000, and a request of its rows. -/
def tblRec : List Byte :=
  leBytes 4 16 ++ leBytes 2 2 ++ leBytes 1 2 ++ leBytes 1 0 ++ leBytes 4 8 ++ leBytes 30 0 ++ leBytes 2 1 ++ leBytes 20 0
def tabled (m : RxMsg) : State :=
  memd (cfgd { got m with gth := { ver := [(4 * 5, { state := .current, version := 2, base := 0x60000 })] } }
    [(bGTH + 0x10, BitVec.ofNat 64 (put 6 44 13 + 0x70000))]) (0x70000 + 64 * 5) tblRec

def pullReq (t : Nat) : RxMsg :=
  msgIn 8 (leBytes 2 0x108 ++ leBytes 6 0 ++ leBytes 2 t ++ leBytes 2 0 ++ leBytes 4 2 ++ leBytes 4 0 ++ leBytes 4 4)

theorem meets_TablePulls :
    (pulling.wgate .host (bNGL + 0xB000 + 0x20 * 7 + 0x18) = true ∧ (pulling.pull 7).state = .busy ∧ (up.pull 7).state ≠ .busy) ∧
    (wfld (up.reg (bNGL + 0xB000 + 0x20 * 7 + 8)) 31 0 = 0) ∧
    (wfld ((up.setReg (bNGL + 0xB000 + 0x20 * 7 + 8) 0xFFFFFFFF).reg (bNGL + 0xB000 + 0x20 * 7 + 8)) 31 0 ≠ 0) ∧
    (let m := chunkIn 4
     let s := got m pulling
     let u := (s.popMsg m).bump (fabCtr 7) 1
     s.has 6 0 m ∧ (u.pullFor m 5 2 0 4).map Prod.fst = some 7 ∧ m.poison = false ∧ u.accErr 0 ((0x50000 + 0 : Nat) : Int) 32 = none ∧
       (((got m).popMsg m).bump (fabCtr 7) 1).pullFor m 5 2 0 4 = none) ∧
    (let m := msgIn 8 (leBytes 2 0x109 ++ leBytes 6 0 ++ leBytes 2 5 ++ leBytes 1 3 ++ leBytes 1 0 ++ leBytes 4 2 ++ leBytes 4 0 ++ leBytes 4 0)
     (got m).has 8 0x109 m ∧ ((got m).popMsg m).pullFor m (m.fld 0 2) (m.fld 4 4) (m.fld 8 4) 0 = none ∧
       (((got m pulling).popMsg m).pullFor m (m.fld 0 2) (m.fld 4 4) (m.fld 8 4) 0).isSome = true) ∧
    ((got (pullReq 5)).has 8 0x108 (pullReq 5) ∧ (got (pullReq 5)).heldBase 5 2 = none) := by
  unfold State.has
  decide +kernel

def isRead (x : Except Nat (List Byte)) (b : List Byte) : Bool := match x with | .ok c => decide (c = b) | .error _ => false

theorem meets_TablePulls_rows :
    let m := pullReq 5
    let u := (tabled m).popMsg m
    (tabled m).has 8 0x108 m ∧ isRead (u.issueRead (u.tblDescAddr u.gen (m.fld 0 2 % 4096))) tblRec = true ∧ tblRec.length = 64 ∧
      tblBad tblRec = false ∧ m.fld 0 2 % 4096 < u.cf (bGTH + 0x10) 56 44 ∧
      isOk (u.pullRows (TblDesc.ofBytes tblRec) true (m.fld 0 2 % 4096) (m.fld 4 4) (m.fld 8 4) (m.fld 12 4)) = true := by
  unfold State.has
  decide +kernel

/-! ### Statements: the host, faults, self-test, trace and debug -/

def hifd (h : Hif) : State := { up with hif := h }

theorem meets_HostLink_link :
    up.hif.linkUp = true ∧ up.hostBar = true ∧ up.configRetry = false ∧
    (let s : State := { up with boot := { up.boot with state := .reset } }; s.hif.linkUp = true ∧ s.configRetry = true) := by decide +kernel

theorem meets_HostLink_window :
    (let s := hifd { up.hif with d3hot := true }; s.domOn 1 = true ∧ s.hif.linkUp = true ∧ s.hif.d3hot = true) ∧
    (let s := hifd { up.hif with bar2Log2 := 28, cxlMem := true, hdmCommitted := true, hdmBase := 0x1000, hdmSize := 0x10000 }
     s.domOn 1 = true ∧ s.hif.d3hot = false ∧ s.hif.mse = true ∧ s.hif.bar2Log2 ≠ 0 ∧ 2 ^ 28 - 1 < 2 ^ s.hif.bar2Log2 ∧
       (put (s.cf (bHIF + 0x20) 43 28) 28 16 + (2 ^ 28 - 64)) / 64 = (put (s.cf (bHIF + 0x20) 43 28) 28 16 + (2 ^ 28 - 64) + 64 - 1) / 64 ∧
       region (put (s.cf (bHIF + 0x20) 43 28) 28 16 + (2 ^ 28 - 64)) = some (.hbm 0) ∧ s.dieReady 0 = true ∧
       State.reset.dieReady 0 = false ∧ s.hif.cxlMem = true ∧ s.hif.hdmCommitted = true ∧ 0xFFFF < s.hif.hdmSize) := by decide +kernel

theorem meets_HostLink_reads :
    (let s := hifd { up.hif with reads := [(3, some { addr := 0x1000, len := 4, task := none })] }
     s.hif.linkUp = true ∧ (tget none s.hif.reads 3).isSome = true ∧ 4 ≤ ([1, 2, 3, 4] : List Byte).length) ∧ tget none up.hif.reads 3 = none := by
  decide +kernel

/-- A part with CXL.cache and one line, pending request or eviction. -/
def cached (cc : Tbl (Option CcLine)) (pend : Tbl (Option CcPend)) (ev : List CcEvict) (fl : Bool := false) : State :=
  hifd { up.hif with cxlCache := true, cc := cc, ccPend := pend, evict := ev, flushing := fl }

theorem meets_HostCacheAndDoe :
    (let s := cached [(7, some { st := .modified, data := List.replicate 64 1 })] [] [] true
     s.hif.cxlCache = true ∧ s.hif.linkUp = true ∧ s.domOn 1 = true ∧ s.hif.evict.find? (fun e => e.line = 7 && !e.forwarded) = none ∧
       tget none s.hif.ccPend 7 = none ∧ (s.ccLine 7).map CcLine.st = some .modified ∧ s.hif.flushing = true) ∧
    ((cached [] [] [{ line := 7, data := [] }]).hif.evict.find? (fun e => e.line = 7 && !e.forwarded)).isSome = true ∧
    (∀ b ∈ [true, false], let s := cached [] [(7, some { own := false, snooped := b })] []
      s.hif.evict.find? (fun e => e.line = 7 && !e.forwarded) = none ∧ tget none s.hif.ccPend 7 = some { own := false, snooped := b } ∧
        (s.ccInstall 7 { st := .shared, data := List.replicate 64 0 }).isSome = true ∧ (List.replicate 64 (0 : Byte)).length = 64) ∧
    tget none up.hif.ccPend 7 = none ∧ up.wgate .host (bHIF + 0x200) = true ∧ State.reset.wgate .debug (bHIF + 0x200) = false ∧
    up.hif.flushing = false ∧ up.configRetry = false ∧ (List.replicate 4096 (0 : Byte)).length ≤ 4096 ∧
    (hifd { up.hif with doe := some [0x10, 0x84, 0, 0] }).hif.doe = some [0x10, 0x84, 0, 0] ∧
    (let m := msgIn 8 (leBytes 2 2 ++ leBytes 6 0 ++ leBytes 4 4 ++ leBytes 4 0 ++ leBytes 4 0x8410)
     (got m).has 8 2 m) := by
  unfold State.has
  decide +kernel

/-- A cache whose set for line 7 is full of modified lines, with no room for another eviction. -/
def ccBusy : State :=
  cached ((List.range 16).map (fun i => (4096 * (i + 1) + 7, some { st := .modified, data := [] }))) [(7, some { own := false })]
    ((List.range 32).map (fun i => { line := 100 + i, data := [] }))

theorem ccBusy_ways : 16 ≤ (ccBusy.ccSet 7).length ∧ (ccBusy.ccSet 7).all (fun e => decide (e.2.st = .modified)) = true ∧ 32 ≤ ccBusy.hif.evict.length := by
  decide +kernel

theorem meets_HostCacheAndDoe_full : ccBusy.ccInstall 7 { st := .shared, data := [] } = none := by
  obtain ⟨h, a, e⟩ := ccBusy_ways
  have r : ccBusy.ccRoom 7 = none := by
    unfold State.ccRoom
    simp only [show ¬ (ccBusy.ccSet 7).length < 16 by omega, if_false]
    split
    · rfl
    · rename_i v x hx
      have m := List.all_eq_true.mp a _ (List.mem_of_getElem? hx)
      simp only [decide_eq_true_eq] at m
      rw [if_pos m, if_pos (by simpa using e)]
  unfold State.ccInstall
  rw [r]
  rfl

def faulty (u : Nat) (x : FUnit) : State := { up with flt := { up.flt with unit := [(u, x)] } }

theorem meets_FaultRows :
    (∀ u ∈ [uTEL, 53, uLDG, uStack 7], up.mainRunning = true ∧ unitAssigned u = true ∧ up.domOn (unitDom u) = true ∧
      (up.funit u).state = .healthy ∧ (up.funit u).inj = false) ∧
    (unitClass uTEL = some 0 ∧ unitClass 53 = some 1 ∧ unitClass uLDG = some 2 ∧ unitClass (uStack 7) = some 3) ∧
    ((faulty 53 { state := .fenced }).funit 53).state ≠ .healthy ∧
    (let s := job 9 1 53 []
     s.running = true ∧ s.instOk 53 = true ∧ s.tasksOn 53 ≠ [] ∧ up.tasksOn 53 = []) ∧
    (∀ e ∈ [Eff.report { ticket := 0, stage := 0, fault := false, cause := 0, damage := 0 }, .msg { dst := 0, toEp := false, type := 0, payload := [] }],
      ({ up with flt := { up.flt with gate := [(44, e)] } } : State).flt.gate = (44, e) :: []) ∧
    (∀ k ∈ [UnitState.fenced, .recovering, .permanent], ((faulty 0xF6 { state := k }).funit 0xF6).state = k ∧ 0xF6 ∉ (faulty 0xF6 { state := k }).tel.units ∧
      unitAssigned 0xF6 = true) ∧
    up.wgate .host (bFLT + 0x60) = true ∧ up.wgate .debug (bFLT + 0x68) = true ∧ up.wgate .debug (bFLT + 0x70) = true ∧ unitAssigned 0x36 = false ∧
    (let s : State := { up with flt := { up.flt with state := .c2Recovery }, ldg := { up.ldg with retValid := false } }
     s.flt.state = .c2Recovery ∧ s.journalIntact = false) := by decide +kernel

/-- A part under test. -/
def testing (ph : BistPhase) (scope : List Nat := [53]) (lane : Option Nat := none) (s : State := up) : State :=
  { s with tel := { s.tel with bistBusy := true, bistPhase := ph, scope := scope, bistLane := lane, inelig := scope } }

theorem meets_TestAndTrace :
    (up.wgate .host rBist = true ∧ up.tel.bistBusy = false ∧ (testing .test).tel.bistBusy = true) ∧
    (0x35 < 0x36 ∧ (faulty 0x35 { state := .fenced }).fencedU 0x35 = true ∧ up.fencedU 0x35 = false ∧ up.domOn (bayDom 0x35) = true) ∧
    (∀ n ∈ [0x4F, 0x58], up.fencedU n = false ∧ ∀ i, i < 54 → uIsland (bayIsland i) = n → up.fencedU i = false ∧ up.domOn (bayDom i) = true) ∧
    (∀ n ∈ [0, 8, 16, 23], up.domOn (if n < 8 then 4 else if n < 16 then 5 else 2) = true) ∧
    (∀ ph ∈ [BistPhase.drain, .wait, .test], (testing ph).tel.bistBusy = true ∧ (testing ph).tel.bistPhase = ph ∧ (∀ n ∈ (testing ph).tel.scope, (testing ph).tasksOn n = []) ∧
      (∃ n ∈ (testing ph [53] none (job 9 1 53 [])).tel.scope, (testing ph [53] none (job 9 1 53 [])).tasksOn n ≠ [])) ∧
    53 ∈ (testing .test).tel.units ∧
    (let s := testing .test [] (some 23)
     s.tel.bistLane = some 23 ∧ (((s.sliceSwap 23 0 0).lane 23).swapDue = false ∨ (s.sliceSwap 23 0 0).frozen 23 = true)) ∧
    up.tel.bistLane = none ∧
    (let s : State := { up with tel := { up.tel with queue := [{ time := 0, type := 1, unit := 0, data := [] }] } }
     s.tel.queue = { time := 0, type := 1, unit := 0, data := [] } :: [] ∧ s.tel.full = false ∧ s.tel.frozen = false) ∧
    up.tel.queue = [] ∧ up.wgate .host (bTEL + 0x118) = true ∧ State.reset.wgate .host (bTEL + 0x118) = false ∧ up.wgate .debug (bTEL + 0x108) = true ∧
    ({ up with tel := { up.tel with full := true } } : State).tel.full = true := by decide +kernel

theorem meets_DebugRows :
    up.portRuns = true ∧ up.dbgOpen = true ∧
    (∀ a ∈ [0, barSize - 8], a < barSize ∧ a % 8 = 0 ∧ a % 4 = 0) ∧ (2 % 4 ≠ 0 ∨ barSize ≤ 2) ∧ (barSize % 4 ≠ 0 ∨ barSize ≤ barSize) ∧
    (0x3FFFFFFFC0 % 64 = 0 ∧ region 0x3FFFFFFFC0 = some (.hbm 1) ∧ up.dieReady 1 = true ∧ State.reset.dieReady 1 = false) ∧
    (let s : State := { up with pins := { up.pins with straps := some {} } }; s.portRuns = true ∧ s.dbgOpen = false) ∧
    up.dbg.waiting = none ∧ ({ up with dbg := { up.dbg with waiting := some 5 } } : State).dbg.waiting = some 5 ∧
    up.wgate .debug (bDBG + 0x10) = true ∧ up.wgate .debug (bDBG + 0x1000) = true ∧
    (let s : State := { up with dbg := { up.dbg with halt := [(53, .halting)] } }
     s.haltOf 53 = .halting ∧ (tget {} s.str.inst 53).cur = none ∧ up.haltOf 53 ≠ .halting) ∧
    (let s := job 9 1 53 []
     let s : State := { s with str := { s.str with inst := [(53, { cur := some 0 })] } }
     (tget {} s.str.inst 53).cur = some 0 ∧ s.worksOn 53 0 = true) ∧
    up.railUp = true ∧ ({ up with pins := { up.pins with mainPg := false } } : State).railUp = false := by decide +kernel

theorem meets_DebugRows_memory : up.canonical ∧ (List.replicate 64 (5 : Byte)).length = 64 := by
  refine ⟨?_, rfl⟩
  simp [State.canonical, up, Mem.wf, tsorted, twf]

/-! ### WellFormed refuses an operand outside its range, check by check -/

theorem refuses_access : (Instr.rcRead .host (2 ^ 26) 4).wf = false ∧ (Instr.rcRead .host 0 2).wf = false ∧ (Instr.rcRead .host (2 ^ 26 - 8) 8).wf = true := by decide
theorem refuses_value : (Instr.registerWrite .host 0 4 (2 ^ 32)).wf = false ∧ (Instr.registerWrite .host 0 8 (2 ^ 32)).wf = true := by decide
theorem refuses_island : (Instr.droop 0).wf = false ∧ (Instr.droop 26).wf = false ∧ (Instr.droop 25).wf = true := by decide
theorem refuses_lane : (Instr.losAssert 24).wf = false ∧ (Instr.losAssert 23).wf = true := by decide
theorem refuses_domain : (Instr.domainPowerOnDone 0).wf = false ∧ (Instr.domainPowerOnDone 15).wf = false ∧ (Instr.domainPowerOnDone 14).wf = true := by decide
theorem refuses_instance : (Instr.watchdogExpiry 54).wf = false ∧ (Instr.watchdogExpiry 53).wf = true := by decide
theorem refuses_queue : (Instr.commandFetch 4096).wf = false ∧ (Instr.commandFetch 4095).wf = true := by decide
theorem refuses_pipeline : (Instr.layoutRead 256).wf = false ∧ (Instr.layoutRead 255).wf = true := by decide
theorem refuses_port : (Instr.badFlit 16).wf = false ∧ (Instr.badFlit 15).wf = true := by decide
theorem refuses_ack : (Instr.idleFlitRx 0 (some 4096) [0, 0, 0, 0]).wf = false ∧ (Instr.idleFlitRx 0 none [0]).wf = false ∧
    (Instr.idleFlitRx 0 none [0, 0, 0, 0]).wf = true := by decide
theorem refuses_unit : (Instr.recoverySelfTestDone 4096 true).wf = false ∧ (Instr.recoverySelfTestDone 4095 true).wf = true := by decide
theorem refuses_target : (Instr.roceAckTimeout 64 0).wf = false ∧ (Instr.roceAckTimeout 63 2).wf = false ∧ (Instr.roceAckTimeout 63 1).wf = true := by decide
theorem refuses_memPort : (Instr.transferGrant (.hbm 8 0)).wf = false ∧ (Instr.transferGrant (.bay 54)).wf = false ∧ (Instr.transferGrant (.ngl 0 4)).wf = false ∧
    (Instr.transferGrant (.hbm 7 63)).wf = true := by decide

/-! ### One step each, with results the manual's worked examples give -/

/-- The state a command leaves. -/
def after (c : Instr) (s : State) : State := match exec c s with | .next t => t | _ => s

/-- The answer of a 64-bit register read on the host path. -/
def reads (s : State) (a v : Nat) : Bool := (s.barRead .host a 8).2 = some v

/-- Chapter 29, example 1: the identity, the capabilities, and an index beyond the range of TEL_STALL. -/
theorem test_register_reads : reads up 0x10 0x0041204202602082 = true ∧ reads (up.setReg 0x26103E0 7) 0x26103E0 7 = true ∧ reads up 0x2611EE0 0 = true := by
  decide +kernel

/-- Chapter 31, example 1: NVC_BOOT_STAT after a start from copy A. -/
theorem test_boot_stat :
    reads { up with boot := { up.boot with state := .running, copy := 1, cal := 1, nvmMode := 1, aRes := 1 } } 0x600000 0x55401000 = true := by decide +kernel

/-- Chapter 3, example 2: the loss-of-signal threshold at 180 mV and, raised to its floor, at 100 mV. -/
theorem test_los_threshold :
    (∀ e ∈ [(90, 67), (50, 40)],
      (cfgd { up with clk := { up.clk with lane := [(5, { amp := e.1 })] } } [(0x204000 + 0x40 * 5, BitVec.ofNat 64 (put 40 24 8 + put 120 16 8 + put 6 12 4 + put 1 2 1))]).losThreshold 5
        = e.2) := by decide +kernel

/-- Chapter 8, example 1: stack and pseudo-channel of an address. -/
theorem test_hbm_decode : stackOf 0x2A34567E40 = 7 ∧ channelOf 0x2A34567E40 = 15 ∧ region 0x2A34567E40 = some (.hbm 1) := by decide

/-- Chapter 9, example 1: the third register of GLB_Q_CFG_40 and the two doorbells. -/
def queue40 : State :=
  (cfgd up [(rQ 40 + 16, 0x9CC14064A587F800)]).setQueue 40 { state := .active, head := 0xFFFFFF00, tail := 0xFFFFFF80, issuePt := 0xFFFFFF00 }

theorem test_doorbell : rQ 40 + 16 = 0x10510 ∧ queue40.ringSize 40 = 1024 ∧ queue40.cplSize 0 40 = 2048 ∧
    ((after (.glbQDb .host 40 0x40) queue40).queue 40).tail = 0x40 ∧ ((after (.glbQDb .host 40 0x400) queue40).queue 40).tail = 0xFFFFFF80 := by decide +kernel

/-- Chapter 9, example 1: a NOP with an input link has a good header for kind 3. -/
theorem test_nop_header : headerBad 3 ([0x30030000, 7, 0x8064, 0x01000000] ++ List.replicate 12 0) = [] ∧
    headerBad 3 ([0x40030000, 7, 0x8064, 0x01000000] ++ List.replicate 12 0) = [0] := by decide

/-- Chapter 10, example 1: a bottom-up tile is four merged transfers. -/
theorem test_transfers :
    ({ start := 0x100C00, offset := 0x4000, elem := 64, strides := [64, -1024, 0, 0, 0], counts := [4, 4, 1, 1, 1] } : Desc).transfers.map (fun t => (t.addr, t.len, t.pieces)) =
      [(0x104C00, 256, 4), (0x104800, 256, 4), (0x104400, 256, 4), (0x104000, 256, 4)] := by decide +kernel

/-- Chapter 11, example 1: the shape check of a layout copy fails with t0 = 1,024 and passes with 512; the output is alias-free. -/
def copyClause (w12 : Nat) : List Nat := List.replicate 12 0 ++ [w12, 0x01010100, 0x0008D105, 0x00004000]
def copyOk : SOk :=
  { descs := [], ext := [3000, 4096, 1, 1, 1], info := { bins := fun _ t => [prod t * 2], bouts := fun _ t => [prod t * 2] } }

theorem test_shape_check :
    (let s := cfgd up [(bSTR + 0x3000 + 8 * kindBay 9, 256)]
     s.shapeCheck 0 0 9 (copyClause 0x02000400) copyOk 0 = some (stTILE_SHAPE, 1, 4194304) ∧ s.shapeCheck 0 0 9 (copyClause 0x02000200) copyOk 0 = none ∧
       clauseBad (copyClause 0x02000200) = []) ∧
    ({ start := 0, elem := 2, strides := [2, 6000], counts := [3000, 4096], write := true } : Desc).aliasFree = true := by decide +kernel

/-- Chapter 12, example 1: shards and positions of batch 7. -/
theorem test_schedule :
    (List.range 6).map (fun j => (schedShard [5, 5, 9, 9, 5, 9, 9, 9, 5, 5, 9, 5] 6 7 j, schedPos [5, 5, 9, 9, 5, 9, 9, 9, 5, 5, 9, 5] 6 7 j)) =
      [(9, 21), (9, 22), (5, 21), (5, 22), (9, 23), (5, 23)] := by decide +kernel

/-- Chapter 13, example 1: four Reads cover the record. -/
theorem test_read_count :
    (let m : List Byte := List.replicate 8 0 ++ leBytes 8 0x320000E00 ++ leBytes 4 476416 ++ List.replicate 44 0
     ({ task := 0, idx := 0, inst := 0, pipe := 0, entry := [], man := m } : IngRec).readCount 4096 = 4) := by decide +kernel

/-- Chapters 14, 15 and 19: damage_bp. -/
theorem test_damage : damageBp 7680 614400 = 125 ∧ damageBp 391680 614400 = 6375 ∧ damageBp 3 8 = 3750 ∧ damageBp 1 3 = 3334 ∧ damageBp 5 520 = 97 := by decide

/-- Chapters 16 and 19: conversion to BF16, with ties to even. -/
theorem test_bf16 : outConv 3 0x3E4CCCCD = 0x3E4D ∧ outConv 3 0xBD23D70A = 0xBD24 ∧ outConv 3 0xBE8F5C29 = 0xBE8F ∧
    outConv 3 0x40F00000 = 0x40F0 ∧ outConv 3 0x433C8000 = 0x433C := by decide +kernel

/-- Chapter 19, example 1: the weighted pool of three Q8 rows. -/
def q8Row (scale offset q0 q1 : Nat) : List Nat :=
  ({ TblDesc.ofBytes (leBytes 64 0) with dim := 2 } : TblDesc).vals (leBytes 4 scale ++ leBytes 4 offset ++ leBytes 1 q0 ++ leBytes 1 q1)

theorem test_pool :
    q8Row 0x3E000000 0x3F000000 20 0 = [0x40400000, 0x3F000000] ∧ q8Row 0x3E800000 0xBF800000 12 255 = [0x40000000, 0x427B0000] ∧
    fAdd (fAdd (fMul 0x3F000000 0x40400000) 0x40000000) (fMul 0x40000000 0x40000000) = 0x40F00000 ∧
    fAdd (fAdd (fMul 0x3F000000 0x3F000000) 0x427B0000) (fMul 0x40000000 0x427B0000) = 0x433C8000 := by decide +kernel

/-- Chapter 19: addresses of a replicated and of a sharded row. -/
theorem test_row_address :
    ({ TblDesc.ofBytes (leBytes 64 0) with rowStride := 128 } : TblDesc).rowAddr 0x2A00000000 6860028 0 = 0x2A34567E00 ∧
    ({ TblDesc.ofBytes (leBytes 64 0) with rowStride := 256, flags := 1, shardRows := 1048576 } : TblDesc).rowAddr 0 50000000 5 = 0x5AF08000 := by decide +kernel

/-- Chapter 18, example 1: the key words of a draw. -/
theorem test_azimuth_key : azKey 0xFEDCBA9876543210 0x0123456789ABCDEF 0x000200050000038F 34 =
    [0x76543210, 0xFEDCBA98, 0x89ABCDEF, 0x01234567, 0x0000038F, 0x00020005, 34, 0x415A4D31] := by decide +kernel

/-- Chapter 21, example 1: the packing, the pages and the build buffer. -/
def packField : PakField := { packed := true, tokBytes := 4, maxRows := 4, size := 2048, rowLen := 2048, padId := 0 }

theorem test_packing :
    packRows 2048 4 [] [900, 1300, 700, 400, 1500, 300, 120] =
      ([some (0, 0), some (1, 0), some (0, 900), some (0, 1600), some (2, 0), some (1, 1300), some (1, 1600)], [2000, 1720, 1500], 0) ∧
    pageCount [packField] 8 = 21 ∧ trailerMax [packField] 8 = 280 ∧ 4096 * pageCount [packField] 8 + 8 * partOff [packField] 1 = 152064 := by decide +kernel

/-- Chapter 22, example 1: boundary 300 of a group of 33,333,333 ns. -/
theorem test_boundary : (cfgd up [(rGrp 0 + 0x10, 33333333)]).boundary 0 300 = 9999999900 := by decide +kernel

/-- Chapter 23, example 1: AUTO takes the exchange path for a transpose of 2-byte elements. -/
theorem test_copy_path : copyExchange (List.replicate 5 0 ++ [0x8D030000]) 2 2 = true := by decide

/-- Chapter 23, example 2: scattered rows with acc_op 0 and with acc_op 3. -/
theorem test_acc : accBytes 3 (accBytes 3 (accBytes 3 (leBytes 4 0x3F000000) (leBytes 4 0x3F800000)) (leBytes 4 0x40400000)) (leBytes 4 0x40800000) = leBytes 4 0x41080000 ∧
    accBytes 0 (leBytes 4 0x3F000000) (leBytes 4 0x40800000) = leBytes 4 0x40800000 := by decide +kernel

/-- Chapter 24, example 1: a NAK for flit 4,094 replays from the oldest of 21 flits kept. -/
theorem test_nak_replay :
    (let x : Port := { state := .active, retry := (List.range 21).map (fun i => { seq := (4094 + i) % 4096, vc := 1, data := [] }) }
     ((after (.nakRx 15 4094 none [0, 0, 0, 0]) (porting x)).port 15).replay = some 0 ∧
       ((after (.nakRx 15 4094 none [0, 0, 0, 0]) (porting x)).port 15).retry.length = 21) := by decide +kernel

/-- Chapter 25, example 1: with five members a fourth makes the quorum. -/
theorem test_quorum : (inDom { acks := [1, 2, 3] } [(rDom 1, BitVec.ofNat 64 (put 5 52 12))]).quorum = true ∧
    (inDom { acks := [1] } [(rDom 1, BitVec.ofNat 64 (put 5 52 12))]).quorum = false := by decide +kernel

/-- Chapter 26, example 1: a BAR2 write at an offset of a window at the top of HBM. -/
theorem test_window : (after (.bar2Access true 0x12345678 [0xAB] 1 false)
      (cfgd (hifd { up.hif with bar2Log2 := 34 }) [(bHIF + 0x20, 0x2200003C00000000)])).mem.rd 0x3C12345678 = 0xAB := by decide +kernel

/-- Chapter 28, example 1: an island test of LEX waits while every LEX instance is in it. -/
theorem test_island_test : (after (.islandTest .host 0x52) up).tel.bistPhase = .wait ∧ (after (.instanceTest .host 2) up).tel.bistPhase = .drain := by decide +kernel

/-- Chapter 6, example 1: check 0x0104 on the two timeouts, before and after the change. -/
def timeouts (ms : Nat) : Tbl Word := [(bING + 0x10, BitVec.ofNat 64 (put 10 11 5 + put 3 8 3)), (bING + 0x18, BitVec.ofNat 64 (put ms 16 16))]
theorem test_timeout_pair : toRoce (timeouts 30) = 16777216 ∧ toFabric (timeouts 30) = 30000000 ∧ ¬ (toFabric (timeouts 30) ≥ 2 * toRoce (timeouts 30)) ∧
    toFabric (timeouts 34) ≥ 2 * toRoce (timeouts 34) := by decide +kernel

/-- The check value of CRC-32 (R713). -/
theorem test_crc32 : crc32 (["1", "2", "3", "4", "5", "6", "7", "8", "9"].map (fun c => BitVec.ofNat 8 (c.toList.headD 'a').toNat)) = 0xCBF43926 := by decide +kernel
end Sys2Proof.Tests
end

section
/-! The accesses of BAR0 (R9, R10, R620): what a register write and a register read do, for each of the ways they can go. -/

namespace Sys2Proof.Machine

theorem aligned_iff {off size : Nat} : aligned off size = true ↔ (size = 4 ∨ size = 8) ∧ off % size = 0 := by
  simp [aligned]

/-- R620: on a path that is up there is nothing unclaimed, for the host's is up only with its BAR enabled. -/
theorem State.unclaimed_of_pathUp {s : State} {p : Path} (h : s.pathUp p = true) : s.unclaimed p = false := by
  cases p with
  | host =>
    have hbar : s.hostBar = true := by simpa using (Bool.and_eq_true_iff.mp h).2
    simp [State.unclaimed, hbar]
  | debug | boot | vault => rfl

theorem State.unclaimed_of_ne_host {s : State} {p : Path} (h : p ≠ .host) : s.unclaimed p = false := by
  simp [State.unclaimed, h]

theorem exec_registerWrite (p : Path) (off size v : Nat) (s : State) :
    exec (.registerWrite p off size v) s = execRegisterWrite p off size v s := rfl

theorem exec_rcRead (p : Path) (off size : Nat) (s : State) :
    exec (.rcRead p off size) s = .next (s.pathRead p off size) := rfl

section Claimed
variable {p : Path} {off size v : Nat} {s t : State} (hoff : off < barSize) (hclaim : s.unclaimed p = false)
include hoff hclaim

theorem runs_registerWrite_of_aligned (ha : aligned off size = true) :
    Runs (.registerWrite p off size v) s (s.barWrite p off size v) := by
  simp [Runs, exec_registerWrite, execRegisterWrite, Nat.not_le.mpr hoff, hclaim, ha]

/-- R9: a rejected write does nothing, but that the host's is answered. -/
theorem runs_registerWrite_of_not_aligned (ha : ¬ aligned off size = true) :
    Runs (.registerWrite p off size v) s (if p = .host && s.pathUp p then s.emit .abort else s) := by
  simp [Runs, exec_registerWrite, execRegisterWrite, Nat.not_le.mpr hoff, hclaim, ha, apply_ite Host.Outcome.next]

theorem runs_rcRead_of_answered (hup : s.pathUp p = true) (ha : aligned off size = true)
    (hr : s.barRead p off size = (t, some v)) : Runs (.rcRead p off size) s (t.emit (.read p size v)) := by
  simp [Runs, exec_rcRead, State.pathRead, Nat.not_le.mpr hoff, hclaim, hup, ha, hr]

theorem runs_rcRead_of_held (hup : s.pathUp p = true) (ha : aligned off size = true)
    (hr : s.barRead p off size = (t, none)) : Runs (.rcRead p off size) s t := by
  simp [Runs, exec_rcRead, State.pathRead, Nat.not_le.mpr hoff, hclaim, hup, ha, hr]

/-- R9: a rejected read does nothing, but that the host's is answered. -/
theorem runs_rcRead_of_not_aligned (ha : ¬ aligned off size = true) :
    Runs (.rcRead p off size) s (if p = .host && s.pathUp p then s.emit .abort else s) := by
  cases hup : s.pathUp p <;> simp [Runs, exec_rcRead, State.pathRead, Nat.not_le.mpr hoff, hclaim, hup, ha]

end Claimed

/-- Settles O8: a path that is up claims its accesses, and each access then goes one of the ways above, as it is aligned
or not. -/
theorem accessRule : Obligations.AccessRule := by
  intro off size v s hoff hup
  have hclaim := State.unclaimed_of_pathUp hup
  refine ⟨fun hbad => ?_, fun hsize hmod => ?_, fun p hp hbad => ?_⟩
  · have ha := mt aligned_iff.mp hbad
    exact ⟨by simpa [hup] using runs_registerWrite_of_not_aligned (v := v) hoff hclaim ha,
      by simpa [hup] using runs_rcRead_of_not_aligned hoff hclaim ha⟩
  · have ha := aligned_iff.mpr ⟨hsize, hmod⟩
    exact ⟨runs_registerWrite_of_aligned hoff hclaim ha, fun _ _ => runs_rcRead_of_answered hoff hclaim hup ha,
      fun _ => runs_rcRead_of_held hoff hclaim hup ha⟩
  · have hclaim := State.unclaimed_of_ne_host (s := s) hp
    have ha := mt aligned_iff.mp hbad
    exact ⟨by simpa [hp] using runs_registerWrite_of_not_aligned (v := v) hoff hclaim ha,
      by simpa [hp] using runs_rcRead_of_not_aligned hoff hclaim ha⟩

end Sys2Proof.Machine
end

section
/-! A busy staging set (R140): while a commit runs, a staged write, a commit and a discard only set their flag. -/

namespace Sys2Proof.Machine

/-! ### A flag set in a register -/

theorem wbit_eq_getLsbD (w : Word) (k : Nat) : wbit w k = w.getLsbD k := by
  rw [wbit, bit, fld, Nat.add_sub_cancel_left, Nat.pow_one, ← BitVec.testBit_toNat, Nat.testBit_eq_decide_div_mod_eq]

theorem wbit_or_two_pow (w : Word) {n : Nat} (hn : n < 64) (k : Nat) :
    wbit (w ||| BitVec.ofNat 64 (2 ^ n)) k = (decide (k = n) || wbit w k) := by
  have hflag : (BitVec.ofNat 64 (2 ^ n)).getLsbD k = decide (k = n) := by
    rw [BitVec.getLsbD_ofNat, Nat.testBit_two_pow, ← Bool.decide_and, decide_eq_decide]
    omega
  rw [wbit_eq_getLsbD, wbit_eq_getLsbD, BitVec.getLsbD_or, hflag, Bool.or_comm]

/-- Away from the reset value the register table need not be in key order (compare `State.reg_setReg`). -/
theorem State.reg_setReg_of_ne_reset (s : State) {a : Nat} {v : Word} (h : v ≠ regReset a) : (s.setReg a v).reg a = v := by
  simpa only [State.setReg, State.reg, tset, if_neg h] using tget_tins_same s.regs a v

theorem State.wbit_reg_setBits (s : State) {a n : Nat} (hn : n < 64) (hreset : wbit (regReset a) n = false) (k : Nat) :
    wbit ((s.setBits a (2 ^ n)).reg a) k = (decide (k = n) || wbit (s.reg a) k) := by
  have hne : s.reg a ||| BitVec.ofNat 64 (2 ^ n) ≠ regReset a := fun heq => by
    have hset := wbit_or_two_pow (s.reg a) hn n
    rw [heq, hreset, decide_eq_true rfl] at hset
    cases hset
  rw [State.setBits, State.reg_setReg_of_ne_reset s hne, wbit_or_two_pow _ hn]

/-! ### The three writes to a busy set -/

theorem exec_stagedWrite (p : Path) (off v : Nat) (s : State) : exec (.stagedWrite p off v) s = execStagedWrite p off v s := rfl

theorem exec_stgCommit (p : Path) (s : State) : exec (.stgCommit p) s = execStgCommit p s := rfl

theorem exec_stgDiscard (p : Path) (s : State) : exec (.stgDiscard p) s = execStgDiscard p s := rfl

section Busy
variable {s : State} (hbusy : s.stg.state ≠ .idle)
include hbusy

theorem State.stageHalf_of_busy {p : Path} {off : Nat} (v : Nat) (hp : p ≠ .vault) (hmask : stMask off ≠ 0)
    (hfix : stFixed off = false) : s.stageHalf p off v = s.setBits rStgStatus fLate := by
  simp [State.stageHalf, hbusy, hp, hmask, hfix]

theorem State.commitGo_of_busy (p : Path) : s.commitGo p = s.setBits rStgStatus fDropped := if_pos hbusy

theorem State.discardGo_of_busy (p : Path) : s.discardGo p = s.setBits rStgStatus fDropped := if_pos hbusy

theorem runs_stagedWrite_of_busy {p : Path} {off : Nat} (v : Nat) (hoff : off % 4 = 0)
    (hgate : s.wgate p (off - off % 8) = true) (hp : p ≠ .vault) (hmask : stMask off ≠ 0) (hfix : stFixed off = false) :
    Runs (.stagedWrite p off v) s (s.setBits rStgStatus fLate) := by
  simp [Runs, exec_stagedWrite, execStagedWrite, hoff, hgate, State.stageHalf_of_busy hbusy v hp hmask hfix]

theorem runs_stgCommit_of_busy {p : Path} (hgate : s.wgate p bSTG = true) :
    Runs (.stgCommit p) s (s.setBits rStgStatus fDropped) := by
  simp [Runs, exec_stgCommit, execStgCommit, hgate, State.commitGo_of_busy hbusy]

theorem runs_stgDiscard_of_busy {p : Path} (hgate : s.wgate p (bSTG + 8) = true) :
    Runs (.stgDiscard p) s (s.setBits rStgStatus fDropped) := by
  simp [Runs, exec_stgDiscard, execStgDiscard, hgate, State.discardGo_of_busy hbusy]

end Busy

/-- Settles O24: a set that is being checked, waits or is applied is not idle, so each write sets its flag in STG_STATUS,
and a flag set in a register leaves the staging set and the commit. -/
theorem busySetDiscards : Obligations.BusySetDiscards := by
  intro p s hrun
  have hbusy : s.stg.state ≠ .idle := by rcases hrun with h | h | h <;> simp [h]
  refine ⟨fun off v hoff hgate hp hmask hfix => runs_stagedWrite_of_busy hbusy v hoff hgate hp hmask hfix,
    runs_stgCommit_of_busy hbusy, runs_stgDiscard_of_busy hbusy, ?_, ?_, ?_, ?_⟩
  · simp
  · simp
  · exact s.wbit_reg_setBits (n := 19) (by decide) (by decide)
  · exact s.wbit_reg_setBits (n := 17) (by decide) (by decide)

end Sys2Proof.Machine
end

section
/-! The four invariants of every step: the queue, the canonical forms, the outputs and the fuses. Each command keeps them by
the lemma of its meaning, a spine cycle by `State.tick_keeps`; the statements are fields of `Keeps`. -/

namespace Sys2Proof.Machine

/-- Every meaning keeps what `Keeps` names. -/
theorem exec_keeps (c : Instr) (s : State) : NextKeeps s (exec c s) :=
  match c with
  | .registerWrite p off size v => execRegisterWrite_keeps (.refl s) p off size v
  | .stagedWrite p off v => execStagedWrite_keeps (.refl s) p off v
  | .rcRead p off size => execRcRead_keeps (.refl s) p off size
  | .splitReadLow p off => execSplitReadLow_keeps (.refl s) p off
  | .porstNAssert => execPorstNAssert_keeps (.refl s)
  | .porstNRelease straps => execPorstNRelease_keeps (.refl s) straps
  | .wrstNAssert => execWrstNAssert_keeps (.refl s)
  | .warmResetDrainEnd lost ccLost => execWarmResetDrainEnd_keeps (.refl s) lost ccLost
  | .perstNAssert => execPerstNAssert_keeps (.refl s)
  | .pcieTrainingStart => execPcieTrainingStart_keeps (.refl s)
  | .configRequest write reg v => execConfigRequest_keeps (.refl s) write reg v
  | .configRetryEnd => execConfigRetryEnd_keeps (.refl s)
  | .refclkLoss c => execRefclkLoss_keeps (.refl s) c
  | .demandDecision n demandUs aboveAll idleHalf => execDemandDecision_keeps (.refl s) n demandUs aboveAll idleHalf
  | .freqStep n => execFreqStep_keeps (.refl s) n
  | .voltageStep n => execVoltageStep_keeps (.refl s) n
  | .voltageTrim n slack => execVoltageTrim_keeps (.refl s) n slack
  | .droop n => execDroop_keeps (.refl s) n
  | .stretchEnd n => execStretchEnd_keeps (.refl s) n
  | .limitEntry n => execLimitEntry_keeps (.refl s) n
  | .limitCeilingRise n => execLimitCeilingRise_keeps (.refl s) n
  | .timingLimitFault n => execTimingLimitFault_keeps (.refl s) n
  | .eqAdaptUpdate l param up => execEqAdaptUpdate_keeps (.refl s) l param up
  | .shadowRecalStart l => execShadowRecalStart_keeps (.refl s) l
  | .sliceSwap l shadowEyeH shadowEyeW => execSliceSwap_keeps (.refl s) l shadowEyeH shadowEyeW
  | .losAssert l => execLosAssert_keeps (.refl s) l
  | .losDeassert l amp => execLosDeassert_keeps (.refl s) l amp
  | .clkSdFreeze p l freeze => execClkSdFreeze_keeps (.refl s) p l freeze
  | .pwrDomReq p d on => execPwrDomReq_keeps (.refl s) p d on
  | .domainPoweringStart d => execDomainPoweringStart_keeps (.refl s) d
  | .domainPowerOnDone d => execDomainPowerOnDone_keeps (.refl s) d
  | .domainDrainDone d => execDomainDrainDone_keeps (.refl s) d
  | .drainLimitExpiry d => execDrainLimitExpiry_keeps (.refl s) d
  | .domainPowerOffDone d => execDomainPowerOffDone_keeps (.refl s) d
  | .domainOffScanDone d => execDomainOffScanDone_keeps (.refl s) d
  | .standbyRailUp vaultOk => execStandbyRailUp_keeps (.refl s) vaultOk
  | .sbyDetectorArm => execSbyDetectorArm_keeps (.refl s)
  | .standbyRailLoss => execStandbyRailLoss_keeps (.refl s)
  | .mainPgTimeout => execMainPgTimeout_keeps (.refl s)
  | .mainPgFall => execMainPgFall_keeps (.refl s)
  | .mainPgRise => execMainPgRise_keeps (.refl s)
  | .aonSleep p => execAonSleep_keeps (.refl s) p
  | .sleepEntryComplete => execSleepEntryComplete_keeps (.refl s)
  | .flashAbortAtSleep => execFlashAbortAtSleep_keeps (.refl s)
  | .wakeComparatorFire b => execWakeComparatorFire_keeps (.refl s) b
  | .aonRtcSet p size v => execAonRtcSet_keeps (.refl s) p size v
  | .rtcOscFail => execRtcOscFail_keeps (.refl s)
  | .pfTrip => execPfTrip_keeps (.refl s)
  | .pfRearm => execPfRearm_keeps (.refl s)
  | .journalFlushDone => execJournalFlushDone_keeps (.refl s)
  | .thermalTick cd0 cd1 iod => execThermalTick_keeps (.refl s) cd0 cd1 iod
  | .thermalAlert die => execThermalAlert_keeps (.refl s) die
  | .thermalAlertRelease => execThermalAlertRelease_keeps (.refl s)
  | .thermalTrip die => execThermalTrip_keeps (.refl s) die
  | .thermtripRelease => execThermtripRelease_keeps (.refl s)
  | .powerCapTick power dom => execPowerCapTick_keeps (.refl s) power dom
  | .flashInitDone ok octal vaultOk densLog2 => execFlashInitDone_keeps (.refl s) ok octal vaultOk densLog2
  | .calDone => execCalDone_keeps (.refl s)
  | .verifyDone => execVerifyDone_keeps (.refl s)
  | .wr32 => execWr32_keeps (.refl s)
  | .wr64 => execWr64_keeps (.refl s)
  | .poll32 => execPoll32_keeps (.refl s)
  | .poll32Timeout => execPoll32Timeout_keeps (.refl s)
  | .waitRec => execWaitRec_keeps (.refl s)
  | .loadRec => execLoadRec_keeps (.refl s)
  | .endRec => execEndRec_keeps (.refl s)
  | .flashRead p => execFlashRead_keeps (.refl s) p
  | .flashProgram p => execFlashProgram_keeps (.refl s) p
  | .flashErase p => execFlashErase_keeps (.refl s) p
  | .flashStatus p => execFlashStatus_keeps (.refl s) p
  | .flashCmdDone status => execFlashCmdDone_keeps (.refl s) status
  | .flashCmdTimeout => execFlashCmdTimeout_keeps (.refl s)
  | .bootRetry p => execBootRetry_keeps (.refl s) p
  | .stgCommit p => execStgCommit_keeps (.refl s) p
  | .stgDiscard p => execStgDiscard_keeps (.refl s) p
  | .commitCheckEnd => execCommitCheckEnd_keeps (.refl s)
  | .commitWaitEnd => execCommitWaitEnd_keeps (.refl s)
  | .commitWaitTimeout => execCommitWaitTimeout_keeps (.refl s)
  | .commitApply => execCommitApply_keeps (.refl s)
  | .getStatus dbg => execGetStatus_keeps (.refl s) dbg
  | .authBegin dbg => execAuthBegin_keeps (.refl s) dbg
  | .authProve dbg => execAuthProve_keeps (.refl s) dbg
  | .logout dbg => execLogout_keeps (.refl s) dbg
  | .kekImport dbg => execKekImport_keeps (.refl s) dbg
  | .kekDestroy dbg => execKekDestroy_keeps (.refl s) dbg
  | .keyLoad dbg => execKeyLoad_keeps (.refl s) dbg
  | .keyDestroy dbg => execKeyDestroy_keeps (.refl s) dbg
  | .keyQuery dbg => execKeyQuery_keeps (.refl s) dbg
  | .getRandom dbg => execGetRandom_keeps (.refl s) dbg
  | .fuseImageKey dbg => execFuseImageKey_keeps (.refl s) dbg
  | .revokeImageKey dbg => execRevokeImageKey_keeps (.refl s) dbg
  | .advanceSvn dbg => execAdvanceSvn_keeps (.refl s) dbg
  | .lockDebug dbg => execLockDebug_keeps (.refl s) dbg
  | .fuseOwnerKey dbg => execFuseOwnerKey_keeps (.refl s) dbg
  | .setApproved dbg => execSetApproved_keeps (.refl s) dbg
  | .zeroise dbg => execZeroise_keeps (.refl s) dbg
  | .tamperClear dbg active => execTamperClear_keeps (.refl s) dbg active
  | .decommission dbg => execDecommission_keeps (.refl s) dbg
  | .selfTest dbg pass => execSelfTest_keeps (.refl s) dbg pass
  | .mailboxUnknownService dbg => execMailboxUnknownService_keeps (.refl s) dbg
  | .sessionIdleTimeout dbg => execSessionIdleTimeout_keeps (.refl s) dbg
  | .authLockoutEnd dbg => execAuthLockoutEnd_keeps (.refl s) dbg
  | .drbgReseed => execDrbgReseed_keeps (.refl s)
  | .entropyHealthFail => execEntropyHealthFail_keeps (.refl s)
  | .tamperEvent source => execTamperEvent_keeps (.refl s) source
  | .spdmRequest doe => execSpdmRequest_keeps (.refl s) doe
  | .stackTrainingDone n ok => execStackTrainingDone_keeps (.refl s) n ok
  | .hbmZeroFillBlock die block => execHbmZeroFillBlock_keeps (.refl s) die block
  | .hbmTransferRetry n failures => execHbmTransferRetry_keeps (.refl s) n failures
  | .scrubRead err overwritten => execScrubRead_keeps (.refl s) err overwritten
  | .sramScrubRead addr store err => execSramScrubRead_keeps (.refl s) addr store err
  | .repairRefetchDone data => execRepairRefetchDone_keeps (.refl s) data
  | .glbQDb p q tail => execGlbQDb_keeps (.refl s) p q tail
  | .glbQCplhead p q v => execGlbQCplhead_keeps (.refl s) p q v
  | .queueAbort p q => execQueueAbort_keeps (.refl s) p q
  | .queueResume p q => execQueueResume_keeps (.refl s) p q
  | .commandFetch q => execCommandFetch_keeps (.refl s) q
  | .commandIssue q => execCommandIssue_keeps (.refl s) q
  | .nop t => execNop_keeps (.refl s) t
  | .commandComplete t => execCommandComplete_keeps (.refl s) t
  | .completionStallRelease t => execCompletionStallRelease_keeps (.refl s) t
  | .irqHoldoffExpiry q => execIrqHoldoffExpiry_keeps (.refl s) q
  | .glbSem p n v => execGlbSem_keeps (.refl s) p n v
  | .glbSemAdd p n v => execGlbSemAdd_keeps (.refl s) p n v
  | .transferGrant port => execTransferGrant_keeps (.refl s) port
  | .transferDone x err => execTransferDone_keeps (.refl s) x err
  | .rateWindowUpdate => execRateWindowUpdate_keeps (.refl s)
  | .bucketRefill => execBucketRefill_keeps (.refl s)
  | .qRecompute => execQRecompute_keeps (.refl s)
  | .yieldSwitch n t => execYieldSwitch_keeps (.refl s) n t
  | .telSat n c => execTelSat_keeps (.refl s) n c
  | .tileComplete t k => execTileComplete_keeps (.refl s) t k
  | .paramLoadStart n t => execParamLoadStart_keeps (.refl s) n t
  | .paramLoadDone n t => execParamLoadDone_keeps (.refl s) n t
  | .ledgerInitDone => execLedgerInitDone_keeps (.refl s)
  | .batchAdmit => execBatchAdmit_keeps (.refl s)
  | .sampleDeadline slot => execSampleDeadline_keeps (.refl s) slot
  | .pinSetCreate p table version => execPinSetCreate_keeps (.refl s) p table version
  | .checkpointTimer => execCheckpointTimer_keeps (.refl s)
  | .journalEntryWrite => execJournalEntryWrite_keeps (.refl s)
  | .fetch t k => execFetch_keeps (.refl s) t k
  | .fetchWaitExpiry t => execFetchWaitExpiry_keeps (.refl s) t
  | .recordDone t n data => execRecordDone_keeps (.refl s) t n data
  | .hostFetchTimeout t n => execHostFetchTimeout_keeps (.refl s) t n
  | .nvmeConnect tgt port ok ns => execNvmeConnect_keeps (.refl s) tgt port ok ns
  | .nvmeResponse tgt port cid status => execNvmeResponse_keeps (.refl s) tgt port cid status
  | .fabricCmdTimeout tgt port cid => execFabricCmdTimeout_keeps (.refl s) tgt port cid
  | .quarantineReconnect tgt port cid => execQuarantineReconnect_keeps (.refl s) tgt port cid
  | .keepAlive tgt => execKeepAlive_keeps (.refl s) tgt
  | .rocePacketRx tgt port op psn ecn => execRocePacketRx_keeps (.refl s) tgt port op psn ecn
  | .ethFrameDiscard x => execEthFrameDiscard_keeps (.refl s) x
  | .addrResRequest x hop => execAddrResRequest_keeps (.refl s) x hop
  | .addrResReply x hop mac => execAddrResReply_keeps (.refl s) x hop mac
  | .addrResAnswer x ip => execAddrResAnswer_keeps (.refl s) x ip
  | .addrEntryRefresh x hop => execAddrEntryRefresh_keeps (.refl s) x hop
  | .addrEntryExpiry x hop => execAddrEntryExpiry_keeps (.refl s) x hop
  | .ethPortUp x => execEthPortUp_keeps (.refl s) x
  | .decodeImage t k => execDecodeImage_keeps (.refl s) t k
  | .decodeVideo t k => execDecodeVideo_keeps (.refl s) t k
  | .tokenize t k => execTokenize_keeps (.refl s) t k
  | .transform t k => execTransform_keeps (.refl s) t k
  | .matmul t k => execMatmul_keeps (.refl s) t k
  | .vqSearch t k => execVqSearch_keeps (.refl s) t k
  | .rowop t k => execRowop_keeps (.refl s) t k
  | .glbAzmGo p => execGlbAzmGo_keeps (.refl s) p
  | .azmBlockReady => execAzmBlockReady_keeps (.refl s)
  | .gather t k => execGather_keeps (.refl s) t k
  | .pool t k => execPool_keeps (.refl s) t k
  | .prefetch t k => execPrefetch_keeps (.refl s) t k
  | .gatherReq => execGatherReq_keeps (.refl s)
  | .gatherRsp => execGatherRsp_keeps (.refl s)
  | .pooledSum => execPooledSum_keeps (.refl s)
  | .remoteTimeout n => execRemoteTimeout_keeps (.refl s) n
  | .readSlotRelease n => execReadSlotRelease_keeps (.refl s) n
  | .heatWindowEnd => execHeatWindowEnd_keeps (.refl s)
  | .versionSlotFree t v => execVersionSlotFree_keeps (.refl s) t v
  | .sample t k => execSample_keeps (.refl s) t k
  | .sampleWaitExpiry t => execSampleWaitExpiry_keeps (.refl s) t
  | .logitPage => execLogitPage_keeps (.refl s)
  | .smpSeqKill p id => execSmpSeqKill_keeps (.refl s) p id
  | .deposit t k => execDeposit_keeps (.refl s) t k
  | .depositSeq t k => execDepositSeq_keeps (.refl s) t k
  | .stepPageDrop ep ctr => execStepPageDrop_keeps (.refl s) ep ctr
  | .layoutRead p => execLayoutRead_keeps (.refl s) p
  | .batchBuildDone e => execBatchBuildDone_keeps (.refl s) e
  | .offerStart k => execOfferStart_keeps (.refl s) k
  | .batchAck => execBatchAck_keeps (.refl s)
  | .hostOfferDone p => execHostOfferDone_keeps (.refl s) p
  | .holdTimeout k => execHoldTimeout_keeps (.refl s) k
  | .pakHostHead p n v => execPakHostHead_keeps (.refl s) p n v
  | .frameStart port vc num => execFrameStart_keeps (.refl s) port vc num
  | .longPacket port vc dt hdrOk crcOk data => execLongPacket_keeps (.refl s) port vc dt hdrOk crcOk data
  | .frameEnd port vc num => execFrameEnd_keeps (.refl s) port vc num
  | .frameLatch l => execFrameLatch_keeps (.refl s) l
  | .ptpSync src off => execPtpSync_keeps (.refl s) src off
  | .servoHoldover => execServoHoldover_keeps (.refl s)
  | .tsInCapture n rising => execTsInCapture_keeps (.refl s) n rising
  | .senTsPop p n size => execSenTsPop_keeps (.refl s) p n size
  | .trigEdge t => execTrigEdge_keeps (.refl s) t
  | .fusionClose g => execFusionClose_keeps (.refl s) g
  | .capture t k => execCapture_keeps (.refl s) t k
  | .captureWaitExpiry t => execCaptureWaitExpiry_keeps (.refl s) t
  | .copy t k => execCopy_keeps (.refl s) t k
  | .gatherRows t k => execGatherRows_keeps (.refl s) t k
  | .scatterRows t k => execScatterRows_keeps (.refl s) t k
  | .pmdTrainDone p => execPmdTrainDone_keeps (.refl s) p
  | .fecLockDone p => execFecLockDone_keeps (.refl s) p
  | .flitSyncDone p => execFlitSyncDone_keeps (.refl s) p
  | .initFlit p version kind port id count adv seen ack cum => execInitFlit_keeps (.refl s) p version kind port id count adv seen ack cum
  | .trainingTimeout p => execTrainingTimeout_keeps (.refl s) p
  | .retrainAttemptTimeout p => execRetrainAttemptTimeout_keeps (.refl s) p
  | .flitSlotTx p => execFlitSlotTx_keeps (.refl s) p
  | .dataFlitRx p vc seq payload ack cum => execDataFlitRx_keeps (.refl s) p vc seq payload ack cum
  | .badFlit p => execBadFlit_keeps (.refl s) p
  | .nakRepeat p => execNakRepeat_keeps (.refl s) p
  | .nakRx p nak ack cum => execNakRx_keeps (.refl s) p nak ack cum
  | .replayTimer p => execReplayTimer_keeps (.refl s) p
  | .retryExhausted p => execRetryExhausted_keeps (.refl s) p
  | .messageRx p v => execMessageRx_keeps (.refl s) p v
  | .fecWarn p uncorrectable => execFecWarn_keeps (.refl s) p uncorrectable
  | .echoReq => execEchoReq_keeps (.refl s)
  | .echoRsp => execEchoRsp_keeps (.refl s)
  | .echoSend => execEchoSend_keeps (.refl s)
  | .unreachTimeout toEp d => execUnreachTimeout_keeps (.refl s) toEp d
  | .stepTokenIssue => execStepTokenIssue_keeps (.refl s)
  | .stepToken => execStepToken_keeps (.refl s)
  | .stepDone => execStepDone_keeps (.refl s)
  | .stepDeadline => execStepDeadline_keeps (.refl s)
  | .rootBeatSend => execRootBeatSend_keeps (.refl s)
  | .rootBeat => execRootBeat_keeps (.refl s)
  | .leaseExpiry => execLeaseExpiry_keeps (.refl s)
  | .claimSend => execClaimSend_keeps (.refl s)
  | .rootClaim => execRootClaim_keeps (.refl s)
  | .rootAck => execRootAck_keeps (.refl s)
  | .rootNack => execRootNack_keeps (.refl s)
  | .joinSend => execJoinSend_keeps (.refl s)
  | .join => execJoin_keeps (.refl s)
  | .leave => execLeave_keeps (.refl s)
  | .memberStatSend => execMemberStatSend_keeps (.refl s)
  | .memberStat => execMemberStat_keeps (.refl s)
  | .nglFabPullGo p n => execNglFabPullGo_keeps (.refl s) p n
  | .tablePull => execTablePull_keeps (.refl s)
  | .tableChunk => execTableChunk_keeps (.refl s)
  | .tablePullNak => execTablePullNak_keeps (.refl s)
  | .pullTimeout n => execPullTimeout_keeps (.refl s) n
  | .hotReset => execHotReset_keeps (.refl s)
  | .linkDown => execLinkDown_keeps (.refl s)
  | .functionLevelReset => execFunctionLevelReset_keeps (.refl s)
  | .d3hotEntry => execD3hotEntry_keeps (.refl s)
  | .bar2Access write off data n poison => execBar2Access_keeps (.refl s) write off data n poison
  | .cxlMemRequest write h data n poison => execCxlMemRequest_keeps (.refl s) write h data n poison
  | .hostReadCompletion tag st data => execHostReadCompletion_keeps (.refl s) tag st data
  | .completionTimeout tag => execCompletionTimeout_keeps (.refl s) tag
  | .snpdata l => execSnpdata_keeps (.refl s) l
  | .snpinv l => execSnpinv_keeps (.refl s) l
  | .snpcur l => execSnpcur_keeps (.refl s) l
  | .cxlGo l excl data => execCxlGo_keeps (.refl s) l excl data
  | .goWritepull l => execGoWritepull_keeps (.refl s) l
  | .goWritepullDrop l => execGoWritepullDrop_keeps (.refl s) l
  | .hifCcFlush p => execHifCcFlush_keeps (.refl s) p
  | .ccFlushDone => execCcFlushDone_keeps (.refl s)
  | .msixVectorUnmask v => execMsixVectorUnmask_keeps (.refl s) v
  | .doeObject proto data => execDoeObject_keeps (.refl s) proto data
  | .doeAbort => execDoeAbort_keeps (.refl s)
  | .healthFaultConfirm u pair prevGood released => execHealthFaultConfirm_keeps (.refl s) u pair prevGood released
  | .c2RecoveryDone => execC2RecoveryDone_keeps (.refl s)
  | .watchdogExpiry n => execWatchdogExpiry_keeps (.refl s) n
  | .releaseGatePass => execReleaseGatePass_keeps (.refl s)
  | .recoverySelfTestDone u pass => execRecoverySelfTestDone_keeps (.refl s) u pass
  | .fltUnfence p u => execFltUnfence_keeps (.refl s) p u
  | .fltInject p u wire => execFltInject_keeps (.refl s) p u wire
  | .fltFirstClr p => execFltFirstClr_keeps (.refl s) p
  | .instanceTest p target => execInstanceTest_keeps (.refl s) p target
  | .islandTest p target => execIslandTest_keeps (.refl s) p target
  | .serdesRecal p target => execSerdesRecal_keeps (.refl s) p target
  | .bistDrained => execBistDrained_keeps (.refl s)
  | .bistDeferred => execBistDeferred_keeps (.refl s)
  | .bistTestDone fails => execBistTestDone_keeps (.refl s) fails
  | .serdesRecalDone eyeH eyeW => execSerdesRecalDone_keeps (.refl s) eyeH eyeW
  | .traceRecordWrite => execTraceRecordWrite_keeps (.refl s)
  | .telTraceMark p v => execTelTraceMark_keeps (.refl s) p v
  | .telTraceCtl p run => execTelTraceCtl_keeps (.refl s) p run
  | .idcode tag => execIdcode_keeps (.refl s) tag
  | .peek32 tag off => execPeek32_keeps (.refl s) tag off
  | .peek64 tag off => execPeek64_keeps (.refl s) tag off
  | .write32 tag off v => execWrite32_keeps (.refl s) tag off v
  | .write64 tag off v => execWrite64_keeps (.refl s) tag off v
  | .mempeek tag a => execMempeek_keeps (.refl s) tag a
  | .memwrite tag a data => execMemwrite_keeps (.refl s) tag a data
  | .debugAnswerTimeout => execDebugAnswerTimeout_keeps (.refl s)
  | .dbgHaltInst p v => execDbgHaltInst_keeps (.refl s) p v
  | .dbgHaltQ p j v => execDbgHaltQ_keeps (.refl s) p j v
  | .instanceHalted n => execInstanceHalted_keeps (.refl s) n
  | .tapIdcode => execTapIdcode_keeps (.refl s)
  | .samplePreload sample preload => execSamplePreload_keeps (.refl s) sample preload
  | .extest boundary => execExtest_keeps (.refl s) boundary
  | .clamp => execClamp_keeps (.refl s)
  | .highz => execHighz_keeps (.refl s)
  | .bypass => execBypass_keeps (.refl s)
  | .tapReset => execTapReset_keeps (.refl s)
  | .pcieLinkUp rate width flit cache mem => execPcieLinkUp_keeps (.refl s) rate width flit cache mem
  | .tagQuarantineEnd tag => execTagQuarantineEnd_keeps (.refl s) tag
  | .ethPortDown x => execEthPortDown_keeps (.refl s) x
  | .roceAckTimeout tgt port => execRoceAckTimeout_keeps (.refl s) tgt port
  | .pfcFrameRx x prio pause => execPfcFrameRx_keeps (.refl s) x prio pause
  | .ptpMessage src off => execPtpMessage_keeps (.refl s) src off
  | .idleFlitRx p ack cum => execIdleFlitRx_keeps (.refl s) p ack cum
  | .repairWaitTimeout t k => execRepairWaitTimeout_keeps (.refl s) t k
  | .debugRequestInvalid tag crcBad => execDebugRequestInvalid_keeps (.refl s) tag crcBad

/-- A step leaves the queue's rest and keeps, from there, what `Keeps` names. -/
theorem step_keeps {s t : State} (h : step s = .next t) : Keeps { s with pending := s.pending.tail } t := by
  rcases hq : s.pending with _ | ⟨c, rest⟩
  · have ht : s.tick = t := by simpa [step, hq] using h
    have hs : ({ s with pending := [] } : State) = s := by rw [← hq]
    rw [List.tail_nil, hs, ← ht]
    exact State.tick_keeps (.refl s)
  · have ht : exec c { s with pending := rest } = .next t := by simpa [step, hq] using h
    exact (exec_keeps c _).next_keeps t ht

theorem FusesKept.stay {s t : State} (h : FusesKept s.vlt.fuses t.vlt.fuses) : FusesStay s t :=
  ⟨h.imgKey, h.imgRevoked, h.svn, fun o => ⟨h.ownerSet o, h.ownerKey o⟩, h.debugLock, h.approved, h.decommissioned⟩

/-- Settles O3: a step keeps the rest of the queue, and the rest of `c :: rest` is `rest`. -/
theorem queueFifo : Obligations.QueueFifo := fun _ _ _ _ h => (step_keeps h).pending

/-- Settles O4: the canonical forms are the last four fields of `Keeps`. -/
theorem stepKeepsCanonical : Obligations.StepKeepsCanonical := by
  rintro s t ⟨hmem, hregs, hflash, hhost⟩ h
  have k := step_keeps h
  exact ⟨k.mem hmem, k.regs hregs, k.flash hflash, k.host hhost⟩

/-- Settles O6. -/
theorem outputsStand : Obligations.OutputsStand := fun _ _ h => (step_keeps h).outs

/-- Settles O7. -/
theorem fusesNeverClear : Obligations.FusesNeverClear := fun _ _ h => (step_keeps h).fuses.stay

/-- Settles O1: the front command is taken off by the definition of a step. -/
theorem stepTakesFront : Obligations.StepTakesFront := fun _ _ _ => rfl

/-- Settles O2: an empty queue leaves the spine cycle, of which the standby clocks alone run without the main rail. -/
theorem stepIdle : Obligations.StepIdle := by
  intro s hq
  refine ⟨by simp [step, hq], fun hrun => ?_⟩
  cases hsby : s.pins.sby
  · simp [State.tick, State.whenB, hsby, hrun]
  · have hrun' : ({ s with aon := s.aon.tick } : State).mainRunning = false := hrun
    simp [State.tick, State.whenB, hsby, hrun']

end Sys2Proof.Machine
end

section
/-! The state after reset. -/

namespace Sys2Proof.Machine

/-- HBM lies below every undefined range of the state after reset, so it reads as zero there (R193). -/
theorem region_hbm_lt {a d : Nat} (h : region a = some (.hbm d)) : a < 0x4000000000 := by
  refine Decidable.byContradiction fun hge => ?_
  simp only [region, if_neg hge, if_neg (show ¬ a < 0x2000000000 by omega)] at h
  split at h
  · cases h
  · split at h
    · cases h
    · split at h <;> cases h

theorem Mem.unlisted_default {a : Nat} (h : a < 0x4000000000) : ({} : Mem).unlisted a = 0 := by
  have hdepot : ¬ 0x40000000000 ≤ a := by omega
  have hbay : ¬ 0x50000000000 ≤ a := by omega
  simp [Mem.unlisted, hdepot, hbay]

/-- A semaphore's register resets to zero. -/
theorem regReset_rSem {n : Nat} (h : n < 65536) : regReset (rSem n) = 0 := by
  have hhi : rSem n < 0x100000 := by unfold rSem bGLB; omega
  simp only [regReset]
  rw [if_neg (by omega), if_neg (by omega), if_neg (by omega)]

/-- Settles O5: every table of the state after reset is empty, so each entry reads as its default. -/
theorem resetState : Obligations.ResetState := by
  refine ⟨⟨⟨rfl, by simp [State.reset]⟩, ⟨rfl, by simp [State.reset]⟩, rfl, rfl⟩, rfl, fun _ => rfl, rfl, rfl, rfl, rfl,
    fun _ => ⟨rfl, rfl, rfl⟩, fun n hn => ?_, fun _ _ => rfl, fun _ => rfl, fun _ => rfl, rfl, rfl, rfl, fun a d ha => ?_⟩
  · have hreg : State.reset.reg (rSem n) = 0 := regReset_rSem hn
    simp [State.sem, hreg, wfld, fld]
  · exact ⟨Mem.unlisted_default (region_hbm_lt ha), rfl⟩

end Sys2Proof.Machine
end

section
/-! Writes and reads of registers (R10, R13, R17) and staged writes (R137 to R139). -/

namespace Sys2Proof.Machine

/-! ### Writes -/

section Gated
variable {p : Path} {off size v : Nat} {s : State} {f : RegFam}

theorem State.barWrite_of_gate_false (h : s.wgate p (off - off % 8) = false) : s.barWrite p off size v = s := by
  simp [State.barWrite, h]

theorem State.barWrite_of_undefined (h : regFam (off - off % 8) = none) : s.barWrite p off size v = s := by
  simp [State.barWrite, h]

theorem State.barWrite_of_counter (hf : regFam (off - off % 8) = some f)
    (ht : f.typ = .event ∨ f.typ = .error ∨ f.typ = .stall) : s.barWrite p off size v = s := by
  rcases ht with ht | ht | ht <;> simp [State.barWrite, hf, ht]

/-- Below the Vault's block no RW register has an effect of its own. -/
theorem State.writeRw_below_vault {a : Nat} (ha : a < bVLT) :
    s.writeRw p f a off size v = s.setReg a (mergeWord (s.reg a) f.mask off size v) := by
  unfold bVLT at ha
  have hdbg : ¬ bDBG ≤ a := by unfold bDBG; omega
  have hmbx : ¬ bVLT + 0x1000 ≤ a := by unfold bVLT; omega
  have hmsix : ¬ bHIF + 0x10000 ≤ a := by unfold bHIF; omega
  simp [State.writeRw, hdbg, hmbx, hmsix]

theorem State.barWrite_rw_below_vault (hg : s.wgate p (off - off % 8) = true) (hf : regFam (off - off % 8) = some f)
    (ht : f.typ = .rw) (ha : off - off % 8 < bVLT) :
    s.barWrite p off size v = s.setReg (off - off % 8) (mergeWord (s.reg (off - off % 8)) f.mask off size v) := by
  simp only [State.barWrite, hg, hf, ht, State.writeRw_below_vault ha, Nat.not_le.mpr ha]
  simp

end Gated

/-- Settles O9: an aligned claimed write is the write of the register, which goes by the register's type. -/
theorem registerWrites : Obligations.RegisterWrites := by
  intro p off size v s hoff hclaim
  refine ⟨fun ha hg => ⟨fun f hf ht hlow => ?_, fun hf => ?_, fun f hf ht => ?_⟩, fun ha hg => ?_⟩ <;>
    have hrun := runs_registerWrite_of_aligned (v := v) hoff hclaim ha
  · rwa [State.barWrite_rw_below_vault hg hf ht hlow] at hrun
  · rwa [State.barWrite_of_undefined hf] at hrun
  · rwa [State.barWrite_of_counter hf ht] at hrun
  · rwa [State.barWrite_of_gate_false hg] at hrun

/-! ### Staged writes -/

section Idle
variable {p : Path} {off v : Nat} {s : State} (hidle : s.stg.state = .idle) (hp : p ≠ .vault) (hmask : stMask off ≠ 0)
  (hfix : stFixed off = false)
include hidle hp hmask hfix

theorem State.stageHalf_of_owner (howner : s.stg.owner = none ∨ s.stg.owner = some p) :
    s.stageHalf p off v =
      if (tget none s.stg.set off).isNone && s.stg.set.length ≥ 16384 then
        { s with stg := { s.stg with overflow := true, ovReg := if s.stg.overflow then s.stg.ovReg else off - off % 8 } }
      else
        { s with stg := { s.stg with
          owner := some p, set := tset none s.stg.set off (some (BitVec.ofNat 32 (v &&& stMask off))) } } := by
  unfold State.stageHalf
  rw [if_neg (by simp [hp, hmask, hfix]), if_neg (by simp [hidle]), if_neg (by rcases howner with h | h <;> simp [h])]

theorem State.stageHalf_of_foreign {q : Path} (howner : s.stg.owner = some q) (hq : q ≠ p) :
    s.stageHalf p off v = s.setBits rStgStatus fForeign := by
  simp [State.stageHalf, hp, hmask, hfix, hidle, howner, hq]

end Idle

theorem runs_stagedWrite {p : Path} {off v : Nat} {s : State} (hoff : off % 4 = 0)
    (hgate : s.wgate p (off - off % 8) = true) : Runs (.stagedWrite p off v) s (s.stageHalf p off v) := by
  simp [Runs, exec_stagedWrite, execStagedWrite, hoff, hgate]

/-- Settles O10: in an idle set, by the owner and by the room left. -/
theorem stagedWrites : Obligations.StagedWrites := by
  intro p off v s hoff hgate hp hmask hfix
  have hrun := runs_stagedWrite (v := v) hoff hgate
  refine ⟨fun hidle howner hroom => ?_, fun hidle howner hnew hfull => ?_, fun hidle ⟨q, howner, hq⟩ => ?_⟩
  · have hnot : ¬ ((tget none s.stg.set off).isNone = true ∧ 16384 ≤ s.stg.set.length) := fun ⟨hn, hl⟩ => by
      rcases hroom with h | h
      · simp [Option.isNone_iff_eq_none.mp hn] at h
      · omega
    rwa [State.stageHalf_of_owner hidle hp hmask hfix howner, if_neg (by simpa using hnot)] at hrun
  · rwa [State.stageHalf_of_owner hidle hp hmask hfix howner, if_pos (by simp [hnew, hfull])] at hrun
  · rwa [State.stageHalf_of_foreign hidle hp hmask hfix howner hq] at hrun

/-! ### Reads -/

theorem runs_splitReadLow {p : Path} {off : Nat} (s : State) (h : off % 8 = 0) :
    Runs (.splitReadLow p off) s (s.pathRead p off 4) := if_pos h

theorem runs_senTsPop {p : Path} {n size : Nat} (s : State) (h : n < 8) :
    Runs (.senTsPop p n size) s (s.pathRead p (bSEN + 0x5008 + 16 * n) size) := if_pos h

theorem State.pathRead_of_answered {p : Path} {off size v : Nat} {s t : State} (hoff : off < barSize)
    (hclaim : s.unclaimed p = false) (hup : s.pathUp p = true) (ha : aligned off size = true)
    (hr : s.barRead p off size = (t, some v)) : s.pathRead p off size = t.emit (.read p size v) :=
  Host.Outcome.next.inj ((exec_rcRead p off size s).symm.trans (runs_rcRead_of_answered hoff hclaim hup ha hr))

theorem State.word_of_undefined (s : State) (p : Path) {a : Nat} (h : regFam a = none) : s.word p a = 0 := by
  simp [State.word, h]

/-- The high half is the latched one exactly where it is served from the shadow (R17). -/
theorem State.highHalf_of_fromShadow_false {s : State} {p : Path} {a : Nat} (h : s.fromShadow p a = false) :
    s.highHalf p a = wfld (s.word p a) 63 32 := by
  unfold State.highHalf
  split
  · rfl
  · next hlive =>
    split
    · next b half hs =>
      have hne : b ≠ a := by rintro rfl; simp_all [State.fromShadow]
      rw [if_neg hne]
    · rfl

theorem State.readEffect_shadow (s : State) (p q : Path) (a : Nat) : (s.readEffect q a).shadow p = s.shadow p := by
  unfold State.readEffect
  extract_lets u
  have hu : u.shadow p = s.shadow p := by
    simp only [u]; split
    · cases p <;> rfl
    · rfl
  split
  · exact hu
  split
  · rw [← hu]; cases p <;> rfl
  split
  · split
    · rw [← hu]; cases p <;> rfl
    · exact hu
  · exact hu

theorem State.latch_shadow {s : State} {p : Path} (hp : p ≠ .boot) (a : Nat) (hi : Half) :
    (s.latch p a hi).shadow p = some (a, hi) := by
  cases p with
  | boot => exact absurd rfl hp
  | host | debug | vault => rfl

/-- R17: a 32-bit read of a low half latches the high half. -/
theorem State.barRead_low {p : Path} {a : Nat} {f : RegFam} {s : State} (ha : a % 8 = 0) (hf : regFam a = some f)
    (hpair : pairWord a = false) (hwait : s.azmWaits a = false) :
    s.barRead p a 4 =
      ((s.latch p a (BitVec.ofNat 32 (wfld (s.word p a) 63 32))).readEffect p a, some (wfld (s.word p a) 31 0)) := by
  simp [State.barRead, ha, hf, hpair, hwait]

/-- R17: a read of a high half is served from the shadow while that register is the latched one. -/
theorem State.barRead_high {p : Path} {a : Nat} {s : State} {h : Half} (ha : a % 8 = 0) (hpair : pairWord a = false)
    (hpow : s.powered (regDom a) = true) (hs : s.shadow p = some (a, h)) : s.barRead p (a + 4) 4 = (s, some h.toNat) := by
  have hoff : (a + 4) % 8 = 4 := by omega
  simp [State.barRead, State.fromShadow, State.highHalf, hoff, hpair, hpow, hs]

theorem State.barRead_undefined {p : Path} {off size : Nat} {s : State} (hf : regFam (off - off % 8) = none)
    (hpair : pairWord (off - off % 8) = false) (hwait : s.azmWaits (off - off % 8) = false)
    (hs : s.fromShadow p (off - off % 8) = false) (hsize : size = 8 ∨ size = 4) :
    (s.barRead p off size).2 = some 0 := by
  have hw := s.word_of_undefined p hf
  have hhi := State.highHalf_of_fromShadow_false hs
  unfold State.barRead
  generalize off - off % 8 = a at *
  rw [hw] at hhi
  rcases hsize with rfl | rfl
  · simp [hpair, hs, hwait, hw]
  · by_cases hmod : off % 8 = 4
    · simp [hpair, hs, hwait, hmod, hhi, wfld, fld]
    · simp [hpair, hs, hwait, hmod, hw, wfld, fld]

/-- Settles O11: the answered read of a path, the undefined offset, and the two halves of a split read. -/
theorem registerReads : Obligations.RegisterReads := by
  refine ⟨fun p off size s t v hoff hclaim hup ha hr => ⟨runs_rcRead_of_answered hoff hclaim hup ha hr, ?_, ?_⟩,
    fun p off size s hf hpair hwait hs _ => ⟨fun h => State.barRead_undefined hf hpair hwait hs (.inl h),
      fun h => State.barRead_undefined hf hpair hwait hs (.inr h)⟩,
    fun p a f s hp ha hf hpair hwait _ => ?_, fun p a s h ha hpair hpow hs => State.barRead_high ha hpair hpow hs⟩
  · rintro rfl hlow
    rw [← State.pathRead_of_answered hoff hclaim hup ha hr]
    exact runs_splitReadLow s hlow
  · rintro n hn rfl
    rw [← State.pathRead_of_answered hoff hclaim hup ha hr]
    exact runs_senTsPop s hn
  · rw [State.barRead_low ha hf hpair hwait]
    exact ⟨(State.readEffect_shadow _ p p a).trans (State.latch_shadow hp a _), rfl⟩

end Sys2Proof.Machine
end

section
/-! The reset pins and the training of the host link (R44, R48 to R50, R621, R652). -/

namespace Sys2Proof.Machine

/-- An aborted flash command changes the flash, the free values and the command's own state alone. -/
theorem State.flashAbort_frame (s : State) :
    s.flashAbort.pins = s.pins ∧ s.flashAbort.aon = s.aon ∧ s.flashAbort.vlt = s.vlt ∧ s.flashAbort.regs = s.regs ∧
    s.flashAbort.ldg = s.ldg ∧ s.flashAbort.host = s.host ∧ s.flashAbort.outs = s.outs := by
  rcases hb : s.boot.flBusy with _ | b
  · simp [State.flashAbort, hb]
  · cases b <;> simp [State.flashAbort, State.fresh, hb]

theorem State.flashAbort_flash_of_idle {s : State} (h : s.boot.flBusy = none) : s.flashAbort.flash = s.flash := by
  simp [State.flashAbort, h]

/-- What a cold reset takes from the state before it (R48, R89). -/
theorem State.coldReset_frame (s : State) :
    s.coldReset.boot = {} ∧ s.coldReset.que = {} ∧ s.coldReset.hif = {} ∧ s.coldReset.flt = {} ∧
    s.coldReset.vlt.fuses = s.vlt.fuses ∧ s.coldReset.regs = s.regs.filter (fun e => aonReg e.1) := by
  obtain ⟨-, -, hvlt, hregs, -⟩ := s.flashAbort_frame
  exact ⟨rfl, rfl, rfl, rfl, congrArg (fun v : Vlt => v.reset.fuses) hvlt,
    congrArg (List.filter (fun e : Nat × Word => aonReg e.1)) hregs⟩

theorem State.coldReset_flash_of_idle {s : State} (h : s.boot.flBusy = none) : s.coldReset.flash = s.flash :=
  State.flashAbort_flash_of_idle h

/-- R48: PORST_N low. -/
theorem exists_runs_porstNAssert {s : State} (h : s.pins.sby = true) : ∃ t, Runs .porstNAssert s t ∧ t.pins.porst = false ∧
    t.pins.straps = none ∧ t.pins.perst = false ∧ t.boot = {} ∧ t.que = {} ∧ t.hif = {} ∧
    t.vlt.fuses = s.vlt.fuses ∧ t.flt = {} ∧ (s.boot.flBusy = none → t.flash = s.flash) ∧
    t.regs = s.regs.filter (fun e => aonReg e.1) := by
  obtain ⟨hboot, hque, hhif, hflt, hfuses, hregs⟩ := s.coldReset_frame
  refine ⟨_, if_neg (by simp [h]), ?_⟩
  split <;>
    exact ⟨rfl, rfl, rfl, hboot, hque, hhif, hfuses, hflt, State.coldReset_flash_of_idle, hregs⟩

/-- Settles O12: each pin's row under the condition its clause gives. -/
theorem resetPins : Obligations.ResetPins := by
  refine ⟨fun s h => exists_runs_porstNAssert h, fun x s hporst hsby hrail => ?_, fun s h => if_pos h, fun s h => ?_,
    fun lost n s h => if_pos h, fun s u h hu => ?_, fun s hboot htest hdom hlink hclk => ?_,
    fun r w f c m s htrain hdom hperst hr hw => ?_⟩
  · have hrun : ({ s with pins := { s.pins with porst := true, straps := some x } } : State).mainRunning = true := by
      simpa [State.mainRunning, State.railUp] using hrail
    exact (if_neg (by simp [hporst, hsby])).trans (congrArg Host.Outcome.next (if_pos hrun))
  · exact if_neg (by simp [State.bootRuns, State.mainRunning, h])
  · subst hu; exact if_pos h
  · exact if_pos (by simp [hboot, htest, hdom, hlink, hclk])
  · exact if_pos (by rw [htrain, hdom, hperst, List.contains_iff_mem.mpr hr, List.contains_iff_mem.mpr hw]; rfl)

end Sys2Proof.Machine
end

section
/-! Clock islands and SerDes lanes (R60 to R72). -/

namespace Sys2Proof.Machine

/-! ### The loops of an island -/

section Loops
variable {n : Nat} {s : State} (hon : (s.isl n).state ≠ .off)
include hon

/-- R63, R66: the demand decision retargets the island, and a droop of this or the last interval suppresses a rise. -/
theorem runs_demandDecision (us : Nat) (above idle : Bool) (hkind : islandKind n = .dvfs) (hcfg : s.islCfgd n = true)
    {t : Nat}
    (ht : t = if s.cf (rIslCfg n) 7 6 = 1 then s.effCeil n else if s.cf (rIslCfg n) 7 6 = 2 then s.fMin n
      else if us < s.cf (bCLK + 0x100) 15 0 then s.effCeil n
      else if (us > s.cf (bCLK + 0x100) 31 16 && above) || idle then max (s.fMin n) ((s.isl n).target - 4)
      else (s.isl n).target) :
    Runs (.demandDecision n us above idle) s
      ((s.setIsl n { s.isl n with droopPrev := (s.isl n).droopThis, droopThis := false }).retarget n
        (if ((s.isl n).droopThis || (s.isl n).droopPrev) && t > (s.isl n).target then (s.isl n).target else t)) := by
  subst ht
  refine (if_pos (by simp [hkind, hon])).trans ?_
  simp only [hcfg, Bool.not_true, Bool.false_eq_true, if_false]

theorem runs_freqStep_up (hlt : (s.isl n).f < (s.isl n).target) (hv : s.vPoint n (s.isl n).target ≤ (s.isl n).v) :
    Runs (.freqStep n) s (s.setIsl n { s.isl n with
      f := (s.isl n).f + 1, state := if (s.isl n).f + 1 = (s.isl n).target then .run else (s.isl n).state }) :=
  if_pos (by simp [hon, hlt, hv])

omit hon in
theorem runs_freqStep_held (hlt : (s.isl n).f < (s.isl n).target) (hv : (s.isl n).v < s.vPoint n (s.isl n).target) :
    Runs (.freqStep n) s s :=
  (if_neg (by simp [hv])).trans (if_neg (by simp [Nat.le_of_lt hlt]))

theorem runs_freqStep_down (hlt : (s.isl n).target < (s.isl n).f) : Runs (.freqStep n) s (s.setIsl n { s.isl n with
      f := (s.isl n).f - 1
      state := if (s.isl n).f - 1 = (s.isl n).target && (s.isl n).v ≤ s.vPoint n (s.isl n).target then .run
        else (s.isl n).state }) :=
  (if_neg (by simp [Nat.lt_asymm hlt])).trans (if_pos (by simp [hon, hlt]))

/-- R65: the trim moves the voltage by at most one step towards the slack target. -/
theorem runs_voltageTrim {slack : Int} (hkind : islandKind n ≠ .fixed) (hramp : (s.isl n).state ≠ .ramp)
    (hcfg : s.islCfgd n = true) {v : Nat}
    (hv : v = if slack > s.slackTarget n + 2 then max 20 ((s.isl n).v - 1)
      else if slack < s.slackTarget n then min ((s.isl n).v + 1) (max (s.isl n).v (s.cf (rIslCfg n) 15 8))
      else (s.isl n).v) :
    Runs (.voltageTrim n slack) s (s.setIsl n { s.isl n with v := v, slack := slack }) := by
  subst hv
  refine (if_neg (by simp [hkind, hon])).trans ?_
  simp only [hramp, hcfg, decide_false, Bool.not_true, Bool.or_self, Bool.false_eq_true, if_false]

theorem runs_droop (hkind : islandKind n ≠ .fixed) :
    Runs (.droop n) s ((s.setIsl n { s.isl n with stretch := true, droopThis := true }).bump (rIslDroop n) 1) :=
  if_neg (by simp [hkind, hon])

end Loops

theorem runs_voltageStep_up {n : Nat} {s : State} (hramp : (s.isl n).state = .ramp)
    (hv : (s.isl n).v < s.vPoint n (s.isl n).target) (hf : (s.isl n).f ≤ (s.isl n).target) :
    Runs (.voltageStep n) s (s.setIsl n { s.isl n with v := (s.isl n).v + 1 }) :=
  if_pos (by simp [hramp, hv, hf])

theorem runs_voltageStep_down {n : Nat} {s : State} (hramp : (s.isl n).state = .ramp) (hf : (s.isl n).f = (s.isl n).target)
    (hv : s.vPoint n (s.isl n).target < (s.isl n).v) :
    Runs (.voltageStep n) s (s.setIsl n { s.isl n with
      v := (s.isl n).v - 1, state := if (s.isl n).v - 1 = s.vPoint n (s.isl n).target then .run else (s.isl n).state }) :=
  (if_neg (by simp [Nat.lt_asymm hv])).trans (if_pos (by simp [hramp, hf, hv]))

/-- Settles O13: each loop by the branch that its clause's condition takes. -/
theorem islandLoops : Obligations.IslandLoops := by
  refine fun n s hon => ⟨fun us above idle hkind hcfg hpol hthis hprev => ⟨fun hlow => ?_, fun hhigh hfall => ?_⟩,
    fun us above idle hkind hcfg hpol hdroop hceil => ?_, runs_freqStep_up hon, runs_freqStep_held, runs_freqStep_down hon,
    runs_voltageStep_up, runs_voltageStep_down, fun slack hkind hramp hcfg => ⟨fun h => ?_, fun h => ?_, fun hlo hhi => ?_⟩,
    runs_droop hon, rfl⟩
  · simpa [hpol, hlow, hthis, hprev] using runs_demandDecision hon us above idle hkind hcfg rfl
  · have hfall : ((decide (s.cf (bCLK + 0x100) 31 16 < us) && above) || idle) = true := by simpa using hfall
    simpa [hpol, Nat.not_lt.mpr hhigh, hfall, hthis, hprev] using runs_demandDecision hon us above idle hkind hcfg rfl
  · have hsup : ((s.isl n).droopThis || (s.isl n).droopPrev) = true := by simpa using hdroop
    simpa [hpol, hsup, hceil] using runs_demandDecision hon us above idle hkind hcfg rfl
  · exact runs_voltageTrim hon hkind hramp hcfg (if_pos h).symm
  · exact runs_voltageTrim hon hkind hramp hcfg (by rw [if_neg (by omega), if_pos h])
  · exact runs_voltageTrim hon hkind hramp hcfg (by rw [if_neg (by omega), if_neg (by omega)])

/-! ### The limit of an island and the board clocks -/

/-- An island that is not in its reset state reads back as set, whatever the order of the table. -/
theorem State.isl_setIsl_of_ne (s : State) (n : Nat) {x : Island} (hx : x ≠ {}) : (s.setIsl n x).isl n = x := by
  simpa only [State.setIsl, State.isl, tset, if_neg hx] using tget_tins_same s.clk.isl n x

theorem exists_runs_limitEntry {n : Nat} {s : State} (hkind : islandKind n = .dvfs) (hon : (s.isl n).state ≠ .off)
    (hnew : (s.isl n).state ≠ .limit) (hcfg : s.islCfgd n = true) (hv : s.cf (rIslCfg n) 15 8 ≤ (s.isl n).v)
    (hfall : s.fMin n < islandNominal n - (s.isl n).limitDrop) :
    ∃ t, Runs (.limitEntry n) s t ∧ (t.isl n).state = .limit ∧ (t.isl n).limitDrop = (s.isl n).limitDrop + 1 ∧
      (t.isl n).target ≤ (s.isl n).target ∧ t.regs = (s.err (rIslVlimit n)).regs ∧ (∀ m, m ≠ n → t.isl m = s.isl m) ∧
      t.mem = s.mem := by
  have herr : s.whenB (decide ((s.isl n).state ≠ .limit)) (·.err (rIslVlimit n)) = s.err (rIslVlimit n) :=
    if_pos (decide_eq_true hnew)
  have hfall' : (decide (islandKind n = .dvfs) &&
      decide ((s.err (rIslVlimit n)).fMin n < islandNominal n - (s.isl n).limitDrop)) = true := by
    have hmin : (s.err (rIslVlimit n)).fMin n = s.fMin n := rfl
    simp [hkind, hmin, hfall]
  refine ⟨_, if_neg (by simp [hkind, hon, hcfg, hv]), ?_⟩
  simp only [herr, hfall', if_true]
  have hmid := (s.err (rIslVlimit n)).isl_setIsl_of_ne n
    (x := { s.isl n with state := .limit, limitDrop := (s.isl n).limitDrop + 1 }) (fun h => by injection h; simp_all)
  rw [hmid, State.isl_setIsl_of_ne _ _ (fun h => by injection h; simp_all)]
  refine ⟨rfl, rfl, Nat.min_le_left _ _, rfl, fun m hm => ?_, rfl⟩
  rw [State.isl_setIsl_ne _ _ hm.symm, State.isl_setIsl_ne _ _ hm.symm]
  rfl

theorem runs_timingLimitFault {n : Nat} {s : State} (hkind : islandKind n ≠ .fixed) (hon : (s.isl n).state ≠ .off)
    (hmin : islandKind n = .dvfs → (s.isl n).f ≤ s.fMin n) :
    Runs (.timingLimitFault n) s
      (if islandClass n = 3 then s.faultC3 0x03 (uIsland n) 0 else s.faultUnit 0x03 (uIsland n)) :=
  (if_neg (by simpa [hkind, hon] using hmin)).trans (apply_ite Host.Outcome.next _ _ _).symm

/-- Settles O14. -/
theorem islandLimits : Obligations.IslandLimits := by
  refine ⟨fun n s => exists_runs_limitEntry, fun n s => rfl, fun n s hkind hon hmin => ⟨fun h => ?_, fun h => ?_⟩,
    fun s => rfl, fun s => rfl⟩
  · simpa [h] using runs_timingLimitFault hkind hon hmin
  · simpa [h] using runs_timingLimitFault hkind hon hmin

/-! ### Lanes -/

/-- A recalibration that no request joined has no outcome to record. -/
theorem State.recalOut_of_not_joined {s : State} {l : Nat} (h : s.tel.bistLane ≠ some l) (o : Nat) : s.recalOut l o = s :=
  if_neg h

section Lane
variable {l : Nat} {s : State} (hl : l < 24)
include hl

theorem runs_eqAdaptUpdate (param : Nat) (up : Bool) (hadapt : s.cb (rSdCtl l) 1 = true) (hfree : s.frozen l = false) :
    Runs (.eqAdaptUpdate l param up) s (s.setLane l { s.lane l with main := (s.lane l).main.adapt param up }) :=
  if_pos (by simp [hl, hadapt, hfree])

theorem runs_shadowRecalStart (hrecal : s.cb (rSdCtl l) 3 = true) (hper : s.cf (rSdCtl l) 7 4 ≠ 0)
    (hlos : (s.lane l).los = false) : Runs (.shadowRecalStart l) s (s.setLane l { s.lane l with recal := true }) :=
  if_pos (by simp [hl, hrecal, hper, hlos])

theorem runs_sliceSwap_swapped {h w : Nat} (hrecal : (s.lane l).recal = true) (hlos : (s.lane l).los = false)
    (hgain : (s.lane l).main.eyeH + 4 ≤ h) (hfree : s.frozen l = false) (hidle : s.retryIdle l = true)
    (hjoin : s.tel.bistLane ≠ some l) :
    Runs (.sliceSwap l h w) s ((s.setLane l { s.lane l with
      main := { (s.lane l).shadow with eyeH := h, eyeW := w }, shadow := (s.lane l).main, recal := false, swapDue := false }).bump
        (bCLK + 0x4020 + 0x40 * l) 1) := by
  refine congrArg Host.Outcome.next ((if_pos (by simp [hl, hrecal, hlos])).trans ?_)
  rw [if_neg (Nat.not_lt.mpr hgain), if_neg (by simp [hfree, hidle]), State.recalOut_of_not_joined (by simpa using hjoin)]

theorem runs_sliceSwap_kept {h w : Nat} (hrecal : (s.lane l).recal = true) (hlos : (s.lane l).los = false)
    (hgain : h < (s.lane l).main.eyeH + 4) (hjoin : s.tel.bistLane ≠ some l) :
    Runs (.sliceSwap l h w) s (s.setLane l { s.lane l with
      shadow := { (s.lane l).shadow with eyeH := h, eyeW := w }, recal := false, swapDue := false }) := by
  refine congrArg Host.Outcome.next ((if_pos (by simp [hl, hrecal, hlos])).trans ?_)
  rw [if_pos hgain, State.recalOut_of_not_joined (by simpa using hjoin)]

theorem runs_losAssert (hlos : (s.lane l).los = false) (hjoin : s.tel.bistLane ≠ some l) :
    Runs (.losAssert l) s
      ((s.setLane l { s.lane l with los := true, recal := false, swapDue := false }).err (bCLK + 0x4018 + 0x40 * l)) :=
  (if_pos (by simp [hl, hlos])).trans
    (congrArg Host.Outcome.next (State.recalOut_of_not_joined (by simpa using hjoin) 2))

theorem runs_losDeassert (amp : Nat) (hhigh : 16 ≤ l) :
    Runs (.losDeassert l amp) s (s.setLane l { s.lane l with los := false, amp := amp % 256 }) :=
  (if_pos hl).trans (congrArg Host.Outcome.next (if_neg (Nat.not_lt.mpr hhigh)))

theorem runs_clkSdFreeze (p : Path) (on : Bool) (hgate : s.wgate p (rSdFreeze l) = true) :
    Runs (.clkSdFreeze p l on) s (s.setReg (rSdFreeze l) (if on then 1 else 0)) :=
  if_pos (by simp [hl, hgate])

end Lane

/-- Settles O15. -/
theorem lanes : Obligations.Lanes := fun _ _ hl =>
  ⟨runs_eqAdaptUpdate hl, fun _ _ hfrozen => if_neg (by simp [hfrozen]), runs_shadowRecalStart hl,
    fun _ _ => runs_sliceSwap_swapped hl, fun _ _ => runs_sliceSwap_kept hl, runs_losAssert hl, runs_losDeassert hl,
    runs_clkSdFreeze hl⟩

end Sys2Proof.Machine
end

section
/-! Domains, rails, sleep, heat and the power cap (R82 to R101). -/

namespace Sys2Proof.Machine

/-! ### Domains -/

theorem runs_pwrDomReq {p : Path} {d : Nat} {s : State} (on : Bool) (h1 : 1 ≤ d) (h14 : d ≤ 14)
    (hgate : s.wgate p (rDomReq d) = true) :
    Runs (.pwrDomReq p d on) s ((s.domReqWrite (decide (p = .host)) d on).pakSync).bistSync :=
  if_pos (by simp [h1, h14, hgate])

theorem State.domReqWrite_off_on {s : State} {d : Nat} (host : Bool) (h : (s.dom d).state = .off) :
    s.domReqWrite host d true = (s.setDomReq d true).domTo d { s.dom d with waiting := true } := by
  simp [State.domReqWrite, h]

theorem State.domReqWrite_draining_off {s : State} {d : Nat} (host : Bool) (h : (s.dom d).state = .draining) :
    s.domReqWrite host d false = s.setDomReq d false := by
  simp [State.domReqWrite, h]

/-- R86: the host may not switch off its own domain. -/
theorem State.domReqWrite_on_off_host {s : State} (h : (s.dom 1).state = .on) :
    s.domReqWrite true 1 false = (s.setDomReq 1 false).refuseOff 1 := by
  simp [State.domReqWrite, h, State.offRequest]

/-- R82: the lowest waiting domain, while no other is powering. -/
theorem runs_domainPoweringStart {d : Nat} {s : State} (hboot : s.bootRuns = true) (hwait : (s.dom d).waiting = true)
    (hfall : (s.dom d).fallingOff = false) (hother : ∀ e ∈ span 1 14, (s.dom e).state ≠ .powering)
    (hlower : ∀ e ∈ span 1 (d - 1), (s.dom e).waiting = false ∨ (s.dom e).fallingOff = true) :
    Runs (.domainPoweringStart d) s (s.domTo d { s.dom d with state := .powering, waiting := false }) := by
  have hother' : (span 1 14).any (fun e => decide ((s.dom e).state = .powering)) = false := by
    simpa [List.any_eq_false] using hother
  have hlower' : (span 1 (d - 1)).any (fun e => (s.dom e).waiting && !(s.dom e).fallingOff) = false := by
    rw [List.any_eq_false]
    intro e he
    rcases hlower e he with h | h <;> simp [h]
  exact if_pos (by rw [hboot, hwait, hfall, hother', hlower']; rfl)

theorem runs_domainPowerOnDone {d : Nat} {s u : State} (hpow : (s.dom d).state = .powering) (hd : d ≠ 3)
    (hu : u = (s.domTo d { s.dom d with state := .on, waiting := false }).domGain d) (hreq : u.domReq d = true) :
    Runs (.domainPowerOnDone d) s u.pakSync.bistSync.retryWaiting := by
  refine (if_pos hpow).trans ?_
  simp only [← hu, hd, decide_false, State.whenB, Bool.false_eq_true, if_false, hreq, if_true]

/-- R83: no started command of the domain is left. -/
theorem runs_domainDrainDone {d : Nat} {s : State} (hdrain : (s.dom d).state = .draining)
    (hdone : ∀ n ∈ domBays d, ∀ t ∈ s.tasksOn n, ∀ x, s.task t = some x → x.started = false ∨ x.finished = true) :
    Runs (.domainDrainDone d) s (s.domToOff d).pakSync.bistSync := by
  have hidle : (domBays d).any (fun n => (s.tasksOn n).any (fun t => match s.task t with
      | some x => x.started && !x.finished
      | none => false)) = false := by
    simp only [List.any_eq_false]
    intro n hn ht
    obtain ⟨t, htask, hbusy⟩ := List.any_eq_true.mp ht
    rcases hx : s.task t with _ | x
    · simp [hx] at hbusy
    · rcases hdone n hn t htask x hx with h | h <;> simp [hx, h] at hbusy
  refine if_pos ?_
  rw [Bool.and_eq_true]
  exact ⟨decide_eq_true hdrain, by rw [Bool.not_eq_true']; exact hidle⟩

theorem runs_domainOffScanDone {d : Nat} {s : State} (hscan : (s.dom d).scan = true) (hon : (s.dom d).state = .on) :
    Runs (.domainOffScanDone d) s (if s.dieOwned (d - 6) || s.holdsHalted d then s.refuseOff d else s.beginDrain d) :=
  (if_pos (by simp [hscan, hon])).trans (apply_ite Host.Outcome.next _ _ _).symm

/-- Settles O16. -/
theorem powerDomains : Obligations.PowerDomains := by
  refine ⟨fun p d s h1 h14 hgate => ⟨fun hoff => ?_, fun hdrain => ?_, fun hon hp hd => ?_⟩,
    fun d s => runs_domainPoweringStart, fun d s u => runs_domainPowerOnDone, fun d s => runs_domainDrainDone,
    fun d s hdrain => if_pos hdrain, fun d s => rfl, fun d s hscan hon => ⟨fun hown => ?_, fun hown hhalt => ?_⟩⟩
  · simpa only [State.domReqWrite_off_on _ hoff] using runs_pwrDomReq true h1 h14 hgate
  · simpa only [State.domReqWrite_draining_off _ hdrain] using runs_pwrDomReq false h1 h14 hgate
  · subst hp hd
    have hrun := runs_pwrDomReq false h1 h14 hgate
    rwa [decide_eq_true rfl, State.domReqWrite_on_off_host hon] at hrun
  · simpa [hown] using runs_domainOffScanDone hscan hon
  · simpa [hown, hhalt] using runs_domainOffScanDone hscan hon

/-! ### Rails, sleep and wake -/

/-- Settles O17. -/
theorem supplyRails : Obligations.SupplyRails := by
  refine ⟨fun ok s hsby => if_neg (by simp [hsby]), fun s hsby => if_pos hsby, fun s => ?_,
    fun s hsby hen hpg => if_pos (by simp [hsby, hen, hpg]), fun s hpg hen => ?_, fun s hpg hen => ?_,
    fun s hsby hen hpg hporst hstraps => ?_⟩
  · obtain ⟨-, -, -, -, hfuses, -⟩ := s.coldReset_frame
    exact ⟨_, rfl, rfl, rfl, rfl, rfl, congrArg (fun f => ({ fuses := f } : Vlt)) hfuses, rfl,
      State.coldReset_flash_of_idle, s.flashAbort_frame.2.2.2.2.2.1⟩
  · refine (if_neg (by simp [hpg])).trans ?_
    simp only [hen, if_true]
  · refine (if_neg (by simp [hpg])).trans ?_
    simp only [hen, Bool.false_eq_true, if_false]
  · exact (if_pos (by simp [hsby, hen, hpg])).trans (congrArg Host.Outcome.next (if_pos (by simp [hporst, hstraps])))

theorem runs_wakeComparatorFire {b : WakeBit} {s : State} (hsby : s.pins.sby = true)
    (hin : 5 ≤ b.val → s.powered 3 = false) {u : State}
    (hu : u = (s.setBits rWakeStat (2 ^ b.val)).whenB s.pwr.sleepEntry
      (fun s => { s with aon := { s.aon with firedSince := s.aon.firedSince ||| 2 ^ b.val } })) :
    Runs (.wakeComparatorFire b) s
      (if wbit u.aon.wakeCfg b.val && u.aon.asleep && !u.pins.thermTrip then u.wake else u) := by
  subst hu
  exact if_neg (by simpa [hsby] using hin)

/-- Settles O18. -/
theorem sleepAndWake : Obligations.SleepAndWake := by
  refine ⟨fun p s hgate hno => if_pos (by simp [hgate, hno]), fun s hslp hflush hfl => ⟨fun hz => ?_, fun hnz => ?_⟩,
    fun s hslp hfl => if_pos (by simp [hslp, hfl]), fun b s hsby hin hslp hasleep htrip hcfg => ?_,
    fun b s hsby hin hslp hasleep => ?_, fun b s hb hpow => if_pos (by simp [hb, hpow]),
    fun p v s hgate => ⟨if_pos (by simp [hgate]), if_neg (by simp)⟩, fun s hsby => if_pos hsby⟩
  · exact (if_pos (by simp [hslp, hflush, hfl])).trans (if_neg (not_not_intro hz))
  · exact (if_pos (by simp [hslp, hflush, hfl])).trans (if_pos hnz)
  · have hrun := runs_wakeComparatorFire hsby hin rfl
    simpa [State.whenB, hslp, hasleep, htrip, hcfg] using hrun
  · have hrun := runs_wakeComparatorFire hsby hin rfl
    simpa [State.whenB, hslp, hasleep] using hrun

/-! ### Power failure, heat and the power cap -/

/-- What reads the configuration alone is the same in states with the same staging unit. -/
theorem State.cf_congr {s t : State} (h : t.stg = s.stg) (a hi lo : Nat) : t.cf a hi lo = s.cf a hi lo := by
  unfold State.cf State.cfg State.cfgTbl State.gen
  rw [h]

theorem State.foldl_setDom_stg (f : State → Nat → Dom) (l : List Nat) (s : State) :
    (l.foldl (fun s d => s.setDom d (f s d)) s).stg = s.stg := by
  induction l generalizing s with
  | nil => rfl
  | cons d l ih => exact ih _

theorem runs_thermalTick_decided {a b c : Int} {s u v w : State} {x y : Bool} (hcfg : s.cfg (bPWR + 0x10) ≠ 0)
    (hcal : s.boot.cal = 1) (hu : u = { s with pwr := { s.pwr with cd0Temp := a, cd1Temp := b, iodTemp := c } })
    (h0 : u.thermStep 0 a s.pwr.cd0Ceil = (v, x)) (h1 : v.thermStep 1 b v.pwr.cd1Ceil = (w, y)) :
    Runs (.thermalTick a b c) s (if x || y then w.bump (bPWR + 0x48) 1 else w) := by
  have hcal' : u.boot.cal = 1 := by rw [hu, hcal]
  have hceil : u.pwr.cd0Ceil = s.pwr.cd0Ceil := by rw [hu]
  show execThermalTick a b c s = _
  unfold execThermalTick
  rw [← hu]
  refine (if_neg (by rw [hu]; exact hcfg)).trans ?_
  simp only [hcal', hceil, if_true, Int.add_zero, h0, h1]
  rfl

/-- R101: the estimates are noted; without a cap nothing follows, and well below it the islands rise. -/
theorem runs_powerCapTick {power : Nat} {dom : List Nat} {s u : State}
    (hu : u = (span 1 14).foldl (fun s d => s.setDom d { s.dom d with power := dom.getD (d - 1) 0 % 65536 })
      { s with pwr := { s.pwr with devPower := power % 65536 } }) :
    (s.cf (bPWR + 0x10) 47 32 = 0 → Runs (.powerCapTick power dom) s u) ∧
    (s.cf (bPWR + 0x10) 47 32 ≠ 0 → 10 * power < 95 * s.cf (bPWR + 0x10) 47 32 →
      Runs (.powerCapTick power dom) s ((span 15 10).foldl (fun s i => s.capStep false i) u)) := by
  have hcap : u.cf (bPWR + 0x10) 47 32 = s.cf (bPWR + 0x10) 47 32 :=
    State.cf_congr (by rw [hu, State.foldl_setDom_stg]) _ _ _
  subst hu
  refine ⟨fun h => if_pos (hcap.trans h), fun hne hlow => ?_⟩
  refine (if_neg (by rwa [hcap])).trans ((if_neg ?_).trans (if_pos ?_)) <;> rw [hcap]
  · omega
  · exact hlow

/-- Settles O19. -/
theorem powerFailAndHeat : Obligations.PowerFailAndHeat := by
  refine ⟨fun s hrun htrip hinit => ?_, fun s u hrun htrip hinit hu => ?_, fun s => rfl, fun s hflush hpf => ?_,
    fun a b c s hcfg => if_pos hcfg, fun a b c s u v w x y => runs_thermalTick_decided, fun d s hrun hd => ?_,
    fun d s u hrun hd hu => ?_, fun s => rfl, fun d s u hrun hu => ?_, fun s htrip hdir => ?_,
    fun s htrip hdir hasleep => ?_, fun power dom s u => runs_powerCapTick⟩
  · exact (if_neg (by simp [hrun, htrip])).trans (congrArg Host.Outcome.next (if_neg (by simp [hinit])))
  · subst hu
    exact (if_neg (by simp [hrun, htrip])).trans (congrArg Host.Outcome.next (if_pos hinit))
  · refine (if_neg (by simpa [Option.isSome_iff_ne_none] using hflush)).trans ?_
    simp [State.whenB, hpf]
  · refine (if_neg (by simp [hrun])).trans ?_
    simp only [Nat.not_lt.mpr hd, if_false]
  · subst hu
    refine (if_neg (by simp [hrun])).trans ?_
    simp only [hd, if_true]
  · subst hu
    exact if_neg (by simp [hrun])
  · exact (if_pos htrip).trans (congrArg Host.Outcome.next (if_neg (by simp [hdir])))
  · exact (if_pos htrip).trans (congrArg Host.Outcome.next (if_pos (by simp [hdir, hasleep])))

end Sys2Proof.Machine
end

section
/-! What a report leaves alone. Counters, trace records, log entries, interrupts and faults of class C0 write registers, the
fault unit, the telemetry unit, the host interface and the outputs; a view of the state that looks at none of these stands. -/

namespace Sys2Proof.Machine

/-- What each step of a fold leaves alone the fold leaves alone. -/
theorem foldl_view {σ α β : Type} {φ : σ → α} {f : σ → β → σ} (hf : ∀ s x, φ (f s x) = φ s) (l : List β)
    (s : σ) : φ (l.foldl f s) = φ s := by
  induction l generalizing s with
  | nil => rfl
  | cons x l ih => exact (ih (f s x)).trans (hf s x)

/-- What both branches of a choice leave alone the choice leaves alone. -/
theorem ite_view {α : Type} {φ : State → α} (c : Prop) [Decidable c] {a b s : State} (ha : φ a = φ s) (hb : φ b = φ s) :
    φ (if c then a else b) = φ s := by
  split <;> assumption

/-- The view `φ` of a state looks at nothing that a report writes. -/
structure BlindToReports {α : Type} (φ : State → α) : Prop where
  regs : ∀ s x, φ { s with regs := x } = φ s
  flt : ∀ s x, φ { s with flt := x } = φ s
  tel : ∀ s x, φ { s with tel := x } = φ s
  hif : ∀ s x, φ { s with hif := x } = φ s
  outs : ∀ s x, φ { s with outs := x } = φ s

namespace BlindToReports
variable {α : Type} {φ : State → α} (h : BlindToReports φ) (s : State)
include h

theorem setReg (a : Nat) (v : Word) : φ (s.setReg a v) = φ s := h.regs s _
theorem err (a : Nat) : φ (s.err a) = φ s := h.regs s _
theorem bump (a n : Nat) : φ (s.bump a n) = φ s := h.regs s _
theorem setBits (a m : Nat) : φ (s.setBits a m) = φ s := h.regs s _
theorem clearRegs (lo hi : Nat) : φ (s.clearRegs lo hi) = φ s := h.regs s _
theorem setUnit (u : Nat) (x : FUnit) : φ (s.setUnit u x) = φ s := h.flt s _
theorem emit (o : Out) : φ (s.emit o) = φ s := h.outs s _

omit h in
/-- What an operation leaves alone it leaves alone when it is done on a condition. -/
theorem whenB (b : Bool) {f : State → State} (hf : ∀ t, φ (f t) = φ t) : φ (s.whenB b f) = φ s := by
  cases b
  · rfl
  · exact hf s

theorem msix (v : Nat) : φ (s.msix v) = φ s := by
  unfold State.msix
  exact ite_view _ rfl (ite_view _ (h.bump s _ _) (ite_view _ (h.hif s _) (h.emit s _)))

theorem event (e : Nat) : φ (s.event e) = φ s := by
  unfold State.event
  exact ite_view _ (h.msix s _) rfl

theorem trace (type unit : Nat) (data : List Byte) : φ (s.trace type unit data) = φ s := by
  unfold State.trace
  exact ite_view _ rfl (ite_view _ ((h.err _ _).trans (h.tel s _)) (h.tel s _))

theorem logPut (e : Nat → List Byte) : φ (s.logPut e) = φ s := by
  unfold State.logPut
  extract_lets full t b
  have ht : φ t = φ s := by
    by_cases hfull : full
    · simp only [t, if_pos hfull]
      exact (h.bump _ _ _).trans (h.setReg s _ _)
    · simp only [t, if_neg hfull]
  by_cases hfreeze : (decide full && s.cb (bFLT + 0x10) 63) = true
  · rw [if_pos hfreeze]
    exact h.err s _
  · rw [if_neg hfreeze]
    exact (h.flt t _).trans ht

theorem faultRec (cls code unit detail owner : Nat) (fl : LogFlags) :
    φ (s.faultRec cls code unit detail owner fl) = φ s := by
  calc φ (s.faultRec cls code unit detail owner fl)
    _ = _ := whenB _ _ fun t => h.tel t _
    _ = _ := h.trace _ _ _ _
    _ = _ := whenB _ _ fun t => h.event t _
    _ = _ := whenB _ _ fun t => h.setBits t _ _
    _ = _ := whenB _ _ fun t => h.err t _
    _ = _ := h.logPut _ _
    _ = _ := h.setUnit _ _ _
    _ = φ s := h.err _ _

theorem faultC0 (code unit detail owner : Nat) : φ (s.faultC0 code unit detail owner) = φ s :=
  h.faultRec s 0 code unit detail owner {}

end BlindToReports

theorem blind_mem : BlindToReports State.mem := ⟨fun _ _ => rfl, fun _ _ => rfl, fun _ _ => rfl, fun _ _ => rfl, fun _ _ => rfl⟩
theorem blind_boot : BlindToReports State.boot := ⟨fun _ _ => rfl, fun _ _ => rfl, fun _ _ => rfl, fun _ _ => rfl, fun _ _ => rfl⟩
theorem blind_pins : BlindToReports State.pins := ⟨fun _ _ => rfl, fun _ _ => rfl, fun _ _ => rfl, fun _ _ => rfl, fun _ _ => rfl⟩

end Sys2Proof.Machine
end

section
/-! Start-up, its program, and the flash commands (R109 to R132). -/

namespace Sys2Proof.Machine

/-! ### From the flash to the start-up program -/

/-- The islands and the lanes are all that a start of the clocks touches. -/
theorem restart_view {α : Type} {φ : State → α} (hclk : ∀ s x, φ { s with clk := x } = φ s) (b : Bool) (s : State) :
    φ (s.lanesReset b).restartIslands = φ s := by
  refine (foldl_view (fun t i => ?_) _ _).trans (foldl_view (fun t l => hclk t _) _ s)
  split
  · exact hclk t _
  · rfl

/-- The calibration's values go to the clocks and to the configuration. -/
theorem State.calApply_view {α : Type} {φ : State → α} (s : State) (h : ∀ s x y, φ { s with clk := x, stg := y } = φ s) :
    φ s.calApply = φ s := h s _ _

theorem blind_firstCopy : BlindToReports State.firstCopy :=
  ⟨fun _ _ => rfl, fun _ _ => rfl, fun _ _ => rfl, fun _ _ => rfl, fun _ _ => rfl⟩

theorem restart_boot (s : State) (x : Boot) : (({ s with boot := x } : State).lanesReset true).restartIslands.boot = x :=
  restart_view (φ := State.boot) (fun _ _ => rfl) _ _

theorem restart_mem (s : State) (x : Boot) : (({ s with boot := x } : State).lanesReset true).restartIslands.mem = s.mem :=
  restart_view (φ := State.mem) (fun _ _ => rfl) _ _

theorem runs_flashInitDone {octal : Bool} {n : Nat} {s u : State} (hst : s.boot.state = .flashInit) (hn : 25 ≤ n)
    (hu : u = s.vaultTests true) (hfb : (u.pins.straps.getD {}).nvmFb = false) :
    Runs (.flashInitDone true octal true n) s { u with boot := { u.boot with
      state := .cal, densLog2 := min n 27, nvClkMhz := if octal then 200 else 25, nvmMode := if octal then 1 else 3 } } := by
  subst hu
  refine (if_neg (by simp [hst])).trans ((if_pos (by simp [hn])).trans ?_)
  simp [hfb]

/-- R126, R127: the verdict on the calibration region, and the first permitted copy. -/
theorem exists_runs_calDone {s : State} (hst : s.boot.state = .cal) : ∃ t, Runs .calDone s t ∧ t.boot.state = .verify ∧
    t.boot.cal = s.calVerdict ∧ t.boot.copy = s.firstCopy ∧ t.mem = s.mem := by
  show ∃ t, execCalDone s = .next t ∧ _
  unfold execCalDone
  rw [if_neg (by simp [hst])]
  generalize s.calVerdict = v
  refine ⟨_, rfl, ?_⟩
  rw [restart_boot, restart_mem]
  refine ⟨rfl, rfl, ?_, ?_⟩
  · exact ite_view (φ := State.firstCopy) _ (s.calApply_view fun _ _ _ => rfl) (blind_firstCopy.faultC0 _ _ _ _ _)
  · exact ite_view (φ := State.mem) _ (s.calApply_view fun _ _ _ => rfl) (blind_mem.faultC0 _ _ _ _ _)

theorem exists_runs_verifyDone {s : State} (hst : s.boot.state = .verify) : ∃ t, Runs .verifyDone s t ∧
    (s.checkCopy s.boot.copy ≠ 0 → t = (s.setResult s.boot.copy (s.checkCopy s.boot.copy)).nextCopy s.boot.copy) ∧
    (s.checkCopy s.boot.copy = 0 → ∃ u : State, t = u.settle ∧
      u.boot.state = .execute ∧ u.boot.pc = 0 ∧ u.boot.retained = false ∧ u.boot.copy = s.boot.copy ∧
      u.boot.svn = s.flashLe (s.slotAddr s.boot.copy + 0xC) 4 ∧ u.mem = s.mem ∧ u.regs = s.regs) := by
  by_cases hcheck : s.checkCopy s.boot.copy = 0
  · exact ⟨_, (if_neg (by simp [hst])).trans (if_neg (by simp [hcheck])), fun h => absurd hcheck h,
      fun _ => ⟨_, rfl, rfl, rfl, rfl, rfl, rfl, rfl, rfl⟩⟩
  · exact ⟨_, (if_neg (by simp [hst])).trans (if_pos hcheck), fun _ => rfl, fun h => absurd h hcheck⟩

/-- Settles O20. -/
theorem bootFlow : Obligations.BootFlow :=
  ⟨fun _ _ _ _ hst hn hu _ hfb => runs_flashInitDone hst hn hu hfb, fun _ => exists_runs_calDone,
    fun _ => exists_runs_verifyDone,
    fun _ _ hgate => ⟨fun h => (if_pos hgate).trans (congrArg Host.Outcome.next (if_pos h)),
      fun h => (if_pos hgate).trans (congrArg Host.Outcome.next (if_neg h))⟩,
    fun _ hboot => if_pos hboot⟩

/-! ### The records of the start-up program -/

/-- A row of a record does its work where the program stands at a record of its operation. -/
theorem State.recordOp_at {s : State} {op : Nat} {r : Rec} (h : s.atRecord op r) (f : Rec → State → State) :
    s.recordOp op f = f r s := by
  obtain ⟨hcur, hop⟩ := h
  simp [State.recordOp, hcur, hop]

theorem runs_poll32 {r : Rec} {s t : State} {v : Nat} (h : s.atRecord 3 r) (hread : s.barRead .boot r.bar 4 = (t, some v)) :
    Runs .poll32 s (if v &&& (r.data / 2 ^ 32) = r.data % 2 ^ 32 then t.nextRec else t) := by
  refine congrArg Host.Outcome.next ((State.recordOp_at h _).trans ?_)
  simp only [hread]

/-- R116: a section whose target can take it is stored, and then its digest decides. -/
theorem runs_loadRec {r : Rec} {s : State} {x : Section} (h : s.atRecord 5 r) (hplay : s.boot.replay = false)
    (hx : s.boot.sections[r.arg]? = some x) :
    Runs .loadRec s (if s.loadable x.target x.len = true then
        (if s.digestOk x then (s.store x.target (s.flashRd x.addr x.len)).nextRec
          else (s.store x.target (s.flashRd x.addr x.len)).recFail 8)
      else s.recFail 10) := by
  refine congrArg Host.Outcome.next ((State.recordOp_at h _).trans ?_)
  cases hload : s.loadable x.target x.len <;> simp [hplay, hx, hload]

/-- Settles O21. -/
theorem startUpProgram : Obligations.StartUpProgram := by
  refine fun r s => ⟨fun h => ?_, fun h => ?_, fun t v h hread => ⟨fun hm => ?_, fun hm => ?_⟩, fun h => ?_, fun h => ?_,
    fun x h hplay hx => ⟨fun hload u hu => ?_, fun hload => ?_⟩, fun h hplay => ?_, fun u h hu => ?_⟩
  · exact congrArg Host.Outcome.next (State.recordOp_at h _)
  · exact congrArg Host.Outcome.next (State.recordOp_at h _)
  · simpa only [if_pos hm] using runs_poll32 h hread
  · simpa only [if_neg hm] using runs_poll32 h hread
  · exact congrArg Host.Outcome.next (State.recordOp_at h _)
  · exact congrArg Host.Outcome.next (State.recordOp_at h _)
  · subst hu
    simpa only [if_pos hload] using runs_loadRec h hplay hx
  · simpa only [hload, Bool.false_eq_true, if_false] using runs_loadRec h hplay hx
  · exact congrArg Host.Outcome.next ((State.recordOp_at h _).trans (if_pos hplay))
  · subst hu
    exact congrArg Host.Outcome.next (State.recordOp_at h _)

/-! ### Flash commands -/

/-- The row of each flash command writes its operation. -/
theorem runs_flash {p : Path} {s : State} (hgate : s.wgate p (bNVC + 0x108) = true) :
    Runs (.flashRead p) s (s.flCmd .read) ∧ Runs (.flashProgram p) s (s.flCmd .program) ∧
    Runs (.flashErase p) s (s.flCmd .erase) ∧ Runs (.flashStatus p) s (s.flCmd .status) :=
  ⟨if_pos hgate, if_pos hgate, if_pos hgate, if_pos hgate⟩

theorem State.flCmd_busy {s : State} (op : FlOp) (h : s.boot.flBusy.isSome = true) :
    s.flCmd op = s.setBits (bNVC + 0x110) (2 ^ 30) := if_pos h

/-- A read and a status command touch no flash byte, so that no lock holds them (R130). -/
theorem State.flLocked_of_no_span (s : State) {op : FlOp} (h : flSpan op = 0) (a : Nat) : s.flLocked op a = false := by
  simp [State.flLocked, h]

section FlashIdle
variable {s : State} (hidle : s.boot.flBusy = none) (hst : s.boot.state = .running ∨ s.boot.state = .noImage)
include hidle hst

theorem State.flCmd_idle (op : FlOp)
    (haddr : op = .status ∨ ((s.reg (bNVC + 0x100)).toNat % (if op = .erase then 65536 else 256) = 0 ∧
      (s.reg (bNVC + 0x100)).toNat < s.flashSize)) :
    s.flCmd op = if s.flLocked op (s.reg (bNVC + 0x100)).toNat then s.flEnd op 1
      else { s with boot := { s.boot with flBusy := some op, flAddr := (s.reg (bNVC + 0x100)).toNat } } := by
  have hgood : ¬ (decide (op ≠ .status) && (decide ((s.reg (bNVC + 0x100)).toNat % (if op = .erase then 65536 else 256) ≠ 0) ||
      decide (s.flashSize ≤ (s.reg (bNVC + 0x100)).toNat))) = true := by
    rcases haddr with rfl | ⟨hmod, hlt⟩
    · simp
    · simp [hmod, hlt]
  refine (if_neg (by simp [hidle])).trans ((if_neg (by rcases hst with h | h <;> simp [h])).trans (if_neg hgood))

end FlashIdle

/-- Settles O22. -/
theorem flashCommands : Obligations.FlashCommands := by
  refine ⟨fun p s hgate => ⟨fun hbusy => ?_, fun hidle hst => ⟨⟨s.flLocked_of_no_span rfl _, ?_⟩, ?_⟩⟩, fun st s h => ?_,
    fun st s h => ?_, fun st s h => ?_, fun st s h => ?_, fun s h => ?_, fun s h => ?_⟩
  · simpa only [State.flCmd_busy _ hbusy] using runs_flash hgate
  · obtain ⟨-, -, -, hstatus⟩ := runs_flash hgate
    simpa [State.flCmd_idle hidle hst .status (.inl rfl), s.flLocked_of_no_span (op := .status) rfl] using hstatus
  · rintro a rfl hlt
    obtain ⟨hread, hprogram, herase, -⟩ := runs_flash hgate
    refine ⟨fun hmod => ?_, fun hmod hfree => ?_, fun hmod hfree => ?_, fun hmod hlock => ?_, fun hmod hlock => ?_⟩
    · simpa [State.flCmd_idle hidle hst .read (.inr ⟨hmod, hlt⟩), s.flLocked_of_no_span (op := .read) rfl] using hread
    · simpa [State.flCmd_idle hidle hst .program (.inr ⟨hmod, hlt⟩), hfree] using hprogram
    · simpa [State.flCmd_idle hidle hst .erase (.inr ⟨hmod, hlt⟩), hfree] using herase
    · simpa [State.flCmd_idle hidle hst .program (.inr ⟨hmod, hlt⟩), hlock] using hprogram
    · simpa [State.flCmd_idle hidle hst .erase (.inr ⟨hmod, hlt⟩), hlock] using herase
  · show execFlashCmdDone st s = _
    simp only [execFlashCmdDone, h]
  · show execFlashCmdDone st s = _
    simp only [execFlashCmdDone, h]
  · show execFlashCmdDone st s = _
    simp only [execFlashCmdDone, h]
  · show execFlashCmdDone st s = _
    simp only [execFlashCmdDone, h]
  · show execFlashCmdTimeout s = _
    simp only [execFlashCmdTimeout, h]
  · show execFlashCmdTimeout s = _
    simp only [execFlashCmdTimeout, h]

end Sys2Proof.Machine
end

section
/-! The course of a commit (R139 to R155). -/

namespace Sys2Proof.Machine

theorem runs_stgCommit {p : Path} {s : State} (hgate : s.wgate p bSTG = true) : Runs (.stgCommit p) s (s.commitGo p) :=
  if_pos hgate

theorem runs_stgDiscard {p : Path} {s : State} (hgate : s.wgate p (bSTG + 8) = true) :
    Runs (.stgDiscard p) s (s.discardGo p) := if_pos hgate

/-- The set is the path's own, or nobody's. -/
theorem not_foreign {s : State} {p : Path} (h : s.stg.owner = none ∨ s.stg.owner = some p) :
    ¬ (s.stg.owner.isSome && decide (s.stg.owner ≠ some p)) = true := by
  rcases h with h | h <;> simp [h]

theorem foreign {s : State} {p : Path} (h : ∃ q, s.stg.owner = some q ∧ q ≠ p) :
    (s.stg.owner.isSome && decide (s.stg.owner ≠ some p)) = true := by
  obtain ⟨q, hq, hne⟩ := h
  simp [hq, hne]

section CheckEnd
variable {s : State} (hst : s.stg.state = .check)
include hst

/-- R141: a set without a failing check goes on to APPLY, or waits for a generation to retire. -/
theorem runs_commitCheckEnd_passed (hpass : (s.stg.set = [] ∧ s.stg.overflow = false) ∨ s.firstFail = none) :
    Runs .commitCheckEnd s (if s.stg.gens.length < 4 then { s with stg := { s.stg with state := .apply } }
      else if wfld (s.reg (bSTG + 0x30)) 15 0 = 0 then s.commitEnd .busy 0
      else { s with stg := { s.stg with state := .wait, waitLimit := wfld (s.reg (bSTG + 0x30)) 15 0 } }) := by
  have hnone : (if (s.stg.set.isEmpty && !s.stg.overflow) = true then none else s.firstFail) = none := by
    rcases hpass with ⟨hset, hov⟩ | hfail
    · simp [hset, hov]
    · simp [hfail]
  refine (if_neg (by simp [hst])).trans ?_
  simp only [hnone, apply_ite Host.Outcome.next]

/-- R148: the lowest failing check rejects the set. -/
theorem runs_commitCheckEnd_failed {id a : Nat} (hset : s.stg.set ≠ []) (hfail : s.firstFail = some (id, a)) (hid : id ≠ 0x0100) :
    Runs .commitCheckEnd s ({ s with stg := { s.stg with rejId := id, rejOff := a } }.commitEnd .rejected id) := by
  have hsome : (if (s.stg.set.isEmpty && !s.stg.overflow) = true then none else s.firstFail) = some (id, a) := by
    simp [hset, hfail]
  refine (if_neg (by simp [hst])).trans ?_
  simp only [hsome, if_neg hid]

end CheckEnd

/-- Settles O23. -/
theorem commits : Obligations.Commits := by
  refine ⟨fun p s hgate => ⟨fun hidle hown => ?_, fun hidle hfor => ?_⟩, fun p s hgate => ⟨fun hidle hown => ?_, fun hidle hfor => ?_⟩,
    fun s hst hpass => ⟨fun hroom => ?_, fun hfull hlim => ?_, fun hfull hlim => ?_⟩,
    fun id a s hst => runs_commitCheckEnd_failed hst, fun s hst hroom => if_pos (by simp [hst, hroom]),
    fun s hst => if_pos hst, fun s hst hboot => if_pos (by simp [hst, hboot])⟩
  · have hrun := runs_stgCommit hgate
    rwa [State.commitGo, if_neg (by simp [hidle]), if_neg (not_foreign hown)] at hrun
  · have hrun := runs_stgCommit hgate
    rwa [State.commitGo, if_neg (by simp [hidle]), if_pos (foreign hfor)] at hrun
  · have hrun := runs_stgDiscard hgate
    rwa [State.discardGo, if_neg (by simp [hidle]), if_neg (not_foreign hown)] at hrun
  · have hrun := runs_stgDiscard hgate
    rwa [State.discardGo, if_neg (by simp [hidle]), if_pos (foreign hfor)] at hrun
  · simpa only [if_pos hroom] using runs_commitCheckEnd_passed hst hpass
  · simpa only [if_neg (Nat.not_lt.mpr hfull), if_neg hlim] using runs_commitCheckEnd_passed hst hpass
  · simpa only [if_neg (Nat.not_lt.mpr hfull), if_pos hlim] using runs_commitCheckEnd_passed hst hpass

end Sys2Proof.Machine
end

section
/-! The services and events of the Vault (R158 to R184). -/

namespace Sys2Proof.Machine

/-- A request that the Vault's state and the path's role allow is served. -/
theorem State.serve_of_asks {s : State} {dbg : Bool} {c : Nat} {need : Need} (h : s.asks dbg c need) (f : State → State) :
    s.serve dbg c need f = f s := by
  obtain ⟨his, hopen, hmay⟩ := h
  simp [State.serve, his, hopen, hmay]

/-- A row that serves one request does the service's work, where the service is asked for. -/
theorem next_serve {s t : State} {dbg : Bool} {c : Nat} {need : Need} (h : s.asks dbg c need) {f : State → State}
    (hf : f s = t) : (Host.Outcome.next (s.serve dbg c need f) : Host.Outcome State Fault Refusal) = .next t :=
  congrArg Host.Outcome.next ((State.serve_of_asks h f).trans hf)

/-! ### Sessions -/

theorem exists_runs_authBegin {dbg : Bool} {s : State} (h : s.asks dbg 0x02 .any) (hopen : (s.vpath dbg).locked = false) :
    ∃ n : List Byte, n.length = 32 ∧ ∃ u : State,
      Runs (.authBegin dbg) s ((u.setVpath dbg { u.vpath dbg with nonce := some n, nonceAt := u.spine }).mbxRespond dbg stOK n) ∧
      u.vlt.drbgReqs = s.vlt.drbgReqs + 1 ∧ u.regs = s.regs ∧ u.mem = s.mem ∧ u.vpath dbg = s.vpath dbg :=
  ⟨(List.range 32).map (Config.drbg s.free), by simp, _,
    next_serve h (if_neg (by simp [hopen])), rfl, rfl, rfl, rfl⟩

theorem runs_authProve_without_nonce {dbg : Bool} {s : State} (h : s.asks dbg 0x03 .any)
    (hopen : (s.vpath dbg).locked = false) (hn : (s.vpath dbg).nonce = none) :
    Runs (.authProve dbg) s (((s.setVpath dbg { s.vpath dbg with
      fails := (s.vpath dbg).fails + 1
      locked := match s.authLimit with | some l => decide (l ≤ (s.vpath dbg).fails + 1) | none => false }).err
        (bVLT + 0x40)).mbxRespond dbg stAUTH_FAIL []) := by
  refine next_serve h ((if_neg (by simp [hopen])).trans ?_)
  simp only [hn, Bool.false_eq_true, if_false] <;> rfl

/-- R161 to R163: the proof is judged by the nonce's age, the key hash of the policy and the signature. -/
theorem runs_authProve {dbg : Bool} {s : State} {n p : List Byte} (h : s.asks dbg 0x03 .any)
    (hopen : (s.vpath dbg).locked = false) (hn : (s.vpath dbg).nonce = some n) (hp : s.vlt.policy = some p) :
    Runs (.authProve dbg) s
      (if s.spine - (s.vpath dbg).nonceAt ≤ 20000000000 ∧
          policyHash p (s.mbxF dbg 0 1) (s.mbxF dbg 1 1) = some (Config.sha384 (s.mbxBytes dbg 12 97)) ∧
          Config.ecdsaVerify (s.mbxBytes dbg 12 97)
            (n ++ leBytes 1 (s.mbxF dbg 0 1) ++ leBytes 1 (if dbg then 1 else 0) ++ leBytes 8 Config.deviceId.toNat)
            (s.mbxBytes dbg 112 48) (s.mbxBytes dbg 160 48) = true then
        (s.setVpath dbg { s.vpath dbg with
          sess := some (if s.mbxF dbg 0 1 = 1 then .co else .user), nonce := none, fails := 0 }).mbxRespond dbg stOK []
      else ((s.setVpath dbg { s.vpath dbg with
        nonce := none, fails := (s.vpath dbg).fails + 1
        locked := match s.authLimit with | some l => decide (l ≤ (s.vpath dbg).fails + 1) | none => false }).err
          (bVLT + 0x40)).mbxRespond dbg stAUTH_FAIL []) := by
  refine next_serve h ((if_neg (by simp [hopen])).trans ?_)
  simp only [hn, hp, Bool.and_eq_true, decide_eq_true_eq, and_assoc] <;> rfl

/-- Settles O25. -/
theorem vaultSessions : Obligations.VaultSessions := fun dbg s =>
  ⟨fun h => next_serve h rfl, exists_runs_authBegin, fun h hlock => next_serve h (if_pos hlock),
    runs_authProve_without_nonce, fun _ _ => runs_authProve, fun h => next_serve h rfl, rfl, rfl,
    fun hfront hbad => if_pos (by simpa [hfront, or_assoc] using hbad)⟩

/-! ### Keys and random bytes -/

theorem runs_kekImport {dbg : Bool} {s : State} (h : s.asks dbg 0x10 .co) (hi : s.mbxF dbg 0 1 < 16)
    (howner : s.vlt.fuses.ownerSet = true) (hdec : s.vlt.fuses.decommissioned = false) :
    Runs (.kekImport dbg) s (match Config.kwUnwrap s.vlt.fuses.ownerKey (s.mbxBytes dbg 12 48) with
      | none => s.mbxRespond dbg stAUTH_FAIL []
      | some b =>
        if leNat (b.drop 32 |>.take 1) = s.mbxF dbg 0 1 ∧ leNat (b.drop 33) = 1 then
          { s with vlt := { s.vlt with kek := tset none s.vlt.kek (s.mbxF dbg 0 1) (some (b.take 32)) } }.mbxRespond dbg stOK []
        else s.mbxRespond dbg stINVALID []) := by
  refine next_serve h ((if_neg (by simpa using hi)).trans ((if_neg (by simp [howner, hdec])).trans ?_))
  cases Config.kwUnwrap s.vlt.fuses.ownerKey (s.mbxBytes dbg 12 48) with
  | none => rfl
  | some b =>
    by_cases hb : leNat (b.drop 32 |>.take 1) = s.mbxF dbg 0 1 ∧ leNat (b.drop 33) = 1
    · simp [hb]
    · have hb' : (decide (leNat (b.drop 32 |>.take 1) ≠ s.mbxF dbg 0 1) || decide (leNat (b.drop 33) ≠ 1)) = true := by
        rw [Bool.or_eq_true, decide_eq_true_eq, decide_eq_true_eq]
        exact Decidable.not_and_iff_not_or_not.1 hb
      simp only [hb, hb', if_true, if_false]

section KeySlots
variable {dbg : Bool} {s : State}

/-- R171: the unwrapped key fills its slot, which gains a generation. -/
theorem exists_runs_keyLoad {kek : List Byte} (h : s.asks dbg 0x20 .user) (hi : s.mbxF dbg 0 2 < 4096)
    (hk : s.mbxF dbg 2 1 < 16) (hdec : s.vlt.fuses.decommissioned = false)
    (hkek : tget none s.vlt.kek (s.mbxF dbg 2 1) = some kek) : ∃ t, Runs (.keyLoad dbg) s t ∧
      (Config.kwUnwrap kek (s.mbxBytes dbg 12 48) = none → t = s.mbxRespond dbg stAUTH_FAIL []) ∧
      (∀ b, Config.kwUnwrap kek (s.mbxBytes dbg 12 48) = some b → ∃ u : State,
        t = u.mbxRespond dbg stOK (leBytes 4 (u.vlt.slotGen (s.mbxF dbg 0 2))) ∧
        u.vlt.keys = (s.vlt.setSlot (s.mbxF dbg 0 2) (some
          { key := b.take 32, kek := s.mbxF dbg 2 1, dataset := leNat (b.drop 32 |>.take 4), epoch := leNat (b.drop 36 |>.take 2) })).keys ∧
        u.vlt.fuses = s.vlt.fuses ∧ u.vlt.kek = s.vlt.kek ∧ u.mem = s.mem ∧ u.regs = s.regs) := by
  have hgood : ¬ (decide (s.mbxF dbg 0 2 ≥ 4096) || decide (s.mbxF dbg 2 1 ≥ 16)) = true := by simp [hi, hk]
  refine ⟨_, next_serve h ((if_neg hgood).trans (if_neg (by simp [hdec]))), fun hnone => ?_, fun b hb => ?_⟩
  · simp only [hkek, hnone]
  · simp only [hkek, hb]
    exact ⟨_, rfl, rfl, rfl, rfl, rfl, rfl⟩

theorem runs_keyLoad_decommissioned (h : s.asks dbg 0x20 .user) (hi : s.mbxF dbg 0 2 < 4096)
    (hk : s.mbxF dbg 2 1 < 16) (hdec : s.vlt.fuses.decommissioned = true) :
    Runs (.keyLoad dbg) s (s.mbxRespond dbg stDENIED []) :=
  next_serve h ((if_neg (by simp [hi, hk])).trans (if_pos hdec))

theorem exists_runs_getRandom (h : s.asks dbg 0x30 .user) (hn : s.mbxF dbg 0 4 ≤ 1024) :
    ∃ (b : List Byte) (u : State), b.length = s.mbxF dbg 0 4 ∧
      Runs (.getRandom dbg) s (u.mbxRespond dbg stOK b) ∧ u.vlt.drbgReqs = s.vlt.drbgReqs + 1 ∧ u.mem = s.mem ∧ u.regs = s.regs :=
  ⟨(List.range (s.mbxF dbg 0 4)).map (Config.drbg s.free), _, by simp,
    next_serve h (if_neg (Nat.not_lt.mpr hn)), rfl, rfl, rfl⟩

end KeySlots

/-- Settles O26. -/
theorem vaultKeys : Obligations.VaultKeys := by
  refine fun dbg s => ⟨runs_kekImport, fun h hi => next_serve h (if_neg (Nat.not_le.mpr hi)), fun kek => exists_runs_keyLoad,
    runs_keyLoad_decommissioned, fun u h hi hu => ?_, fun h hi hkey => ?_, fun k h hi hkey => ?_, exists_runs_getRandom⟩
  · subst hu
    exact next_serve h (if_neg (Nat.not_le.mpr hi))
  · refine next_serve h ((if_neg (Nat.not_le.mpr hi)).trans ?_)
    simp only [hkey]
  · refine next_serve h ((if_neg (Nat.not_le.mpr hi)).trans ?_)
    simp only [hkey]

/-! ### Fuses -/

/-- Settles O27: each service by the test that decides it. -/
theorem vaultFuses : Obligations.VaultFuses := by
  refine fun dbg s => ⟨fun h hi => ⟨fun hnew => ?_, fun hold => ?_⟩, fun h hi => ⟨fun hrun hslot => ?_, fun hrun hleft => ?_⟩,
    fun h hmax hrun hmin => ?_, fun h hmax hrun => ?_, fun h => next_serve h rfl, fun h hset happ => ?_, fun h hset => ?_,
    fun h hlock hset => ?_, fun h hset => ?_⟩
  · exact next_serve h ((if_neg (Nat.not_le.mpr hi)).trans (if_neg (by simp [hnew])))
  · exact next_serve h ((if_neg (Nat.not_le.mpr hi)).trans (if_pos hold))
  · exact next_serve h ((if_neg (Nat.not_le.mpr hi)).trans (if_pos (by simp [hrun, hslot])))
  · exact next_serve h ((if_neg (Nat.not_le.mpr hi)).trans (if_neg (by simpa [hrun] using hleft)))
  · exact next_serve h ((if_neg (Nat.not_lt.mpr hmax)).trans (if_neg (by simp [hrun, hmin])))
  · exact next_serve h ((if_neg (Nat.not_lt.mpr hmax)).trans (if_pos (by simp [hrun])))
  · exact next_serve h (if_neg (by simp [hset, happ]))
  · exact next_serve h (if_pos (by simp [hset]))
  · exact next_serve h (if_pos (by simp [hlock, hset]))
  · exact next_serve h (if_neg (by simp [hset]))

/-! ### Zeroisation, tamper and self-tests -/

/-- The tamper sources that can fire: the pin while enabled, the supply once its detector is armed (R183, R697). -/
theorem tamper_source_live {x : Fin 4} {s : State} (hsby : s.pins.sby = true) (h0 : x = 0 → s.vlt.pinEn = true)
    (h1 : x = 1 → s.aon.sbyArmed = true) :
    ¬ (!s.pins.sby || (decide (x = 0) && !s.vlt.pinEn) || (decide (x = 1) && !s.aon.sbyArmed)) = true := by
  by_cases hx0 : x = 0
  · simp [hsby, hx0, h0 hx0]
  · by_cases hx1 : x = 1
    · simp [hsby, hx1, h1 hx1]
    · simp [hsby, hx0, hx1]

section TamperEvent
variable {x : Fin 4} {s : State} (hsby : s.pins.sby = true) (h0 : x = 0 → s.vlt.pinEn = true)
  (h1 : x = 1 → s.aon.sbyArmed = true)
include hsby h0 h1

theorem runs_tamperEvent_down (hrun : s.mainRunning = false) (hwake : s.aon.asleep = false ∨ wbit s.aon.wakeCfg 3 = false) :
    Runs (.tamperEvent x) s { s with vlt := { s.vlt.zeroise with
      tamper := s.vlt.zeroise.tamper ||| 2 ^ x.val, state := .tampered, tamperDue := true } } := by
  refine (if_neg (tamper_source_live hsby h0 h1)).trans ?_
  simp only [hrun, Bool.not_false, Bool.false_eq_true, if_false]
  exact congrArg Host.Outcome.next (if_neg (by rcases hwake with h | h <;> simp [h]))

theorem runs_tamperEvent_up {u : State} (hrun : s.mainRunning = true)
    (hu : u = { s with vlt := { s.vlt.zeroise with
      tamper := s.vlt.zeroise.tamper ||| 2 ^ x.val, state := .tampered, tamperDue := false } })
    (hwake : (u.faultC3 0x13 uVLT).aon.asleep = false) : Runs (.tamperEvent x) s (u.faultC3 0x13 uVLT) := by
  refine (if_neg (tamper_source_live hsby h0 h1)).trans ?_
  simp only [hrun, Bool.not_true, if_true, ← hu, hwake, Bool.false_and, Bool.false_eq_true, if_false]

end TamperEvent

/-- Settles O28. -/
theorem vaultTamper : Obligations.VaultTamper := by
  refine ⟨fun dbg s => ⟨fun h => next_serve h rfl, fun h hst => ?_, fun n hn h => next_serve h (if_pos hn), fun h => ?_,
      fun h => next_serve h rfl, fun h => next_serve h rfl⟩, fun s => rfl, fun s hsby => if_pos hsby,
    fun x s hsby h0 h1 => runs_tamperEvent_down hsby h0 h1,
    fun x s hsby h0 h1 hrun _ u hu => runs_tamperEvent_up hsby h0 h1 hrun hu⟩
  · refine next_serve h ((if_neg (by simp)).trans ?_)
    simp only [hst, if_true]
  · exact ⟨_, next_serve h rfl, rfl, rfl, rfl, rfl⟩

end Sys2Proof.Machine
end

section
/-! Device memory reads back what was written; scrubbing and repair (R191 to R204). -/

namespace Sys2Proof.Machine

/-! ### Bytes of memory -/

/-- A read looks at the bytes and at the undefined ranges only. -/
theorem Mem.rd_congr {m n : Mem} (hb : n.bytes = m.bytes) (hw : n.wild = m.wild) (a : Nat) : n.rd a = m.rd a := by
  simp only [Mem.rd, Mem.unlisted, hb, hw]

theorem Mem.touchInit_view {α : Type} {φ : Mem → α} (h : ∀ m x, φ { m with init := x } = φ m) (m : Mem) (a : Nat) :
    φ (m.touchInit a) = φ m := by
  unfold Mem.touchInit
  split
  · exact h m _
  · rfl

theorem Mem.cleanLines_view {α : Type} {φ : Mem → α} (h : ∀ m x, φ { m with poison := x } = φ m) (m : Mem) (a n : Nat) :
    φ (m.cleanLines a n) = φ m :=
  foldl_view (fun m _ => h m _) _ m

theorem Mem.wrs_view {α : Type} {φ : Mem → α} (h : ∀ m x, φ { m with bytes := x } = φ m) (m : Mem) (a : Nat) (bs : List Byte) :
    φ (m.wrs a bs) = φ m := by
  induction bs generalizing m a with
  | nil => rfl
  | cons b bs ih => exact (ih _ _).trans (h m _)

/-- Beside the bytes a store sets initialisation bits and clears poison. -/
theorem Mem.store_view {α : Type} {φ : Mem → α} (hinit : ∀ m x, φ { m with init := x } = φ m)
    (hpoison : ∀ m x, φ { m with poison := x } = φ m) (hbytes : ∀ m x, φ { m with bytes := x } = φ m) (m : Mem) (a : Nat)
    (bs : List Byte) : φ (m.store a bs) = φ m := by
  unfold Mem.store
  split
  · rfl
  · exact (Mem.cleanLines_view hpoison _ _ _).trans ((Mem.wrs_view hbytes _ _ _).trans
      ((Mem.touchInit_view hinit _ _).trans (Mem.touchInit_view hinit _ _)))

theorem Mem.rd_wrs_congr (bs : List Byte) : ∀ (m n : Mem) (a : Nat), n.bytes = m.bytes → n.wild = m.wild →
    ∀ b, (n.wrs a bs).rd b = (m.wrs a bs).rd b := by
  induction bs with
  | nil => exact fun m n a hb hw b => Mem.rd_congr hb hw b
  | cons x xs ih => exact fun m n a hb hw b => ih (m.wr a x) (n.wr a x) (a + 1) (by simp only [Mem.wr, Mem.unlisted, hb, hw]) hw b

/-- A store reads as the plain writing of its bytes. -/
theorem Mem.rd_store (m : Mem) (a : Nat) (bs : List Byte) (b : Nat) : (m.store a bs).rd b = (m.wrs a bs).rd b := by
  unfold Mem.store
  split
  · next hnil => rw [List.isEmpty_iff.mp hnil]; rfl
  · rw [Mem.cleanLines_view (φ := fun m => m.rd b) (fun _ _ => rfl)]
    refine Mem.rd_wrs_congr bs _ _ a ?_ ?_ b
    · exact (Mem.touchInit_view (φ := Mem.bytes) (fun _ _ => rfl) _ _).trans (Mem.touchInit_view (fun _ _ => rfl) _ _)
    · exact (Mem.touchInit_view (φ := Mem.wild) (fun _ _ => rfl) _ _).trans (Mem.touchInit_view (fun _ _ => rfl) _ _)

/-- Bytes written at ascending addresses read back. -/
theorem Mem.rd_wrs_inside (bs : List Byte) : ∀ (m : Mem) (a i : Nat) (b : Byte), m.wf → bs[i]? = some b →
    (m.wrs a bs).rd (a + i) = b := by
  induction bs with
  | nil => intro m a i b _ h; simp at h
  | cons x xs ih =>
    intro m a i b hwf h
    cases i with
    | zero =>
      obtain rfl : x = b := by simpa using h
      rw [Mem.wrs, Mem.rd_wrs_outside _ _ _ _ (by omega)]
      exact Mem.rd_wr m a x hwf.1
    | succ i =>
      rw [Mem.wrs, show a + (i + 1) = a + 1 + i by omega]
      exact ih _ _ _ _ (Mem.wr_wf hwf a x) (by simpa using h)

theorem Mem.rd_store_inside {m : Mem} (hwf : m.wf) (a : Nat) {bs : List Byte} {i : Nat} {b : Byte} (h : bs[i]? = some b) :
    (m.store a bs).rd (a + i) = b := by
  rw [Mem.rd_store]
  exact Mem.rd_wrs_inside bs m a i b hwf h

theorem Mem.rd_store_outside (m : Mem) {a : Nat} (bs : List Byte) {b : Nat} (h : b < a ∨ a + bs.length ≤ b) :
    (m.store a bs).rd b = m.rd b := by
  rw [Mem.rd_store]
  exact Mem.rd_wrs_outside bs m a b h

theorem Mem.rds_store {m : Mem} (hwf : m.wf) (a : Nat) (bs : List Byte) : (m.store a bs).rds a bs.length = bs := by
  refine List.ext_getElem (by simp [Mem.rds]) fun i h1 h2 => ?_
  simp only [Mem.rds, List.getElem_map, List.getElem_range]
  exact Mem.rd_store_inside hwf a (List.getElem?_eq_getElem h2)

theorem length_leBytes (n v : Nat) : (leBytes n v).length = n := by
  induction n generalizing v with
  | zero => rfl
  | succ n ih => simp [leBytes, ih]

/-- R5: little-endian bytes read as a number give it back, modulo what the bytes hold. -/
theorem leNat_leBytes (n v : Nat) : leNat (leBytes n v) = v % 2 ^ (8 * n) := by
  induction n generalizing v with
  | zero => simp [leBytes, leNat, Nat.mod_one]
  | succ n ih =>
    rw [leBytes, leNat, ih, BitVec.toNat_ofNat, show 2 ^ (8 * (n + 1)) = 2 ^ 8 * 2 ^ (8 * n) by rw [← Nat.pow_add]; congr 1; omega]
    exact Nat.mod_mul.symm

/-- Settles O29. -/
theorem memoryWriteRead : Obligations.MemoryWriteRead := by
  intro m a bs hwf
  refine ⟨fun i b h => Mem.rd_store_inside hwf a h, fun b h => m.rd_store_outside bs h, ?_, fun n v _ => ?_⟩
  · rw [Mem.le, Mem.rds_store hwf]
  · have hrds := Mem.rds_store hwf a (leBytes n v)
    rw [length_leBytes] at hrds
    rw [Mem.le, hrds, leNat_leBytes]

/-! ### Scrubbing and repair -/

/-- R202, R203: the line of an HBM scrub read is met, and the scrubber moves past it. -/
theorem runs_scrubRead {err : MemErr} {ow : Bool} {s u : State} {a : Nat} (hen : s.cb (bMEM + 0x20) 0 = true)
    (hrun : s.mainRunning = true) (hline : s.scrubLine s.mem.scrubPos = some a) (hu : u = s.metErr a 1 ow err) :
    Runs (.scrubRead err ow) s
      (if (({ u with mem := { u.mem with scrubPos := a + 64 } } : State).scrubLine (a + 64)).isSome
        then { u with mem := { u.mem with scrubPos := a + 64 } }
        else ({ u with mem := { u.mem with scrubPos := 0 } } : State).bump (bMEM + 0x30) 1) := by
  refine (if_neg (by simp [hen, hrun])).trans ?_
  subst hu
  simp only [hline]
  cases err <;> exact (apply_ite Host.Outcome.next _ _ _).symm

section SramScrub
variable {addr : Nat} {err : MemErr} {s : State} (hen : s.cb (bMEM + 0x20) 1 = true) (hrun : s.mainRunning = true)
include hen hrun

theorem runs_sramScrubRead_depot {b : Nat} (h : region addr = some (.depot b)) :
    Runs (.sramScrubRead addr false err) s (s.metErr addr 2 false err) := by
  refine (if_neg (by simp [hen, hrun, h])).trans ?_
  simp only [h]
  cases err <;> rfl

theorem runs_sramScrubRead_bay {b : Nat} (h : region addr = some (.bay b)) (hon : s.domOn (bayDom b) = true) :
    Runs (.sramScrubRead addr false err) s (s.metErr addr 3 false err) := by
  refine (if_neg (by simp [hen, hrun, h, hon])).trans ?_
  simp only [h]
  cases err <;> rfl

theorem runs_sramScrubRead_store (h : addr < 2 ^ 26) :
    Runs (.sramScrubRead addr true err) s (s.metErr (storeAddr addr) 4 false err) := by
  refine (if_neg (by simp [hen, hrun])).trans ?_
  simp only [if_true, Nat.mod_eq_of_lt h]
  cases err <;> rfl

end SramScrub

/-- Clearing poison leaves every other part of the state. -/
theorem foldl_setPoison_view {α : Type} {φ : State → α} {c : Nat → Bool}
    (h : ∀ s x, φ { s with mem := { s.mem with poison := x } } = φ s) (l : List Nat) (s : State) :
    φ (l.foldl (fun s l => if c l = true then s else { s with mem := s.mem.setPoison l false }) s) = φ s := by
  refine foldl_view (fun s x => ?_) l s
  split
  · rfl
  · exact h s _

/-- R204: the data of the oldest repair is stored at the row's address. -/
theorem exists_runs_repairRefetchDone {r : Repair} {rs : List Repair} {b : List Byte} {s : State}
    (hrep : s.mem.repairs = r :: rs) (hlen : b.length = r.bytes) (hwf : s.mem.wf) :
    ∃ t, Runs (.repairRefetchDone (some b)) s t ∧ t.mem.repairs = rs ∧ t.regs = s.regs ∧
      (∀ i x, b[i]? = some x → t.mem.rd (r.addr + i) = x) ∧ SameMemBut r.addr r.bytes s t := by
  have hrun : ∃ c : Nat → Bool, Runs (.repairRefetchDone (some b)) s
      ((linesOf r.addr r.bytes).foldl (fun s l => if c l = true then s else { s with mem := s.mem.setPoison l false })
        (({ s with mem := { s.mem with repairs := rs } } : State).store r.addr b)) := by
    apply Exists.intro
    show execRepairRefetchDone (some b) s = _
    simp only [execRepairRefetchDone, hrep, hlen, ne_eq, not_true_eq_false, if_false]
    rfl
  obtain ⟨c, hrun⟩ := hrun
  refine ⟨_, hrun, ?_, ?_, fun i x hx => ?_, fun a ha => ?_⟩
  · rw [foldl_setPoison_view (φ := fun s => s.mem.repairs) (fun _ _ => rfl)]
    exact Mem.store_view (φ := Mem.repairs) (fun _ _ => rfl) (fun _ _ => rfl) (fun _ _ => rfl) _ _ _
  · rw [foldl_setPoison_view (φ := State.regs) (fun _ _ => rfl)]
    rfl
  · rw [foldl_setPoison_view (φ := fun s => s.mem.rd (r.addr + i)) (fun _ _ => rfl)]
    exact Mem.rd_store_inside (m := { s.mem with repairs := rs }) hwf r.addr hx
  · rw [foldl_setPoison_view (φ := fun s => s.mem.rd a) (fun _ _ => rfl)]
    exact Mem.rd_store_outside { s.mem with repairs := rs } b (by rwa [hlen])

/-- Settles O31. -/
theorem scrubAndRepair : Obligations.ScrubAndRepair := by
  refine ⟨fun err ow s a hen hrun hline u hu => ⟨fun hmore => ?_, fun hlast => ?_⟩, fun err ow s hoff => if_pos (by simp [hoff]),
    fun addr b err s hen hrun => ⟨runs_sramScrubRead_depot hen hrun, runs_sramScrubRead_bay hen hrun, runs_sramScrubRead_store hen hrun⟩,
    fun r rs b s => exists_runs_repairRefetchDone, fun r rs s hrep => ?_⟩
  · simpa only [if_pos hmore] using runs_scrubRead hen hrun hline hu
  · simpa only [hlast, Bool.false_eq_true, if_false] using runs_scrubRead hen hrun hline hu
  · show execRepairRefetchDone none s = _
    simp only [execRepairRefetchDone, hrep]

end Sys2Proof.Machine
end

section
/-! O33 to O35: queue registers, fetch, issue and completion (chapter 9). -/

namespace Sys2Proof.Machine

/-! ### Queue registers -/

section QueueRegisters

variable {p : Path} {q v : Nat} {s : State} (hq : q < 4096)

include hq

theorem runs_glbQDb_accepted (hw : s.wgate p (rDb q) = true) (hs : (s.queue q).state ≠ .disabled)
    (hmin : dist32 (s.queue q).tail (s.queue q).head ≤ dist32 v (s.queue q).head)
    (hmax : dist32 v (s.queue q).head ≤ s.ringSize q) :
    Runs (.glbQDb p q v) s (s.setQueue q { s.queue q with tail := v % 2 ^ 32 }) :=
  (if_pos (by simp [hq, hw])).trans (congrArg Host.Outcome.next (if_pos (by simp [hs, hmin, hmax])))

theorem runs_glbQDb_rejected (hw : s.wgate p (rDb q) = true)
    (h : (s.queue q).state = .disabled ∨ dist32 v (s.queue q).head < dist32 (s.queue q).tail (s.queue q).head ∨
      s.ringSize q < dist32 v (s.queue q).head) :
    Runs (.glbQDb p q v) s (s.setBits (rQStat q) (2 ^ 61)) := by
  refine (if_pos (by simp [hq, hw])).trans (congrArg Host.Outcome.next (if_neg fun hc => ?_))
  simp only [Bool.and_eq_true, decide_eq_true_eq] at hc
  obtain ⟨⟨hs, hmin⟩, hmax⟩ := hc
  obtain h | h | h := h
  · exact hs h
  · exact Nat.not_lt.2 hmin h
  · exact Nat.not_lt.2 hmax h

theorem runs_glbQCplhead_accepted (hw : s.wgate p (rCplHead q) = true)
    (h : dist32 v (s.queue q).cplHead ≤ dist32 (s.queue q).cplTail (s.queue q).cplHead) :
    Runs (.glbQCplhead p q v) s ((s.setQueue q { s.queue q with cplHead := v % 2 ^ 32 }).drainAborted q) :=
  (if_pos (by simp [hq, hw])).trans (congrArg Host.Outcome.next (if_pos h))

theorem runs_glbQCplhead_rejected (hw : s.wgate p (rCplHead q) = true)
    (h : dist32 (s.queue q).cplTail (s.queue q).cplHead < dist32 v (s.queue q).cplHead) :
    Runs (.glbQCplhead p q v) s (s.setBits (rQStat q) (2 ^ 61)) :=
  (if_pos (by simp [hq, hw])).trans (congrArg Host.Outcome.next (if_neg (Nat.not_le.2 h)))

theorem runs_queueResume_stopped (hw : s.wgate p (rQCtl q) = true) (h : (s.queue q).state = .stopped) :
    Runs (.queueResume p q) s (s.setQueue q { s.queue q with state := .active }) :=
  (if_pos (by simp [hq, hw])).trans (congrArg Host.Outcome.next (if_pos h))

theorem runs_queueResume_other (hw : s.wgate p (rQCtl q) = true) (h : (s.queue q).state ≠ .stopped) :
    Runs (.queueResume p q) s s :=
  (if_pos (by simp [hq, hw])).trans (congrArg Host.Outcome.next (if_neg h))

theorem runs_queueAbort_disabled (hw : s.wgate p (rQCtl q) = true) (h : (s.queue q).state = .disabled) :
    Runs (.queueAbort p q) s s :=
  (if_pos (by simp [hq, hw])).trans (congrArg Host.Outcome.next (if_pos h))

/-- R221: the commands from the issue point to the tail end ABORTED, each with its own index. -/
theorem exists_runs_queueAbort (hw : s.wgate p (rQCtl q) = true) (h : (s.queue q).state ≠ .disabled) :
    ∃ l : List (Nat × Nat × Bool), l.length = dist32 (s.queue q).tail (s.queue q).issuePt ∧
      (∀ i, (l[i]?.map Prod.fst).getD (((s.queue q).issuePt + i) % 2 ^ 32) = ((s.queue q).issuePt + i) % 2 ^ 32) ∧
      Runs (.queueAbort p q) s ((({ s with free := s.free + 1 } : State).setQueue q { s.queue q with
        head := (s.queue q).tail, issuePt := (s.queue q).tail, fetched := [], aborted := (s.queue q).aborted ++ l }).drainAborted q) := by
  have mapped {f : Nat → Nat × Nat × Bool} {n : Nat} (hf : ∀ i, (f i).1 = ((s.queue q).issuePt + i) % 2 ^ 32) :
      ((List.range n).map f).length = n ∧
        ∀ i, ((((List.range n).map f)[i]?).map Prod.fst).getD (((s.queue q).issuePt + i) % 2 ^ 32) = ((s.queue q).issuePt + i) % 2 ^ 32 := by
    refine ⟨by simp, fun i => ?_⟩
    by_cases hi : i < n <;> simp [hi, hf]
  refine ⟨_, ?_, ?_, (if_pos (by simp [hq, hw])).trans (congrArg Host.Outcome.next (if_neg h))⟩
  · refine (mapped fun i => ?_).1
    dsimp only
    split
    · rfl
    · split <;> rfl
  · refine (mapped fun i => ?_).2
    dsimp only
    split
    · rfl
    · split <;> rfl

end QueueRegisters

/-- Settles O33. -/
theorem queueRegisters : Obligations.QueueRegisters := fun _ _ _ _ hq =>
  ⟨fun hw => ⟨runs_glbQDb_accepted hq hw, runs_glbQDb_rejected hq hw⟩,
    fun hw => ⟨runs_glbQCplhead_accepted hq hw, runs_glbQCplhead_rejected hq hw⟩,
    fun hw => ⟨runs_queueResume_stopped hq hw, runs_queueResume_other hq hw, runs_queueAbort_disabled hq hw,
      exists_runs_queueAbort hq hw⟩⟩

/-! ### Fetch and issue -/

theorem runs_commandFetch {q : Nat} {s : State} (hrun : s.running = true) (hs : (s.queue q).state ≠ .disabled)
    (hne : (s.queue q).head ≠ (s.queue q).tail) (hahead : dist32 (s.queue q).head (s.queue q).issuePt < 16)
    (hdev : s.qB s.gen q 0 0 = false) (hreach : s.reachable (s.slotOf q (s.queue q).head) = true) :
    Runs (.commandFetch q) s (s.setQueue q { s.queue q with
      head := ((s.queue q).head + 1) % 2 ^ 32
      fetched := (s.queue q).fetched ++ [(s.mem.poisoned (s.slotOf q (s.queue q).head), wordsOf (s.mem.rds (s.slotOf q (s.queue q).head) 64))] }) := by
  refine (if_neg (by simp [hrun, hs, hne, hahead])).trans ((if_neg (by simp [hdev, hreach])).trans ?_)
  simp only [State.ringWords, hdev, Bool.not_false, Bool.true_and, Bool.false_eq_true, if_false]

theorem runs_commandFetch_far {q : Nat} {s : State} (h : 16 ≤ dist32 (s.queue q).head (s.queue q).issuePt) :
    Runs (.commandFetch q) s s :=
  if_pos (by simp [h])

section Issue

variable {q : Nat} {bad : Bool} {w : List Nat} {rest : List (Bool × List Nat)} {s : State}
  (hf : (s.queue q).fetched = (bad, w) :: rest)

include hf

theorem runs_commandIssue_go {cs : List Chk} {ns : List Nat} (hv : s.verdict q = .go cs ns) (hfirst : s.firstOfKind q = true) :
    Runs (.commandIssue q) s (s.startTask q w cs ns) := by
  show execCommandIssue q s = _
  simp only [execCommandIssue, hv, hf, hfirst, if_true, List.head?_cons, Option.map_some, Option.getD_some]

theorem runs_commandIssue_fail {f : Fail} (hv : s.verdict q = .fail f) (hroom : s.cplFull s.gen q = false) :
    Runs (.commandIssue q) s (s.failHead q (s.headCpl q w f)) := by
  show execCommandIssue q s = _
  simp only [execCommandIssue, hv, hf, hroom, Bool.false_eq_true, if_false, List.head?_cons, Option.map_some, Option.getD_some]

omit hf in
theorem runs_commandIssue_wait (hv : s.verdict q = .wait) : Runs (.commandIssue q) s s := by
  show execCommandIssue q s = _
  simp only [execCommandIssue, hv]

section Checked

variable {f : Fail} {ns : List Nat} (hrun : s.running = true) (hflt : s.flt.state ≠ .c2Recovery) (hact : (s.queue q).state = .active)
  (hhalt : s.qHalted q = false) (halone : wb w 0 17 = false) (hser : s.qB s.gen q 2 56 = false) (hbad : bad = false)

include hrun hflt hact hhalt halone hser hbad

/-- With nothing that holds it back, the verdict on the head command is that of its checks. -/
theorem State.verdict_checked : s.verdict q = match s.checkCmd s.gen (s.qF s.gen q 2 62 59) w with
    | .error f => .fail f
    | .ok cs =>
      if (cmdKinds w cs).any s.kindGone then .lost stFENCED
      else if !s.canTake w then .wait
      else match s.pickInsts (s.qF s.gen q 3 23 0) (cmdKinds w cs) [] with
        | none => .wait
        | some ns => .go cs ns := by
  simp [State.verdict, hf, hrun, hflt, hact, hhalt, halone, hser, hbad] <;> rfl

theorem State.verdict_of_headerBad (h : invalidAt (headerBad (s.qF s.gen q 2 62 59) w) = some f) :
    s.verdict q = .fail f := by
  rw [State.verdict_checked hf hrun hflt hact hhalt halone hser hbad, State.checkCmd, h]

theorem State.verdict_of_nop (hh : headerBad (s.qF s.gen q 2 62 59) w = []) (hop : wd w 0 27 20 = 0)
    (hk : s.kindGone (wd w 0 31 28) = false) (ht : s.canTake w = true)
    (hp : s.pickInsts (s.qF s.gen q 3 23 0) [wd w 0 31 28] [] = some ns) : s.verdict q = .go [] ns := by
  rw [State.verdict_checked hf hrun hflt hact hhalt halone hser hbad, State.checkCmd, hh]
  simp [invalidAt, hop, cmdKinds, hk, ht, hp]

end Checked

/-- R236: a command that cannot take its semaphores is not issued. -/
theorem State.verdict_ne_go_of_not_canTake (ht : s.canTake w = false) (cs : List Chk) (ns : List Nat) :
    s.verdict q ≠ .go cs ns := by
  simp only [State.verdict, hf, List.head?_cons, ht]
  split
  · simp
  · split
    · simp
    · split
      · simp
      · split <;> simp

end Issue

/-- An engine's row runs its body on the stage that is ready, with the stage's buffers in use. -/
theorem State.eng_of_ready {t k kind op : Nat} {x : Task} {g : Stage} {s : State} (h : s.engReady t k kind op x g)
    (f : Task → Stage → State → State) : s.eng t k kind op f = f x g (s.bayUse g.inst g.bufs) := by
  obtain ⟨hx, hg, hkind, hop, hres, hinst, hwork, hpar, hprev⟩ := h
  simp only [State.eng, hx, hg]
  refine if_pos ?_
  simp only [hkind, hop, hres, hinst, hwork, hpar, decide_true, Option.isNone_none, Bool.and_self, Bool.true_and]
  refine List.all_eq_true.2 fun h hh => ?_
  obtain ⟨r, hr, hst⟩ := hprev h hh
  simpa only [hr, Bool.or_eq_true, decide_eq_true_eq] using hst

theorem runs_nop {t : Nat} {x : Task} {g : Stage} {s : State} (hx : s.task t = some x) (hg : x.stages[0]? = some g)
    (hop : g.op = 0) (hres : g.res = none) (hinst : s.instRuns g.inst = true) (hwork : s.mayWork g.inst t = true)
    (hpar : s.parReady t g = true) : Runs (.nop t) s ((s.bayUse g.inst g.bufs).endStage t 0 {}) := by
  show execNop t s = _
  simp only [execNop, hx, Option.bind_some, List.head?_eq_getElem?, hg]
  rw [State.eng_of_ready ⟨hx, hg, rfl, hop, hres, hinst, hwork, hpar, by simp⟩]

/-- Settles O34. -/
theorem fetchAndIssue : Obligations.FetchAndIssue :=
  ⟨fun _ _ => runs_commandFetch, fun _ _ => runs_commandFetch_far,
    fun _ _ _ _ _ hf => ⟨fun _ _ => runs_commandIssue_go hf, fun _ => runs_commandIssue_fail hf, runs_commandIssue_wait,
      fun _ => State.verdict_of_headerBad hf, fun _ => State.verdict_of_nop hf, State.verdict_ne_go_of_not_canTake hf⟩,
    fun _ _ _ _ => runs_nop⟩

/-! ### Completion -/

section Completion

variable {t : Nat} {x : Task} {s : State}

theorem State.tryComplete_of_not_ended (hfin : x.finished = false) (hfail : x.failed = false) : s.tryComplete t x = s :=
  if_pos (by simp [hfin, hfail])

section Ended

variable (hrun : s.mainRunning = true) (hre : s.que.reissue.contains t = false) (hend : x.finished = true ∨ x.failed = true)

include hrun hre hend

/-- R234, R241: a command that has ended completes, unless its record finds no room. -/
theorem State.tryComplete_of_ended : s.tryComplete t x =
    if (!(wb x.words 0 15 && decide (x.source.2.status = stOK)) && s.cplFull x.gen x.queue) = true then
      s.setTask t (some { x with stalled := true })
    else s.complete t x :=
  if_neg (by obtain h | h := hend <;> simpa [h, hrun] using hre)

theorem State.tryComplete_of_room (hroom : s.cplFull x.gen x.queue = false) : s.tryComplete t x = s.complete t x :=
  (State.tryComplete_of_ended hrun hre hend).trans (if_neg (by simp [hroom]))

theorem State.tryComplete_of_quiet (hquiet : wb x.words 0 15 = true) (hok : x.source.2.status = stOK) :
    s.tryComplete t x = s.complete t x :=
  (State.tryComplete_of_ended hrun hre hend).trans (if_neg (by simp [hquiet, hok]))

theorem State.tryComplete_of_full (hfull : s.cplFull x.gen x.queue = true)
    (hloud : wb x.words 0 15 = false ∨ x.source.2.status ≠ stOK) :
    s.tryComplete t x = s.setTask t (some { x with stalled := true }) :=
  (State.tryComplete_of_ended hrun hre hend).trans (if_pos (by obtain h | h := hloud <;> simp [h, hfull]))

end Ended

variable (hx : s.task t = some x)

include hx

theorem runs_commandComplete : Runs (.commandComplete t) s (s.tryComplete t x) := by
  show execCommandComplete t s = _
  simp only [execCommandComplete, hx]

theorem runs_completionStallRelease (hst : x.stalled = true) (hroom : s.cplFull x.gen x.queue = false) :
    Runs (.completionStallRelease t) s (s.tryComplete t { x with stalled := false }) := by
  show execCompletionStallRelease t s = _
  simp only [execCompletionStallRelease, hx, hst, hroom, Bool.not_false, Bool.and_self, if_true]

theorem runs_completionStallRelease_not_stalled (hst : x.stalled = false) : Runs (.completionStallRelease t) s s := by
  show execCompletionStallRelease t s = _
  simp only [execCompletionStallRelease, hx, hst, Bool.false_and, Bool.false_eq_true, if_false]

end Completion

theorem runs_irqHoldoffExpiry {q : Nat} {s : State} (h : (s.queue q).holdoff = true) :
    Runs (.irqHoldoffExpiry q) s (if (s.queue q).irqPend = true then (s.setQueue q { s.queue q with holdoff := false }).qIrq s.gen q
      else s.setQueue q { s.queue q with holdoff := false }) :=
  if_neg (by simp [h])

/-- Settles O35. -/
theorem completions : Obligations.Completions := by
  refine ⟨fun t x s hx hrun hre hend => ⟨fun h => ?_, fun hq hok => ?_, fun hf hl => ?_, fun hst hroom => ?_,
      runs_completionStallRelease_not_stalled hx⟩,
    fun t x s hx hfin hfail => ?_, fun q s h => ⟨fun hp => ?_, fun hp => ?_⟩⟩
  · exact State.tryComplete_of_room hrun hre hend h ▸ runs_commandComplete hx
  · exact State.tryComplete_of_quiet hrun hre hend hq hok ▸ runs_commandComplete hx
  · exact State.tryComplete_of_full hrun hre hend hf hl ▸ runs_commandComplete hx
  · exact State.tryComplete_of_room (x := { x with stalled := false }) hrun hre hend hroom ▸ runs_completionStallRelease hx hst hroom
  · exact (runs_commandComplete hx).trans (congrArg Host.Outcome.next (State.tryComplete_of_not_ended hfin hfail))
  · simpa only [hp, Bool.false_eq_true, if_false] using runs_irqHoldoffExpiry h
  · simpa only [hp, if_true] using runs_irqHoldoffExpiry h

end Sys2Proof.Machine
end

section
/-! O36 and O37: ports, stream accounts, tiles and parameter sets (chapters 10 and 11). -/

namespace Sys2Proof.Machine

/-! ### Grants -/

/-- The best of a list so far, or a candidate that is better. -/
def better {α : Type} (lt : α → α → Bool) (best : Option α) (c : α) : Option α :=
  match best with
  | none => some c
  | some b => if lt c b then some c else best

/-- A fold that keeps the better of two ends with a member whose key no member undercuts. -/
theorem foldl_better {α : Type} {lt : α → α → Bool} {key : α → Nat} (hlt : ∀ c b, lt c b = true → key c ≤ key b)
    (hge : ∀ c b, lt c b = false → key b ≤ key c) (l : List α) :
    ∀ {a b : α}, l.foldl (better lt) (some a) = some b → b ∈ a :: l ∧ ∀ e ∈ a :: l, key b ≤ key e := by
  induction l with
  | nil => intro a b h; cases h; simp
  | cons c l ih =>
    intro a b h
    rw [List.foldl_cons] at h
    cases hc : lt c a with
    | true =>
      obtain ⟨hmem, hmin⟩ := ih (a := c) (by simpa [better, hc] using h)
      refine ⟨List.mem_cons_of_mem a hmem, fun e he => ?_⟩
      obtain rfl | he := List.mem_cons.1 he
      · exact Nat.le_trans (hmin c List.mem_cons_self) (hlt _ _ hc)
      · exact hmin e he
    | false =>
      obtain ⟨hmem, hmin⟩ := ih (a := a) (by simpa [better, hc] using h)
      have ha := hmin a List.mem_cons_self
      refine ⟨?_, fun e he => ?_⟩
      · obtain rfl | hm := List.mem_cons.1 hmem <;> simp [*]
      · obtain rfl | he := List.mem_cons.1 he
        · exact ha
        · obtain rfl | he := List.mem_cons.1 he
          · exact Nat.le_trans ha (hge _ _ hc)
          · exact hmin e (List.mem_cons_of_mem _ he)

/-- The order of the arbitration on waiting transfers (R261). -/
def State.waitsBefore (s : State) (c b : Nat × Strm × Waiting × Tr) : Bool := s.before c.2.1 b.2.1 c.2.2.1 b.2.2.1

theorem State.winner_eq_foldl_better (s : State) (p : MemPort) :
    s.winner p = (s.waitingAt p).foldl (better s.waitsBefore) none :=
  congrArg (fun f => (s.waitingAt p).foldl f none) (funext fun best => by cases best <;> rfl)

theorem State.key_le_of_waitsBefore (s : State) (c b : Nat × Strm × Waiting × Tr) (h : s.waitsBefore c b = true) :
    c.2.2.1.q ≤ b.2.2.1.q := by
  simp only [State.waitsBefore, State.before, Bool.or_eq_true, Bool.and_eq_true, decide_eq_true_eq] at h
  obtain h | ⟨h, -⟩ := h <;> omega

theorem State.key_le_of_not_waitsBefore (s : State) (c b : Nat × Strm × Waiting × Tr) (h : s.waitsBefore c b = false) :
    b.2.2.1.q ≤ c.2.2.1.q := by
  simp only [State.waitsBefore, State.before, Bool.or_eq_false_iff, decide_eq_false_iff_not] at h
  omega

/-- R261: the winner of a port waits there, and no transfer that waits there has a smaller key. -/
theorem State.winner_least {s : State} {p : MemPort} {b : Nat × Strm × Waiting × Tr} (h : s.winner p = some b) :
    b ∈ s.waitingAt p ∧ ∀ e ∈ s.waitingAt p, b.2.2.1.q ≤ e.2.2.1.q := by
  rw [State.winner_eq_foldl_better] at h
  cases hw : s.waitingAt p with
  | nil => rw [hw] at h; cases h
  | cons a l =>
    rw [hw] at h
    exact foldl_better (key := fun c => c.2.2.1.q) s.key_le_of_waitsBefore s.key_le_of_not_waitsBefore l h

theorem runs_transferGrant_bridge {b n : Nat} {x : Strm} {w : Waiting} {tr : Tr} {s : State} (hrun : s.mainRunning = true)
    (h : s.winner (.bridge b) = some (n, x, w, tr)) :
    Runs (.transferGrant (.bridge b)) s (s.setStrm n { x with presented := some { w with bridged := w.bridged + 1 } }) := by
  refine (if_neg (by simp [hrun])).trans ?_
  simp only [h]

theorem runs_transferGrant_home {port : MemPort} {n : Nat} {x : Strm} {w : Waiting} {tr : Tr} {s : State}
    (hrun : s.mainRunning = true) (h : s.winner port = some (n, x, w, tr)) (hp : ∀ b, port ≠ .bridge b) :
    Runs (.transferGrant port) s (s.grantHome n x tr).presentAll := by
  refine (if_neg (by simp [hrun])).trans ?_
  simp only [h]

/-- R255: a transfer that ends without an error adds its bytes to its stream. -/
theorem runs_transferDone_none {x : Nat} {e : Xfer} {z : Strm} {s : State} (hx : tget none s.str.xfer x = some e)
    (hz : tget none s.str.strm e.stream = some z) (hh : ∀ r ∈ s.hif.reads, ∀ h, r.2 = some h → h.xfer ≠ some x) :
    Runs (.transferDone x .none) s
      ((({ s with str := { s.str with xfer := tset none s.str.xfer x none } } : State).setStrm e.stream
        { z with level := z.level + e.len }).presentAll) := by
  show execTransferDone x .none s = _
  simp only [execTransferDone, hx, hz]
  refine (if_neg (Bool.eq_false_iff.1 (List.any_eq_false.2 fun r hr => ?_))).trans ?_
  · cases hr2 : r.2 with
    | none => simp
    | some h => simpa using hh r hr h hr2
  generalize (if decide (z.desc.space = 0) = true then region e.addr.toNat else none) = r
  cases r <;> rfl

/-! ### The rate of a stream -/

theorem rateNext_of_le {r moved sh : Nat} (h : r ≤ moved * 65536) : rateNext r moved sh = r + (moved * 65536 - r) / 2 ^ sh :=
  if_pos h

theorem rateNext_of_ge {r moved sh : Nat} (h : moved * 65536 ≤ r) : rateNext r moved sh = r - (r - moved * 65536) / 2 ^ sh := by
  obtain h | h := Nat.lt_or_eq_of_le h
  · exact if_neg (Nat.not_le.2 h)
  · simp [rateNext, h]

/-- Settles O36. -/
theorem streamAccounts : Obligations.StreamAccounts :=
  ⟨fun _ _ _ _ _ _ hrun h => ⟨fun _ hb => by subst hb; exact runs_transferGrant_bridge hrun h, runs_transferGrant_home hrun h⟩,
    fun _ _ _ _ _ _ => State.winner_least,
    fun _ _ _ _ => runs_transferDone_none,
    fun _ => ⟨rfl, rfl, _, rfl⟩,
    fun _ _ _ => rateNext_of_ge, fun _ _ _ => rateNext_of_le⟩

/-! ### Yields, stall counters and tiles -/

theorem runs_yieldSwitch {n t u : Nat} {s : State} (hn : n < 54) (hy : s.cb (bSTR + 0x1000 + 8 * n) 31 = true)
    (hrun : s.haltOf n = .running) (hcur : s.curTask n = some u) (hut : u ≠ t)
    (hfind : ((s.tasksOn n).filter (fun v => decide (some v ≠ some u))).find? (s.taskReady n) = some t) :
    Runs (.yieldSwitch n t) s (({ s with str := { s.str with
      inst := tset {} s.str.inst n { (tget {} s.str.inst n : Inst) with cur := some t, switching := 16 } } } : State).bump (bTEL + 0x20000 + 8 * n) 1) :=
  if_pos (by
    rw [hcur, hfind]
    simp [hn, hy, hrun, hut])

theorem runs_yieldSwitch_off {n t : Nat} {s : State} (hy : s.cb (bSTR + 0x1000 + 8 * n) 31 = false) :
    Runs (.yieldSwitch n t) s s :=
  if_neg (by simp [hy])

theorem runs_telSat {n c : Nat} {s : State} (hn : n < 54) (hc : c < 16)
    (h : wbit (s.reg (bTEL + 0x10000 + 0x80 * n + 8 * c)) 63 = false) : Runs (.telSat n c) s (s.telSat n c) :=
  if_pos (by simp [hn, hc, h])

theorem runs_tileComplete {t k : Nat} {x : Task} {g : Stage} {s : State} (hx : s.task t = some x) (hg : x.stages[k]? = some g)
    (hres : g.res = none) (hleft : g.tiles < g.nTiles) (hinst : s.instRuns g.inst = true) (hwork : s.mayWork g.inst t = true)
    (hpar : s.parReady t g = true) :
    Runs (.tileComplete t k) s
      ((((s.setTask t (some { modStage x k (fun g => { g with tiles := g.tiles + 1 }) with started := true })).bump
        (bSTR + 0x4000 + 16 * g.inst) 1).mapStrms (fun z => z.work t k g.nTiles)).presentAll) := by
  show execTileComplete t k s = _
  simp only [execTileComplete, hx, hg]
  exact if_pos (by simp [hres, hleft, hinst, hwork, hpar])

/-! ### Parameter sets -/

theorem runs_paramLoadStart {n t k key : Nat} {y : Task} {g : Stage} {rest : List Nat} {u s : State} (hy : s.task t = some y)
    (hwait : (tget ({} : Inst) s.str.inst n).waitBank = t :: rest) (hrun : s.mainRunning = true)
    (hpar : y.parStage n = some (k, g, key))
    (hclaim : s.claimBank n t y.gen (((s.descOf t k key).start : Int) + (s.descOf t k key).offset)
      ((s.descOf t k key).total * (s.descOf t k key).elem) = some u) :
    Runs (.paramLoadStart n t) s u := by
  show execParamLoadStart n t s = _
  simp only [execParamLoadStart, hy, hwait, List.head?_cons]
  refine (if_pos (by simp [hrun])).trans ?_
  simp only [hpar, hclaim, Option.getD_some]

theorem runs_paramLoadDone {n t k key : Nat} {y : Task} {g : Stage} {b : Bank} {s : State}
    (hload : (tget ({} : Inst) s.str.inst n).loading = some t) (hrun : s.mainRunning = true) (hpow : s.powered (bayDom n) = true)
    (hy : s.task t = some y) (hb : s.bankOf t n = some b) (hpar : y.parStage n = some (k, g, key)) (hres : g.res = none) :
    Runs (.paramLoadDone n t) s (s.parLoad n t k g key b.off) := by
  refine (if_neg (by simp [hload, hrun, hpow])).trans ?_
  simp only [hy, hb, hpar, hres, Option.isSome_none, Bool.false_eq_true, if_false]

/-- R291: without an error the data of a set reach the bank, and the kind checks them. -/
theorem State.parLoad_of_clean {s : State} {n t k key : Nat} {g : Stage} {off : Nat} {u : State} {d : List Byte}
    (hd : d = (s.elAll (s.descOf t k key)).flatMap El.data)
    (hu : u = (s.store (bayBase n + off) d).bump (bSTR + 0x4008 + 16 * n) 1)
    (h : ∀ e ∈ s.elAll (s.descOf t k key), e.err = none ∧ e.poison = []) :
    s.parLoad n t k g key off = match u.parBad t k g d with
      | some ctr => (u.err ctr).parFail n t k stFORMAT
      | none => (u.modBank n t (fun x => some { x with loaded := true, good := true })).presentAll := by
  subst hd hu
  have herr : (s.elAll (s.descOf t k key)).findSome? El.err = none := List.findSome?_eq_none_iff.2 fun e he => (h e he).1
  have hpoison : (s.elAll (s.descOf t k key)).flatMap El.poison = [] := List.flatMap_eq_nil_iff.2 fun e he => (h e he).2
  simp [State.parLoad, herr, hpoison] <;> rfl

/-- Settles O37. -/
theorem tilesAndParameters : Obligations.TilesAndParameters := by
  refine ⟨fun _ _ _ _ => runs_yieldSwitch, fun _ _ _ => runs_yieldSwitch_off, fun _ _ _ => runs_telSat,
    fun _ _ _ _ _ => runs_tileComplete, fun _ _ _ _ _ _ _ _ _ => runs_paramLoadStart,
    fun n t k key y g b s hload hrun hpow hy hb hpar hres hclean d u hd hu => ?_⟩
  have hruns := runs_paramLoadDone hload hrun hpow hy hb hpar hres
  have hloadEq := State.parLoad_of_clean (n := n) (g := g) (off := b.off) hd hu hclean
  exact ⟨fun hok => by simpa only [hloadEq, hok] using hruns, fun ctr hbad => by simpa only [hloadEq, hbad] using hruns⟩

end Sys2Proof.Machine
end

section
/-! O38 and O39: the Ledger's rows and the records of FETCH (chapters 12 and 13). -/

namespace Sys2Proof.Machine

/-! ### The Ledger -/

theorem runs_ledgerInitDone {s : State} (h : s.mainRunning = true) :
    Runs .ledgerInitDone s { s with ldg := { s.ldg with initDone := true } } :=
  if_pos h

/-- R300: pipelines that can take no batch are passed over, and the first that can takes its own. -/
theorem State.admitTurn_first {p e : Nat} {c : Cand} {s : State} {after : List Nat} (hgo : s.canAdmit p = .go e c) :
    ∀ {before : List Nat}, (∀ q ∈ before, s.canAdmit q = .other) → s.admitTurn (before ++ p :: after) = s.admitBatch p e c
  | [], _ => by simp only [List.nil_append, State.admitTurn, hgo]
  | q :: before, h => by
    simp only [List.cons_append, State.admitTurn, h q List.mem_cons_self]
    exact State.admitTurn_first hgo fun r hr => h r (List.mem_cons_of_mem q hr)

theorem runs_batchAdmit {p e : Nat} {c : Cand} {before after : List Nat} {s : State} (hrun : s.running = true)
    (hinit : s.ldg.initDone = true) (hstop : s.ldg.stopped = false) (hflush : s.ldg.flush = none) (hflt : s.flt.state ≠ .c2Recovery)
    (hturn : (span (s.ldg.lastAdmit + 1) 256).map (· % 256) = before ++ p :: after) (hbefore : ∀ q ∈ before, s.canAdmit q = .other)
    (hgo : s.canAdmit p = .go e c) : Runs .batchAdmit s (s.admitBatch p e c) := by
  refine (if_neg (by simp [hrun, hinit, hstop, hflush, hflt])).trans ?_
  rw [hturn, State.admitTurn_first hgo hbefore]

theorem runs_batchAdmit_held {s : State} (h : s.ldg.initDone = false ∨ s.ldg.stopped = true ∨ s.flt.state = .c2Recovery) :
    Runs .batchAdmit s s :=
  if_pos (by obtain h | h | h := h <;> simp [h])

section SampleDeadline

variable {slot : Nat} {s : State}

theorem runs_sampleDeadline_bad (h : s.ctxBad slot = true) : Runs (.sampleDeadline slot) s (s.faultC2 0x17 uLDG slot) :=
  if_pos h

variable (hgood : s.ctxBad slot = false)

include hgood

theorem runs_sampleDeadline_idle (h : (s.ctx slot).state ≠ .active) : Runs (.sampleDeadline slot) s s :=
  (if_neg (by simp [hgood])).trans (if_neg (by simp [h]))

theorem runs_sampleDeadline_active {b : Batch} (hb : s.openBatch (s.ctx slot).batchRef = some b) (hact : (s.ctx slot).state = .active) :
    Runs (.sampleDeadline slot) s
      (if b.sampleMs * 1000 ≤ (s.ns / 1000 % 2 ^ 32 + 2 ^ 32 - (s.ctx slot).admitUs) % 2 ^ 32 then
        ((s.corrupt slot 5 (s.ctx slot).stage).bump (ldgCtr 8) 1).tryClose (s.ctx slot).batchRef
      else s) := by
  refine (if_neg (by simp [hgood])).trans ?_
  simp only [hb, hact, decide_true, Bool.true_and, decide_eq_true_eq]
  exact (apply_ite Host.Outcome.next _ _ _).symm

end SampleDeadline

theorem runs_pinSetCreate {p table version : Nat} {pl : Pipe} {s : State} (hpl : tget {} s.ldg.pipe p = pl)
    (hwait : (table, version) ∈ pl.pinWait) (hfree : s.freePin.isSome = true) (hroom : s.jrnRoom 1 = true) :
    Runs (.pinSetCreate p table version) s
      ((({ s with ldg := { s.ldg with pipe := tset {} s.ldg.pipe p { pl with pinWait := pl.pinWait.erase (table, version) } } } : State).newPin
        p).journal 0x08 p table version 0) := by
  subst hpl
  exact if_pos (by simp [hwait, hfree, hroom])

theorem runs_pinSetCreate_full {p table version : Nat} {s : State} (h : s.freePin = none) :
    Runs (.pinSetCreate p table version) s s :=
  if_neg (by simp [h])

theorem runs_checkpointTimer {s : State} (hrun : s.running = true) (hroom : s.jrnRoom s.pipesOn.length = true)
    (hflush : s.ldg.flush = none) : Runs .checkpointTimer s (s.pipesOn.foldl State.checkpoint s) :=
  if_pos (by simp [hrun, hroom, hflush])

theorem runs_journalEntryWrite {e : List Byte} {q : List (List Byte)} {s : State} (h : s.ldg.queue = e :: q) :
    Runs .journalEntryWrite s ((({ s with ldg := { s.ldg with queue := q } } : State).jrnWrite e).retryCloses) := by
  show execJournalEntryWrite s = _
  simp only [execJournalEntryWrite, h]

/-- Settles O38. -/
theorem ledgerRows : Obligations.LedgerRows := by
  refine ⟨fun _ => runs_ledgerInitDone, fun _ _ _ _ _ _ => runs_batchAdmit, fun _ => runs_batchAdmit_held,
    fun slot s hgood => ⟨runs_sampleDeadline_idle hgood, fun b hb hact => ⟨fun hlate => ?_, fun hearly => ?_⟩⟩,
    fun _ _ => runs_sampleDeadline_bad, fun _ _ _ _ _ => runs_pinSetCreate, fun _ _ _ _ => runs_pinSetCreate_full,
    fun _ => runs_checkpointTimer, fun _ _ _ => runs_journalEntryWrite⟩
  · simpa only [if_pos hlate] using runs_sampleDeadline_active hgood hb hact
  · simpa only [if_neg (Nat.not_le.2 hearly)] using runs_sampleDeadline_active hgood hb hact

/-! ### FETCH -/

section Fetch

variable {t k n p : Nat} {x : Task} {g : Stage} {s u : State} (hready : s.engReady t k 0 1 x g) (hu : u = s.bayUse g.inst g.bufs)
  (hn : n = (u.descOf t k 5).cnt 1) (hp : p = ingPipe g.words) (hnone : u.recsOf t = [])

/-- Entries of a pipeline's admission ring that no record has taken (R327). -/
def State.ringHas (s : State) (p : Nat) : Nat := (tget ({} : Pipe) s.ldg.pipe p).admTail - (tget ({} : Pipe) s.ldg.pipe p).admHead

include hready hu hn hp hnone

/-- What FETCH does before it has records: it waits for its entries, ends without any, or takes those that are there. -/
theorem runs_fetch : Runs (.fetch t k) s
    (if (decide (u.ringHas p < n) && !x.waitOver) = true then u
      else if u.ringHas p = 0 then (if (tget ({} : Pipe) u.ldg.pipe p).state = .running then u else u.endStage t k {})
      else ((u.modTask t (fun x => { x with started := true })).ringTake t g.inst p (min n (u.ringHas p))).startRecs t g.inst x.gen) := by
  subst hn hp
  refine congrArg Host.Outcome.next ((State.eng_of_ready hready _).trans ?_)
  rw [← hu]
  exact if_neg (by simp [hnone])

theorem runs_fetch_enough (henough : n ≤ u.ringHas p) (hpos : n ≠ 0) : Runs (.fetch t k) s
    (((u.modTask t (fun x => { x with started := true })).ringTake t g.inst p n).startRecs t g.inst x.gen) := by
  have h := runs_fetch hready hu hn hp hnone
  rwa [if_neg (by simp [Nat.not_lt.2 henough]), if_neg (by omega), Nat.min_eq_left henough] at h

theorem runs_fetch_waitOver {m : Nat} (hm : m = u.ringHas p) (hpos : m ≠ 0) (hless : m < n) (hover : x.waitOver = true) :
    Runs (.fetch t k) s (((u.modTask t (fun x => { x with started := true })).ringTake t g.inst p m).startRecs t g.inst x.gen) := by
  have h := runs_fetch hready hu hn hp hnone
  rwa [if_neg (by simp [hover]), ← hm, if_neg hpos, Nat.min_eq_right (Nat.le_of_lt hless)] at h

theorem runs_fetch_waits (hless : u.ringHas p < n) (hover : x.waitOver = false) : Runs (.fetch t k) s u := by
  have h := runs_fetch hready hu hn hp hnone
  rwa [if_pos (by simp [hless, hover])] at h

theorem runs_fetch_empty (hempty : (tget ({} : Pipe) u.ldg.pipe p).admTail = (tget ({} : Pipe) u.ldg.pipe p).admHead)
    (hover : x.waitOver = true) (hstate : (tget ({} : Pipe) u.ldg.pipe p).state ≠ .running) :
    Runs (.fetch t k) s (u.endStage t k {}) := by
  have h := runs_fetch hready hu hn hp hnone
  rwa [if_neg (by simp [hover]), if_pos (by simp [State.ringHas, hempty]), if_neg hstate] at h

end Fetch

/-! ### The end of a record -/

/-- A key slot whose key has read one more record (R174). -/
def KeySlot.counted (z : KeySlot) (key : Key) : KeySlot := { z with key := some { key with records := key.records + 1 } }

/-- R174: a record read with a key counts in the slot that holds the key, where that is still the same key. -/
def State.countKeyRecord (s : State) (r : IngRec) : State :=
  s.whenB r.pin.isSome (fun s =>
    let sl := manF r.man 0x16 2
    match (s.vlt.slot sl).key with
    | some key => if s.vlt.slotGen sl = (r.pin.getD (0, 0)).2 then
        { s with vlt := { s.vlt with keys := tset {} s.vlt.keys sl ((s.vlt.slot sl).counted key) } }
      else s
    | none => s)

theorem State.countKeyRecord_unpinned {s : State} {r : IngRec} (h : r.pin = none) : s.countKeyRecord r = s := by
  simp only [State.countKeyRecord, h, Option.isSome_none, State.whenB, Bool.false_eq_true, if_false]

theorem State.countKeyRecord_pinned {s : State} {r : IngRec} {c : Nat} {key : Key}
    (h : r.pin = some (c, s.vlt.slotGen (manF r.man 0x16 2))) (hk : (s.vlt.slot (manF r.man 0x16 2)).key = some key) :
    s.countKeyRecord r = { s with
      vlt := { s.vlt with keys := tset {} s.vlt.keys (manF r.man 0x16 2) ((s.vlt.slot (manF r.man 0x16 2)).counted key) } } := by
  simp only [State.countKeyRecord, h, hk, Option.isSome_some, State.whenB, if_true, Option.getD_some]

section RecordDone

variable {t i : Nat} {data : List Byte} {r : IngRec} {g : Stage} {s u : State} {b pl : List Byte} {e : Nat}
  (hr : s.recReady t i = some (r, g)) (hlen : r.src = 2 → data.length = r.stored)

include hr hlen

theorem runs_recordDone_unread (hs : s.recStored r data = .error e) (he : e ≠ stPOISON) :
    Runs (.recordDone t i data) s (s.ingFail t [(i, e)]) := by
  show execRecordDone t i data s = _
  simp only [execRecordDone, hr, hs]
  refine (if_neg (by simpa using hlen)).trans ?_
  simp only [he, decide_false, State.whenB, Bool.false_eq_true, if_false]

variable (hs : s.recStored r data = .ok b) (hu : u = s.bump (ingCtr 1) b.length)

include hs hu

theorem runs_recordDone_bad (hp : u.recPlain r b (4096 * (u.descOf t 0 5).cnt 0) = .error e) :
    Runs (.recordDone t i data) s ((u.ingFail t [(i, e)]).keyRetry g.inst) := by
  subst hu
  show execRecordDone t i data s = _
  simp only [execRecordDone, hr, hs, hp]
  exact if_neg (by simpa using hlen)

variable (hp : u.recPlain r b (4096 * (u.descOf t 0 5).cnt 0) = .ok pl)

include hp

theorem runs_recordDone_unframed (hf : framed r.man pl = none) :
    Runs (.recordDone t i data) s ((u.ingFail t [(i, stFORMAT)]).keyRetry g.inst) := by
  subst hu
  show execRecordDone t i data s = _
  simp only [execRecordDone, hr, hs, hp, hf]
  exact if_neg (by simpa using hlen)

theorem runs_recordDone_framed {fs : List (Nat × Nat × Nat)} {w : State} (hf : framed r.man pl = some fs)
    (hw : w = (u.bump (ingCtr 0) 1).bump (ingCtr 2) pl.length) :
    Runs (.recordDone t i data) s
      (((((w.countKeyRecord r).unpinKey r).setRec { r with pin := none, done := some (pl, ingEntry r.ticket pl fs) }).ingTiles t i).keyRetry
        g.inst) := by
  subst hw hu
  show execRecordDone t i data s = _
  simp only [execRecordDone, hr, hs, hp, hf]
  refine (if_neg (by simpa using hlen)).trans ?_
  simp only [State.countKeyRecord, KeySlot.counted] <;> rfl

end RecordDone

theorem runs_hostFetchTimeout {t i : Nat} {r : IngRec} {s : State} (hr : s.recOf t i = some r) (hw : s.recWaits t i = true)
    (hd : r.done = none) : Runs (.hostFetchTimeout t i) s ((s.ingFail t [(i, stTIMEOUT)]).keyRetry r.inst) := by
  show execHostFetchTimeout t i s = _
  simp only [execHostFetchTimeout, hr, hw, hd, Option.isNone_none, Bool.and_self, if_true]

theorem runs_hostFetchTimeout_none {t i : Nat} {s : State} (hr : s.recOf t i = none) : Runs (.hostFetchTimeout t i) s s := by
  show execHostFetchTimeout t i s = _
  simp only [execHostFetchTimeout, hr]

/-- Settles O39. -/
theorem fetchRows : Obligations.FetchRows := by
  refine ⟨fun t k x g s hready n p u hu hn hp hnone =>
      ⟨runs_fetch_enough hready hu hn hp hnone, fun _ => runs_fetch_waitOver hready hu hn hp hnone,
        runs_fetch_waits hready hu hn hp hnone, runs_fetch_empty hready hu hn hp hnone⟩,
    fun _ _ => rfl,
    fun t i data r g s hr hlen => ⟨fun _ => runs_recordDone_unread hr hlen, fun b u hs hu =>
      ⟨fun _ => runs_recordDone_bad hr hlen hs hu, fun pl hp => ⟨runs_recordDone_unframed hr hlen hs hu hp, fun fs w hf hw => ?_⟩⟩⟩,
    fun _ _ _ _ => runs_hostFetchTimeout, fun _ _ _ => runs_hostFetchTimeout_none⟩
  exact ⟨_, runs_recordDone_framed hr hlen hs hu hp hf hw, State.countKeyRecord_unpinned,
    fun _ _ hpin hkey => ⟨_, rfl, State.countKeyRecord_pinned hpin hkey⟩⟩

end Sys2Proof.Machine
end

section
/-! O40 and O41: NVMe over Fabrics and the Ethernet ports (chapter 13). -/

namespace Sys2Proof.Machine

/-! ### Connections -/

/-- A Read that stays with a connection when it is opened again: one not in quarantine. -/
def keepsRead (e : Nat × Option NvmeRead) : Bool := match e.2 with
  | some r => !r.quar
  | none => false

section Nvme

variable {tgt port cid st : Nat} {ns : List (Nat × Nat)} {k : Conn} {rd : NvmeRead} {r : IngRec} {s u : State}

theorem runs_nvmeConnect_up (hport : port < 2) (hk : s.conn (2 * tgt + port) = k) (hst : k.state = .connecting)
    (hup : (s.ethPort port).up = true) : Runs (.nvmeConnect tgt port true ns) s
      ((s.setConn (2 * tgt + port) { k with state := .ready, ns := ns, unacked := 0, retries := 0, rnrs := 0 }).pumpReads tgt) := by
  subst hk
  refine (if_neg ?_).trans ((if_pos rfl).trans (if_pos ?_))
  · simp [hst, hport]
  · simp [hst, hup]

theorem runs_nvmeConnect_failed (hport : port < 2) (hk : s.conn (2 * tgt + port) = k) (hst : k.state ≠ .ready) :
    Runs (.nvmeConnect tgt port false ns) s ((s.setConn (2 * tgt + port) { k with state := .none }).tgtLost tgt) := by
  subst hk
  refine (if_neg ?_).trans (if_neg Bool.false_ne_true)
  simp [hst, hport]

variable (hk : s.conn (2 * tgt + port) = k) (hrd : tget none k.reads cid = some rd)

include hk hrd

section Response

variable (hu : u = s.setConn (2 * tgt + port) { k with reads := tset none k.reads cid none })

include hu

theorem runs_nvmeResponse_quarantined (hq : rd.quar = true) : Runs (.nvmeResponse tgt port cid st) s (u.pumpReads tgt) := by
  subst hk hu
  show execNvmeResponse tgt port cid st s = _
  simp only [execNvmeResponse, hrd, hq, if_true]

variable (hq : rd.quar = false) (hr : u.recOf rd.task rd.record = some r)

include hq hr

theorem runs_nvmeResponse_ok :
    Runs (.nvmeResponse tgt port cid 0) s ((u.setRec { r with left := r.left - 1 }).pumpReads tgt) := by
  subst hk hu
  show execNvmeResponse tgt port cid 0 s = _
  simp only [execNvmeResponse, hrd, hq, hr, Bool.false_eq_true, if_false, ne_eq, not_true_eq_false]

theorem runs_nvmeResponse_error (hst : st ≠ 0) : Runs (.nvmeResponse tgt port cid st) s
    (((u.ingFail rd.task [(rd.record, stREMOTE)]).keyRetry r.inst).pumpReads tgt) := by
  subst hk hu
  show execNvmeResponse tgt port cid st s = _
  simp only [execNvmeResponse, hrd, hq, hr, Bool.false_eq_true, if_false, ne_eq, hst, not_false_eq_true, if_true]

end Response

theorem runs_fabricCmdTimeout_quarantined (hq : rd.quar = true) : Runs (.fabricCmdTimeout tgt port cid) s s := by
  subst hk
  show execFabricCmdTimeout tgt port cid s = _
  simp only [execFabricCmdTimeout, hrd, hq, if_true]

theorem runs_fabricCmdTimeout (hq : rd.quar = false)
    (hu : u = s.setConn (2 * tgt + port) { k with reads := tset none k.reads cid (some { rd with quar := true }) })
    (hr : u.recOf rd.task rd.record = some r) :
    Runs (.fabricCmdTimeout tgt port cid) s ((u.ingFail rd.task [(rd.record, stTIMEOUT)]).keyRetry r.inst) := by
  subst hk hu
  show execFabricCmdTimeout tgt port cid s = _
  simp only [execFabricCmdTimeout, hrd, hq, hr, Bool.false_eq_true, if_false]

theorem runs_quarantineReconnect_open (hq : rd.quar = false) : Runs (.quarantineReconnect tgt port cid) s s := by
  subst hk
  show execQuarantineReconnect tgt port cid s = _
  simp only [execQuarantineReconnect, hrd, hq, Bool.not_false, if_true]

/-- R336: a connection with a quarantined Read is closed and opened again; only Reads not in quarantine stay with it. -/
theorem exists_runs_quarantineReconnect (hq : rd.quar = true) :
    ∃ l, (∀ e ∈ l, e ∈ k.reads ∧ ∀ r, e.2 = some r → r.quar = false) ∧
      Runs (.quarantineReconnect tgt port cid) s
        (((s.setConn (2 * tgt + port) { k with state := .none, reads := l }).bump (ingCtr 6) 1).connStart (2 * tgt + port)) := by
  subst hk
  refine ⟨(s.conn (2 * tgt + port)).reads.filter keepsRead, fun e he => ?_, ?_⟩
  · obtain ⟨hmem, hkeep⟩ := List.mem_filter.1 he
    exact ⟨hmem, fun r hr => by simpa [keepsRead, hr] using hkeep⟩
  · show execQuarantineReconnect tgt port cid s = _
    simp only [execQuarantineReconnect, hrd, hq, Bool.not_true, Bool.false_eq_true, if_false]
    rfl

end Nvme

/-- A frame leaves at once through a port that is not paused. -/
theorem State.ethTx_of_not_paused {s : State} {x : Nat} (h : (s.ethPort x).paused = false) (kind : String) (data : List Byte) :
    s.ethTx x kind data = s.emit (.eth x kind data) :=
  if_neg (by simp [h])

/-- R335: of a target's two connections only the one that is READY is kept alive. -/
theorem exists_runs_keepAlive {tgt : Nat} {s : State} (h0 : (s.conn (2 * tgt)).state = .ready)
    (h1 : (s.conn (2 * tgt + 1)).state ≠ .ready) (hp : (s.ethPort 0).paused = false) :
    ∃ t, Runs (.keepAlive tgt) s t ∧ t.outs = Out.eth 0 "keep_alive" [] :: s.outs := by
  have hsend : s.roceSend (2 * tgt) "keep_alive" [] = (s.setConn (2 * tgt) { s.conn (2 * tgt) with
      txPsn := ((s.conn (2 * tgt)).txPsn + 1) % 2 ^ 24, unacked := (s.conn (2 * tgt)).unacked + 1 }).emit (.eth 0 "keep_alive" []) := by
    simp only [State.roceSend, Nat.mul_mod_right]
    exact State.ethTx_of_not_paused (s := s.setConn _ _) hp _ _
  refine ⟨s.roceSend (2 * tgt) "keep_alive" [], congrArg Host.Outcome.next ?_, by rw [hsend]; rfl⟩
  simp only [List.foldl_cons, List.foldl_nil, h0, if_true]
  refine if_neg ?_
  rw [hsend]
  change ((s.setConn _ _).conn _).state ≠ _
  rwa [State.conn_setConn_ne _ _ (by omega)]

/-- Settles O40. -/
theorem nvmeRows : Obligations.NvmeRows :=
  ⟨fun _ _ _ _ _ hport hk => ⟨runs_nvmeConnect_up hport hk, runs_nvmeConnect_failed hport hk⟩,
    fun _ _ _ _ _ _ hk hrd _ hu => ⟨fun _ => runs_nvmeResponse_quarantined hk hrd hu,
      fun _ hq hr => ⟨runs_nvmeResponse_ok hk hrd hu hq hr, fun _ => runs_nvmeResponse_error hk hrd hu hq hr⟩⟩,
    fun _ _ _ _ _ _ hk hrd => ⟨runs_fabricCmdTimeout_quarantined hk hrd, fun _ _ => runs_fabricCmdTimeout hk hrd,
      runs_quarantineReconnect_open hk hrd, exists_runs_quarantineReconnect hk hrd⟩,
    fun _ _ => exists_runs_keepAlive⟩

/-! ### RoCE packets -/

section Roce

variable {tgt port psn : Nat} {k : Conn} {s : State} (hport : port < 2)
  (hk : s.conn (2 * tgt + port) = k)

include hk

section Packet

variable (hup : (s.ethPort port).up = true)

include hport hup

theorem runs_rocePacketRx_unconnected {op : RoceOp} {ecn : Bool} (hc : k.state ≠ .connecting) (hr : k.state ≠ .ready) :
    Runs (.rocePacketRx tgt port op psn ecn) s (s.ethDiscard port) := by
  subst hk
  exact (if_neg (by simp [hport, hup])).trans (if_pos (by simp [hc, hr]))

variable (hr : k.state = .ready)

include hr

theorem runs_rocePacketRx_request {op : RoceOp} (hop : op = .send ∨ op = .rdmaWrite) :
    Runs (.rocePacketRx tgt port op psn false) s
      (if psn = k.rxPsn then (s.setConn (2 * tgt + port) { k with rxPsn := (psn + 1) % 2 ^ 24 }).ethTx port "ack" (leBytes 3 psn)
       else s) := by
  subst hk
  refine (if_neg (by simp [hport, hup])).trans ((if_neg (by simp [hr])).trans ?_)
  obtain rfl | rfl := hop <;> exact (apply_ite Host.Outcome.next _ _ _).symm

theorem runs_rocePacketRx_other :
    Runs (.rocePacketRx tgt port .other psn false) s (s.ethTx port "nak_invalid_request" (leBytes 3 psn)) := by
  subst hk
  exact (if_neg (by simp [hport, hup])).trans (if_neg (by simp [hr]))

theorem runs_rocePacketRx_ack :
    Runs (.rocePacketRx tgt port .ack psn false) s (s.setConn (2 * tgt + port) { k with unacked := 0, retries := 0, rnrs := 0 }) := by
  subst hk
  exact (if_neg (by simp [hport, hup])).trans (if_neg (by simp [hr]))

theorem runs_rocePacketRx_rnrNak (hleft : k.rnrs < s.cf (bING + 0x10) 7 5) :
    Runs (.rocePacketRx tgt port .rnrNak psn false) s
      ((s.setConn (2 * tgt + port) { k with rnrs := k.rnrs + 1 }).bump (ingCtr 4) 1) := by
  subst hk
  exact (if_neg (by simp [hport, hup])).trans ((if_neg (by simp [hr])).trans (if_neg (Nat.not_le.2 hleft)))

end Packet

theorem runs_roceAckTimeout_idle (h : k.unacked = 0) : Runs (.roceAckTimeout tgt port) s s := by
  subst hk
  exact if_pos (by simp [h])

variable (hr : k.state = .ready) (hun : k.unacked ≠ 0)

include hr hun

theorem runs_roceAckTimeout_retry (hleft : k.retries < s.cf (bING + 0x10) 10 8) : Runs (.roceAckTimeout tgt port) s
    (((s.setConn (2 * tgt + port) { k with retries := k.retries + 1 }).bump (ingCtr 4) k.unacked).ethTx port "retransmit"
      (leBytes 4 k.unacked)) := by
  subst hk
  exact (if_neg (by simp [hr, hun])).trans (if_neg (Nat.not_le.2 hleft))

theorem runs_roceAckTimeout_failed (hspent : s.cf (bING + 0x10) 10 8 ≤ k.retries) : Runs (.roceAckTimeout tgt port) s
    (s.setConn (2 * tgt + port) { k with state := .none, unacked := 0, retries := 0, rnrs := 0 }) := by
  subst hk
  exact (if_neg (by simp [hr, hun])).trans (if_pos hspent)

end Roce

/-! ### Ports -/

/-- A port set to anything but its reset value is read back. -/
theorem State.ethPort_setEthPort_of_ne (s : State) (x : Nat) {p : EthPort} (h : p ≠ {}) : (s.setEthPort x p).ethPort x = p := by
  simpa only [State.setEthPort, State.ethPort, tset, if_neg h] using tget_tins_same s.eth.port x p

/-- Emitting a list of items puts them before the outputs, the last one first, and changes nothing else. -/
theorem State.foldl_emit {α : Type} (f : α → Out) (l : List α) (s : State) :
    l.foldl (fun s a => s.emit (f a)) s = { s with outs := (l.map f).reverse ++ s.outs } := by
  induction l generalizing s with
  | nil => rfl
  | cons a l ih =>
    rw [List.foldl_cons, ih]
    simp [State.emit]

section Port

variable {x prio ip : Nat} {s : State} (hup : (s.ethPort x).up = true)

theorem runs_pfcFrameRx_other {b : Bool} (h : prio ≠ s.cf (rEth x) 55 52) : Runs (.pfcFrameRx x prio b) s s :=
  if_pos (by simp [h])

theorem runs_addrResAnswer_other (h : ip ≠ s.ownIp x) : Runs (.addrResAnswer x ip) s s :=
  if_neg (by simp [h])

include hup

theorem runs_pfcFrameRx_pause (h : prio = s.cf (rEth x) 55 52) :
    Runs (.pfcFrameRx x prio true) s (s.setEthPort x { s.ethPort x with paused := true }) :=
  if_neg (by simp [hup, h])

theorem runs_pfcFrameRx_resume (h : prio = s.cf (rEth x) 55 52) :
    Runs (.pfcFrameRx x prio false) s ((s.ethPort x).held.foldl (fun s f => s.emit (.eth x f.1 f.2))
      (s.setEthPort x { s.ethPort x with paused := false, held := [] })) :=
  if_neg (by simp [hup, h])

/-- R332: a port that resumes holds no frame, and what it held has left it in order. -/
theorem exists_runs_pfcFrameRx_resume (h : prio = s.cf (rEth x) 55 52) :
    ∃ t, Runs (.pfcFrameRx x prio false) s t ∧ (t.ethPort x).paused = false ∧ (t.ethPort x).held = [] ∧
      t.outs = ((s.ethPort x).held.map (fun f => Out.eth x f.1 f.2)).reverse ++ s.outs := by
  have hport := s.ethPort_setEthPort_of_ne x (p := { s.ethPort x with paused := false, held := [] })
    fun hd => by simpa [hup] using congrArg EthPort.up hd
  refine ⟨_, runs_pfcFrameRx_resume hup h, ?_⟩
  rw [State.foldl_emit]
  exact ⟨congrArg EthPort.paused hport, congrArg EthPort.held hport, rfl⟩

theorem runs_ethFrameDiscard (hx : x < 2) : Runs (.ethFrameDiscard x) s (s.ethDiscard x) :=
  if_pos (by simp [hx, hup])

theorem exists_runs_addrResAnswer (hx : x < 2) :
    ∃ v, Runs (.addrResAnswer x (s.ownIp x)) s (s.emit (.eth x v (s.cfgBytes (rEth x) 6))) :=
  ⟨_, if_pos (by simp [hx, hup])⟩

theorem runs_ethPortDown : Runs (.ethPortDown x) s
    ((((s.eth.conn.map Prod.fst).filter (fun c => c % 2 = x)).map (· / 2)).foldl State.tgtLost (s.ethDown x)) :=
  if_pos hup

theorem runs_ethPortUp_up : Runs (.ethPortUp x) s s :=
  if_neg (by simp [hup])

end Port

theorem exists_runs_ethPortUp {x : Nat} {s : State} (hdown : (s.ethPort x).up = false) (hcan : s.ethCan x = true) :
    ∃ v, Runs (.ethPortUp x) s ((s.setEthPort x { up := true }).emit (.eth x v (s.cfgBytes (rEth x) 6))) :=
  ⟨_, if_pos (by simp [hdown, hcan])⟩

/-! ### Address resolution -/

section Resolution

variable {x hop mac : Nat} {e : ArpEntry} {s : State}

theorem runs_addrResReply_unknown (h : tget none (s.ethPort x).arp hop = none) : Runs (.addrResReply x hop mac) s s := by
  show execAddrResReply x hop mac s = _
  simp only [execAddrResReply, h]

theorem runs_addrResRequest_unknown (h : tget none (s.ethPort x).arp hop = none) : Runs (.addrResRequest x hop) s s := by
  show execAddrResRequest x hop s = _
  simp only [execAddrResRequest, h]

variable (he : tget none (s.ethPort x).arp hop = some e)

include he

theorem runs_addrResRequest_again (hmac : e.mac = none) (htries : e.tries < 4) :
    Runs (.addrResRequest x hop) s ((s.arpPut x hop { e with tries := e.tries + 1 }).arpAsk x hop) := by
  show execAddrResRequest x hop s = _
  simp only [execAddrResRequest, he, hmac, htries, Option.isSome_none, Bool.false_eq_true, if_false, if_true]

theorem runs_addrResRequest_resolved (hmac : e.mac.isSome = true) : Runs (.addrResRequest x hop) s s := by
  show execAddrResRequest x hop s = _
  simp only [execAddrResRequest, he, hmac, if_true]

theorem runs_addrResReply_alone (hnone : (s.arpPut x hop { mac := some mac }).connsOn x hop = []) :
    Runs (.addrResReply x hop mac) s (s.arpPut x hop { mac := some mac }) := by
  show execAddrResReply x hop mac s = _
  simp only [execAddrResReply, he, hnone, List.filter_nil, List.foldl_nil]

theorem runs_addrEntryRefresh (hmac : e.mac.isSome = true) (huse : s.connsOn x hop ≠ []) :
    Runs (.addrEntryRefresh x hop) s (s.arpAsk x hop) := by
  show execAddrEntryRefresh x hop s = _
  simp only [execAddrEntryRefresh, he]
  exact if_pos (by simp [hmac, huse])

theorem runs_addrEntryExpiry (hmac : e.mac.isSome = true) : Runs (.addrEntryExpiry x hop) s
    (s.setEthPort x { s.ethPort x with arp := tset none (s.ethPort x).arp hop none }) := by
  show execAddrEntryExpiry x hop s = _
  simp only [execAddrEntryExpiry, he, hmac, if_true]

end Resolution

/-- Settles O41. -/
theorem ethernetRows : Obligations.EthernetRows :=
  ⟨fun _ _ _ _ _ hport hup hk => ⟨fun hc hr _ _ => runs_rocePacketRx_unconnected hport hk hup hc hr,
      fun hr => ⟨fun _ => runs_rocePacketRx_request hport hk hup hr, runs_rocePacketRx_other hport hk hup hr,
        runs_rocePacketRx_ack hport hk hup hr, runs_rocePacketRx_rnrNak hport hk hup hr,
        runs_roceAckTimeout_retry hk hr, runs_roceAckTimeout_failed hk hr, runs_roceAckTimeout_idle hk⟩⟩,
    fun _ _ _ hup => ⟨fun h => ⟨runs_pfcFrameRx_pause hup h, exists_runs_pfcFrameRx_resume hup h⟩,
      fun h _ => runs_pfcFrameRx_other h, runs_ethFrameDiscard hup, exists_runs_addrResAnswer hup,
      fun _ => runs_addrResAnswer_other, runs_ethPortDown hup, runs_ethPortUp_up hup⟩,
    fun _ _ => exists_runs_ethPortUp,
    fun _ _ _ _ _ he => ⟨runs_addrResRequest_again he, runs_addrResRequest_resolved he, fun _ => runs_addrResReply_alone he,
      runs_addrEntryRefresh he, runs_addrEntryExpiry he⟩,
    fun _ _ _ _ h => ⟨runs_addrResReply_unknown h, runs_addrResRequest_unknown h⟩⟩

end Sys2Proof.Machine
end

section
/-!
What an engine's row may change: the operations of streams keep every part of the state that StreamFrame names. Each is
shown to keep `State.beyondStreams`, the state with all that streams reach set to its reset value.
-/

namespace Sys2Proof.Machine

/-- The state without what the operations of streams change. -/
def State.beyondStreams (s : State) : State :=
  { s with mem := {}, regs := [], host := [], hif := {}, outs := [], que := {}, str := {}, free := 0 }

theorem StreamFrame.of_beyondStreams {s t : State} (h : t.beyondStreams = s.beyondStreams) : StreamFrame s t := by
  have part {α : Type} (f : State → α) : f t.beyondStreams = f s.beyondStreams := congrArg f h
  exact ⟨part State.pins, part State.clk, part State.pwr, part State.aon, part State.boot, part State.stg,
    part State.flt, part State.tel, part State.dbg, part State.vlt, part State.ldg, part State.eth,
    part State.ngl, part State.gth, part State.azm, part State.ing, part State.pak, part State.sen,
    part State.servo, part State.shHost, part State.shDbg, part State.shVlt, part State.flash,
    part State.time, part State.spine, part State.pending⟩

/-! ### Registers and outputs -/

/-- A change within the reach of streams keeps what lies beyond it. -/
@[simp] theorem State.reach_beyondStreams (s : State) {m : Mem} {r : Tbl Word} {ho : Tbl Byte} {hi : Hif} {o : List Out} {q : Que} {st : Str}
    {f : Nat} : ({ s with mem := m, regs := r, host := ho, hif := hi, outs := o, que := q, str := st, free := f } : State).beyondStreams =
      s.beyondStreams := rfl

@[simp] theorem State.setReg_beyondStreams (s : State) (a : Nat) (v : Word) :
    (s.setReg a v).beyondStreams = s.beyondStreams := s.reach_beyondStreams
@[simp] theorem State.bump_beyondStreams (s : State) (a n : Nat) :
    (s.bump a n).beyondStreams = s.beyondStreams := s.reach_beyondStreams
@[simp] theorem State.err_beyondStreams (s : State) (a : Nat) :
    (s.err a).beyondStreams = s.beyondStreams := s.reach_beyondStreams
@[simp] theorem State.emit_beyondStreams (s : State) (o : Out) :
    (s.emit o).beyondStreams = s.beyondStreams := s.reach_beyondStreams
@[simp] theorem State.hostPost_beyondStreams (s : State) (a : Nat) (b : List Byte) :
    (s.hostPost a b).beyondStreams = s.beyondStreams := s.reach_beyondStreams
@[simp] theorem State.setCc_beyondStreams (s : State) (l : Nat) (x : Option CcLine) :
    (s.setCc l x).beyondStreams = s.beyondStreams := s.reach_beyondStreams
@[simp] theorem State.setTask_beyondStreams (s : State) (t : Nat) (x : Option Task) :
    (s.setTask t x).beyondStreams = s.beyondStreams := s.reach_beyondStreams
@[simp] theorem State.setLastUe_beyondStreams (s : State) (src a : Nat) (o : Option MapEntry) :
    (s.setLastUe src a o).beyondStreams = s.beyondStreams :=
  (State.setReg_beyondStreams _ _ _).trans (s.setReg_beyondStreams _ _)

@[simp] theorem State.errN_beyondStreams (s : State) (a n : Nat) : (s.errN a n).beyondStreams = s.beyondStreams :=
  foldl_view (φ := State.beyondStreams) (fun s _ => State.err_beyondStreams s a) _ s

@[simp] theorem State.countPoison_beyondStreams (s : State) (n : Nat) : (s.countPoison n).beyondStreams = s.beyondStreams :=
  ite_view (φ := State.beyondStreams) (s := s) _ rfl s.reach_beyondStreams

theorem State.whenB_beyondStreams (s : State) (b : Bool) {f : State → State} (h : (f s).beyondStreams = s.beyondStreams) :
    (s.whenB b f).beyondStreams = s.beyondStreams :=
  ite_view (φ := State.beyondStreams) (s := s) _ h rfl

theorem State.fresh_beyondStreams (s : State) {f : Nat → State → State} (h : ∀ n s, (f n s).beyondStreams = s.beyondStreams) :
    (s.fresh f).beyondStreams = s.beyondStreams :=
  h _ _

/-! ### Device and host memory -/

theorem State.ccRoom_beyondStreams {s t : State} {l : Nat} (h : s.ccRoom l = some t) : t.beyondStreams = s.beyondStreams := by
  simp only [State.ccRoom] at h
  split at h
  · cases h; rfl
  · split at h
    · cases h
    · split at h
      · split at h
        · cases h
        · cases h; exact s.reach_beyondStreams
      · cases h; exact s.reach_beyondStreams

theorem State.ccInstall_beyondStreams {s t : State} {l : Nat} {x : CcLine} (h : s.ccInstall l x = some t) :
    t.beyondStreams = s.beyondStreams := by
  obtain ⟨u, hu, rfl⟩ := Option.map_eq_some_iff.1 h
  exact (u.setCc_beyondStreams l (some x)).trans (State.ccRoom_beyondStreams hu)

@[simp] theorem State.ccWrite_beyondStreams (s : State) (l o : Nat) (b : List Byte) : (s.ccWrite l o b).beyondStreams = s.beyondStreams := by
  simp only [State.ccWrite]
  split
  · split
    · split <;> simp
    · simp
  · split
    · split
      · next hu => simpa using State.ccInstall_beyondStreams hu
      · simp
    · split <;> simp

@[simp] theorem State.hostStore_beyondStreams (s : State) (a : Nat) (b : List Byte) (g : Option Nat) :
    (s.hostStore a b g).beyondStreams = s.beyondStreams := by
  simp only [State.hostStore]
  split
  · refine (foldl_view (φ := State.beyondStreams) (fun u p => ?_) _ _).trans s.reach_beyondStreams
    exact ite_view (φ := State.beyondStreams) (s := u) _ (u.ccWrite_beyondStreams _ _ _) u.reach_beyondStreams
  · exact s.reach_beyondStreams

@[simp] theorem State.wrOne_beyondStreams (s : State) (g : Option Nat) (space acc : Nat) (w : Wr) :
    (s.wrOne g space acc w).beyondStreams = s.beyondStreams := by
  simp only [State.wrOne]
  split
  · exact State.hostStore_beyondStreams s _ _ _
  · split <;> exact s.reach_beyondStreams

@[simp] theorem State.wrAll_beyondStreams (s : State) (g : Option Nat) (space acc : Nat) (l : List Wr) :
    (s.wrAll g space acc l).1.beyondStreams = s.beyondStreams := by
  induction l generalizing s with
  | nil => rfl
  | cons w ws ih =>
    simp only [State.wrAll]
    split
    · rfl
    · exact (ih _).trans (State.wrOne_beyondStreams s g space acc w)

@[simp] theorem State.wrEls_beyondStreams (s : State) (d : Desc) (l : List (Nat × List Byte × Bool)) (g : Option Nat) :
    (s.wrEls d l g).1.beyondStreams = s.beyondStreams :=
  State.wrAll_beyondStreams s _ _ _ _

/-- One key's writes of a work item, unless an earlier key's failed. -/
def State.wrKey (t k : Nat) (w : Work) (r : State × Option Nat) (key : Nat) : State × Option Nat :=
  match r with
  | (s, some e) => (s, some e)
  | (s, none) => s.wrEls (s.descOf t k key) ((w.writes.filter (fun x => x.1 = key)).map Prod.snd) ((s.task t).map Task.gen)

theorem State.wrWork_eq (s : State) (t k : Nat) (w : Work) :
    s.wrWork t k w = ((w.writes.map Prod.fst).eraseDups).foldl (State.wrKey t k w) (s, none) :=
  congrArg (fun f => ((w.writes.map Prod.fst).eraseDups).foldl f (s, none)) (funext fun r => funext fun _ => by
    obtain ⟨s, _ | e⟩ := r <;> rfl)

@[simp] theorem State.wrWork_beyondStreams (s : State) (t k : Nat) (w : Work) : (s.wrWork t k w).1.beyondStreams = s.beyondStreams := by
  rw [State.wrWork_eq]
  refine foldl_view (φ := fun r : State × Option Nat => r.1.beyondStreams) (fun r key => ?_) _ _
  obtain ⟨s, _ | e⟩ := r
  · exact State.wrEls_beyondStreams s _ _ _
  · rfl

@[simp] theorem State.wrWorks_beyondStreams (s : State) (t k : Nat) (l : List Work) :
    (s.wrWorks t k l).1.beyondStreams = s.beyondStreams := by
  induction l generalizing s with
  | nil => rfl
  | cons w ws ih =>
    have hw := State.wrWork_beyondStreams s t k w
    simp only [State.wrWorks]
    split
    · next h => rwa [h] at hw
    · next h => rw [h] at hw; exact (ih _).trans hw

@[simp] theorem State.runWorks_beyondStreams (s : State) (t k : Nat) (l : List Work) :
    (s.runWorks t k l).1.beyondStreams = s.beyondStreams := by
  simp only [State.runWorks]
  split <;> exact (State.wrWorks_beyondStreams _ t k _).trans s.reach_beyondStreams

/-! ### Tasks and streams -/

@[simp] theorem State.modTask_beyondStreams (s : State) (t : Nat) (f : Task → Task) : (s.modTask t f).beyondStreams = s.beyondStreams := by
  simp only [State.modTask]
  split
  · exact s.reach_beyondStreams
  · rfl

@[simp] theorem State.endStreams_beyondStreams (s : State) (t k : Nat) : (s.endStreams t k).beyondStreams = s.beyondStreams := by
  refine foldl_view (φ := State.beyondStreams) (fun s e => ?_) _ s
  dsimp only
  split
  · split
    · exact s.reach_beyondStreams
    · rfl
  · rfl

@[simp] theorem State.endStage_beyondStreams (s : State) (t k : Nat) (r : Res) (hb : List (List Byte)) :
    (s.endStage t k r hb).beyondStreams = s.beyondStreams := by
  have hends (f : Task → Task) : ((s.modTask t f).endStreams t k).beyondStreams = s.beyondStreams :=
    (State.endStreams_beyondStreams _ t k).trans (s.modTask_beyondStreams t f)
  simp only [State.endStage]
  split
  · split <;> exact (State.reach_beyondStreams _).trans (hends _)
  · exact (State.reach_beyondStreams _).trans (hends _)

@[simp] theorem State.bayUse_beyondStreams (s : State) (n : Nat) (l : List (Nat × Nat)) : (s.bayUse n l).beyondStreams = s.beyondStreams :=
  foldl_view (φ := State.beyondStreams) (fun s _ => s.reach_beyondStreams) _ s

/-- An engine's row whose body keeps what lies beyond streams keeps it from the state before the row. -/
theorem StreamFrame.of_bayUse {s t : State} {n : Nat} {l : List (Nat × Nat)} (h : t.beyondStreams = (s.bayUse n l).beyondStreams) :
    StreamFrame s t :=
  StreamFrame.of_beyondStreams (h.trans (State.bayUse_beyondStreams s n l))

/-! ### The status of a failed access -/

/-- The statuses with which an access fails (R250). -/
def accessStatus (c : Nat) : Prop := c = stADDR_RANGE ∨ c = stFENCED

theorem accessStatus.ne_ok {c : Nat} (h : accessStatus c) : c ≠ stOK := by
  obtain rfl | rfl := h <;> decide

theorem accessStatus.ne_format {c : Nat} (h : accessStatus c) : c ≠ stFORMAT := by
  obtain rfl | rfl := h <;> decide

theorem State.accErr_status {s : State} {space n c : Nat} {a : Int} (h : s.accErr space a n = some c) : accessStatus c := by
  simp only [State.accErr, apply_ite (· = some c), Option.some.injEq, reduceCtorEq] at h
  unfold accessStatus
  repeat' split at h
  all_goals simp_all only [true_or, or_true]

/-- A read fails with the status of a failed access. -/
def El.failsByAccess (r : El) : Prop := ∀ c, r.err = some c → accessStatus c

theorem State.elAt_failsByAccess (s : State) (space : Nat) (a : Int) (n : Nat) : (s.elAt space a n).failsByAccess := by
  intro c hc
  unfold State.elAt at hc
  split at hc
  · next h => exact Option.some.inj hc ▸ State.accErr_status h
  · cases hc

theorem State.elN_failsByAccess (s : State) (d : Desc) (n : Nat) : (s.elN d n).failsByAccess :=
  s.elAt_failsByAccess _ _ _

theorem State.elRd_failsByAccess (s : State) (d : Desc) (i : List Int) : (s.elRd d i).failsByAccess := by
  simpa only [State.elRd, Bool.false_and, Bool.false_eq_true, if_false] using s.elAt_failsByAccess _ _ _

theorem State.wrAll_status {s : State} {g : Option Nat} {space acc c : Nat} {l : List Wr} (h : (s.wrAll g space acc l).2 = some c) :
    accessStatus c := by
  induction l generalizing s with
  | nil => cases h
  | cons w ws ih =>
    simp only [State.wrAll] at h
    split at h
    · next he => exact Option.some.inj h ▸ State.accErr_status he
    · exact ih h

theorem State.wrKey_status {t k : Nat} {w : Work} {l : List Nat} {r : State × Option Nat} {c : Nat}
    (hr : ∀ c, r.2 = some c → accessStatus c) (h : (l.foldl (State.wrKey t k w) r).2 = some c) : accessStatus c := by
  induction l generalizing r with
  | nil => exact hr c h
  | cons key l ih =>
    refine ih (r := State.wrKey t k w r key) (fun c hc => ?_) h
    obtain ⟨s, _ | e⟩ := r
    · exact State.wrAll_status hc
    · exact hr c hc

theorem State.wrWorks_status {s : State} {t k c : Nat} {l : List Work} (h : (s.wrWorks t k l).2 = some c) : accessStatus c := by
  induction l generalizing s with
  | nil => cases h
  | cons w ws ih =>
    simp only [State.wrWorks] at h
    split at h
    · next he =>
      refine State.wrKey_status (t := t) (k := k) (w := w) (l := (w.writes.map Prod.fst).eraseDups) (r := (s, none))
        (fun c hc => nomatch hc) ?_
      exact (congrArg Prod.snd ((State.wrWork_eq s t k w).symm.trans he)).trans h
    · exact ih h

/-! What the engines do to the bytes of clashing, torn and shared writes leaves the reads as they are. -/

theorem State.clashed_reads (s : State) (b : Bool) (l : List Work) : (s.clashed b l).map Work.reads = l.map Work.reads := by
  simp only [State.clashed]
  split
  · rfl
  · simp

theorem State.torn_reads (s : State) (t k : Nat) (old : List Span) (n : Nat) (l : List Work) :
    (s.torn t k old n l).map Work.reads = l.map Work.reads := by
  induction l generalizing old n with
  | nil => rfl
  | cons w ws ih =>
    simp only [State.torn, List.map_cons, ih]
    split <;> rfl

theorem State.shared_reads (s : State) (t k : Nat) (l : List Work) : (s.shared t k l).map Work.reads = l.map Work.reads := by
  simp only [State.shared]
  split
  · rfl
  · simp

theorem exists_read_of_firstErr {l : List Work} {n m e : Nat} (h : firstErr n l = some (m, e)) :
    ∃ rs ∈ l.map Work.reads, ∃ r ∈ rs, r.err = some e := by
  induction l generalizing n with
  | nil => cases h
  | cons w ws ih =>
    simp only [firstErr] at h
    split at h
    · next he =>
      cases h
      obtain ⟨r, hr, hre⟩ := List.exists_of_findSome?_eq_some he
      exact ⟨w.reads, by simp, r, hr, hre⟩
    · obtain ⟨rs, hrs, r⟩ := ih h
      exact ⟨rs, List.mem_cons_of_mem _ hrs, r⟩

/-- Work whose reads fail only as accesses do ends, if it fails, with the status of a failed access. -/
theorem State.runWorks_status {s : State} {t k c : Nat} {l : List Work} (hl : ∀ w ∈ l, ∀ r ∈ w.reads, r.failsByAccess)
    (h : (s.runWorks t k l).2 = some c) : accessStatus c := by
  simp only [State.runWorks] at h
  split at h
  · exact State.wrWorks_status h
  · next he =>
    obtain ⟨rs, hrs, r, hr, hre⟩ := exists_read_of_firstErr he
    rw [State.shared_reads, State.torn_reads, State.clashed_reads] at hrs
    obtain ⟨w, hw, rfl⟩ := List.mem_map.1 hrs
    exact Option.some.inj h ▸ hl w hw r hr _ hre

end Sys2Proof.Machine
end

section
/-! O42: the engines' rows end their stage with the count of their output's samples (chapters 14 to 17). -/

namespace Sys2Proof.Machine

/-- What EndsCounted asks of a result: its low half counts, and only DAMAGED has a detail. -/
def Res.counts (r : Res) (n : Nat) : Prop := (r.result ≠ 0 → r.result % 2 ^ 32 = n % 2 ^ 32) ∧ (r.status ≠ stDAMAGED → r.detail = 0)

/-- A state `v` ends the stage with a result that counts `n`, and nothing beyond streams has changed since `u`. -/
def State.endsCounting (u v : State) (t k n : Nat) : Prop :=
  ∃ (w : State) (r : Res) (hb : List (List Byte)), v = w.endStage t k r hb ∧ w.beyondStreams = u.beyondStreams ∧ r.counts n

theorem Res.counts_of_failed (c n : Nat) : ({ status := c } : Res).counts n :=
  ⟨fun h => absurd rfl h, fun _ => rfl⟩

theorem sampleRes_counts (stage : Nat) (okToo : List Nat) (l : List Outcome) : (sampleRes stage okToo l).counts l.length := by
  refine ⟨fun _ => ?_, fun h => ?_⟩
  · simp [sampleRes, put]
  · simp only [sampleRes] at h ⊢
    exact if_pos (Decidable.byContradiction fun hn => h (if_neg hn))

section

variable {u w : State} {t k n : Nat} (hw : w.beyondStreams = u.beyondStreams)

include hw

theorem State.endsCounting_failed (c : Nat) : u.endsCounting (w.endStage t k { status := c }) t k n :=
  ⟨w, _, [], rfl, hw, Res.counts_of_failed c n⟩

theorem State.endsCounting_sampled (stage : Nat) {l : List Outcome} (hl : l.length = n) (hb : List (List Byte)) :
    u.endsCounting (w.endStage t k (sampleRes stage [] l) hb) t k n :=
  ⟨w, _, hb, rfl, hw, hl ▸ sampleRes_counts stage [] l⟩

end

/-- An engine's row ends its stage, counting, when its body does. -/
theorem EndsCounted.of_body {c : Instr} {t k n kind op : Nat} {x : Task} {g : Stage} {s u : State} {f : Task → Stage → State → State}
    (hc : exec c s = .next (s.eng t k kind op f)) (hready : s.engReady t k kind op x g) (hu : u = s.bayUse g.inst g.bufs)
    (hbody : u.endsCounting (f x g u) t k n) : EndsCounted c t k n s := by
  subst hu
  obtain ⟨w, r, hb, heq, hw, hcount⟩ := hbody
  refine ⟨w, r, hb, hc.trans (congrArg Host.Outcome.next ((State.eng_of_ready hready f).trans heq)), ?_, hcount⟩
  exact StreamFrame.of_bayUse ((w.endStage_beyondStreams t k r hb).trans hw)

/-- The state after an engine's work, from the pair that the work gives. -/
theorem State.beyondStreams_of_runWorks {s v : State} {t k : Nat} {l : List Work} {e : Option Nat} (h : s.runWorks t k l = (v, e)) :
    v.beyondStreams = s.beyondStreams := by
  simpa only [h] using s.runWorks_beyondStreams t k l

/-! ### DEC -/

theorem State.workUsed_beyondStreams (s : State) (d : Desc) (l : List (Nat × Nat)) : (s.workUsed d l).beyondStreams = s.beyondStreams := by
  refine foldl_view (φ := State.beyondStreams) (fun s e => ?_) l s
  split
  · rfl
  · exact (State.wrAll_beyondStreams _ _ _ _ _).trans s.reach_beyondStreams

theorem State.decCount_beyondStreams (s : State) (bay : Nat) (d : DecOut) : (s.decCount bay d).beyondStreams = s.beyondStreams := by
  have errs (u : State) (b : Bool) (a : Nat) : (u.whenB b (·.err a)).beyondStreams = u.beyondStreams :=
    u.whenB_beyondStreams b (u.err_beyondStreams a)
  have bumps (u : State) (p : Prop) [Decidable p] (a n : Nat) : (if p then u.bump a n else u).beyondStreams = u.beyondStreams :=
    ite_view (φ := State.beyondStreams) (s := u) p (u.bump_beyondStreams a n) rfl
  have err (p : Prop) [Decidable p] : (if p then s.err (decCtr bay 7) else s).beyondStreams = s.beyondStreams :=
    ite_view (φ := State.beyondStreams) (s := s) p (s.err_beyondStreams _) rfl
  simp only [State.decCount]
  split
  · exact err _
  · simp only [errs, bumps, State.bump_beyondStreams, err]

theorem State.decRun_endsCounting (u : State) (video : Bool) (t k : Nat) (x : Task) (g : Stage) :
    u.endsCounting (u.decRun video t k x g) t k ((u.descOf t k 7).cnt (if video then 3 else 2)) := by
  unfold State.decRun
  extract_lets ws o dm e dim n grp frames step ds sample pixel visits lastOf works pois
  split
  next v err hrun =>
  have hv : v.beyondStreams = u.beyondStreams := by simpa using State.beyondStreams_of_runWorks hrun
  extract_lets s1
  have hs1 : s1.beyondStreams = u.beyondStreams := (v.workUsed_beyondStreams _ _).trans hv
  split
  · exact State.endsCounting_failed hs1 _
  · refine State.endsCounting_sampled ?_ _ ?_ _
    · exact (foldl_view (φ := State.beyondStreams) (fun s d => s.decCount_beyondStreams g.inst d) _ _).trans hs1
    · cases video <;> simp [ds, n, dim, e, o]

/-! ### LEX -/

theorem State.lexCount_beyondStreams (s : State) (bay : Nat) (r : LexRes) (o : Outcome) : (s.lexCount bay r o).beyondStreams = s.beyondStreams := by
  have errs (u : State) (b : Bool) (a : Nat) : (u.whenB b (·.err a)).beyondStreams = u.beyondStreams :=
    u.whenB_beyondStreams b (u.err_beyondStreams a)
  simp only [State.lexCount]
  split
  · simp
  · split
    · simp
    · simp only [errs, State.bump_beyondStreams]

theorem length_of_mapM_ok {α β ε : Type} {f : α → Except ε β} {l : List α} {rs : List β} (h : l.mapM f = .ok rs) :
    rs.length = l.length := by
  induction l generalizing rs with
  | nil => cases h; rfl
  | cons a l ih =>
    rw [List.mapM_cons] at h
    cases ha : f a with
    | error e => rw [ha] at h; cases h
    | ok b =>
      cases hl : l.mapM f with
      | error e => rw [ha, hl] at h; cases h
      | ok bs => rw [ha, hl] at h; cases h; simp [ih hl]

theorem State.lexRun_endsCounting (u : State) (t k : Nat) (x : Task) (g : Stage) :
    u.endsCounting (u.lexRun t k x g) t k ((u.descOf t k 7).cnt 1) := by
  unfold State.lexRun
  extract_lets ws d o e
  split
  · exact State.endsCounting_failed (u.whenB_beyondStreams _ (u.err_beyondStreams _)) _
  · next rs hrs =>
    extract_lets ps tok word offw works pois
    split
    next v err hrun =>
    have hv : v.beyondStreams = u.beyondStreams := by simpa using State.beyondStreams_of_runWorks hrun
    split
    · exact State.endsCounting_failed hv _
    · refine State.endsCounting_sampled ?_ _ ?_ _
      · refine (State.fresh_beyondStreams _ fun f s => s.bump_beyondStreams _ _).trans (Eq.trans ?_ hv)
        exact foldl_view (φ := State.beyondStreams) (fun s (p : LexRes × Outcome) => s.lexCount_beyondStreams g.inst p.1 p.2) _ v
      · simpa [ps, e, o] using length_of_mapM_ok hrs

/-! ### GRT -/

theorem State.grtRun_endsCounting (u : State) (t k : Nat) (x : Task) (g : Stage) :
    u.endsCounting (u.grtRun t k x g) t k ((u.descOf t k 7).cnt 2) := by
  unfold State.grtRun
  extract_lets ws b o e n rs zero visits tiles all ofS pois m outc outs dead bytes works np
  split
  next v err hrun =>
  have hv : v.beyondStreams = u.beyondStreams := by simpa using State.beyondStreams_of_runWorks hrun
  split
  · exact State.endsCounting_failed hv _
  · refine State.endsCounting_sampled ?_ _ ?_ _
    · simp only [State.errN_beyondStreams]
      refine (State.fresh_beyondStreams _ fun f s => s.bump_beyondStreams _ _).trans ?_
      simpa only [State.bump_beyondStreams] using hv
    · simp [outs, n, e, o]

/-! ### ORY -/

theorem State.oryRun_endsCounting (u : State) (op t k : Nat) (x : Task) (g : Stage) :
    u.endsCounting (u.oryRun op t k x g) t k ((u.descOf t k 7).cnt 2) := by
  unfold State.oryRun
  extract_lets ws mode A O W X hasX hasTk e hand par pf pa pb fmt aRow vals aV wV resid toF rowOut best outWord visits js els aPois wRows
    wPois batch dead word works0 works pois stop s0 bad nf total base T outc outs dmg c passes cores K macs hb r
  have hs0 : s0.beyondStreams = u.beyondStreams := u.countPoison_beyondStreams pois
  split
  · exact State.endsCounting_failed hs0 _
  · split
    next v err hrun =>
    have hv : v.beyondStreams = u.beyondStreams := (State.beyondStreams_of_runWorks hrun).trans hs0
    split
    · exact State.endsCounting_failed hv _
    · extract_lets s1 s2 s3
      have hs3 : s3.beyondStreams = u.beyondStreams := by
        refine (State.errN_beyondStreams _ _ _).trans ((State.fresh_beyondStreams _ fun f s => ?_).trans ?_)
        · exact (State.bump_beyondStreams _ _ _).trans (s.bump_beyondStreams _ _)
        · simpa only [s1, State.bump_beyondStreams] using hv
      refine ⟨s3, _, hb, rfl, hs3, ?_⟩
      split
      · next hTk =>
        have hlen : outs.length = O.cnt 2 := by simp [outs, hTk, batch]
        exact hlen ▸ sampleRes_counts (oryStage ws) [] outs
      · exact Res.counts_of_failed stOK _

/-- Settles O42. -/
theorem mediaAndMatrixRows : Obligations.MediaAndMatrixRows := fun t k x g _ u hu =>
  ⟨fun h => .of_body rfl h hu (u.decRun_endsCounting false t k x g), fun h => .of_body rfl h hu (u.decRun_endsCounting true t k x g),
    fun h => .of_body rfl h hu (u.lexRun_endsCounting t k x g), fun h => .of_body rfl h hu (u.grtRun_endsCounting t k x g),
    fun h => .of_body rfl h hu (u.oryRun_endsCounting 1 t k x g), fun h => .of_body rfl h hu (u.oryRun_endsCounting 2 t k x g),
    fun h => .of_body rfl h hu (u.oryRun_endsCounting 3 t k x g)⟩

end Sys2Proof.Machine
end

section
/-! O43: COPY, GATHER_ROWS and SCATTER_ROWS (chapter 23). -/

namespace Sys2Proof.Machine

theorem stPOISON_ne_stOK : stPOISON ≠ stOK := by decide
theorem stPOISON_ne_stFORMAT : stPOISON ≠ stFORMAT := by decide
theorem stOK_ne_stFORMAT : stOK ≠ stFORMAT := by decide

/-- The reads of joined work items are those of the items. -/
theorem Work.forall_reads_join {p : El → Prop} {l : List Work} (h : ∀ w ∈ l, ∀ r ∈ w.reads, p r) : ∀ r ∈ (Work.join l).reads, p r := by
  intro r hr
  obtain ⟨w, hw, hrw⟩ := List.mem_flatMap.1 hr
  exact h w hw r hrw

/-- Work made of tiles of units, each of whose reads fails only as accesses do. -/
theorem failsByAccess_of_units {α : Type} {unit : α → List Work} (h : ∀ i, ∀ w ∈ unit i, ∀ r ∈ w.reads, r.failsByAccess)
    (tiles : List (List α)) : ∀ w ∈ tiles.map (fun l => Work.join (l.flatMap unit)), ∀ r ∈ w.reads, r.failsByAccess := by
  intro w hw
  obtain ⟨l, -, rfl⟩ := List.mem_map.1 hw
  refine Work.forall_reads_join fun w hw => ?_
  obtain ⟨i, -, hi⟩ := List.mem_flatMap.1 hw
  exact h i w hi

/-- A state `v` ends the stage with a result of which `p` holds, and nothing beyond streams has changed since `u`. -/
def State.endsBy (u v : State) (t k : Nat) (p : Res → Prop) : Prop :=
  ∃ (w : State) (r : Res), v = w.endStage t k r ∧ w.beyondStreams = u.beyondStreams ∧ p r

/-- An engine's row ends its stage as its body does. -/
theorem State.exists_ends_of_body {c : Instr} {t k kind op : Nat} {x : Task} {g : Stage} {s u : State} {f : Task → Stage → State → State}
    {p : Res → Prop} (hc : exec c s = .next (s.eng t k kind op f)) (hready : s.engReady t k kind op x g) (hu : u = s.bayUse g.inst g.bufs)
    (hbody : u.endsBy (f x g u) t k p) :
    ∃ (w : State) (r : Res), Runs c s (w.endStage t k r) ∧ StreamFrame s (w.endStage t k r) ∧ p r := by
  subst hu
  obtain ⟨w, r, heq, hw, hp⟩ := hbody
  refine ⟨w, r, hc.trans (congrArg Host.Outcome.next ((State.eng_of_ready hready f).trans heq)), ?_, hp⟩
  exact StreamFrame.of_bayUse ((w.endStage_beyondStreams t k r []).trans hw)

/-- What a COPY stage ends with (R543, R544). -/
def copyEnds (u : State) (t k : Nat) (g : Stage) (r : Res) : Prop :=
  r.detail = 0 ∧ r.status ≠ stFORMAT ∧ (r.status = stOK → wb g.words 5 16 = false →
    r.result = putB (!copyExchange g.words (u.descOf t k 0).elem (u.descOf t k 1).elem) 63 + put (u.descOf t k 1).total 0 48)

theorem exists_runs_copy {t k : Nat} {x : Task} {g : Stage} {s u : State} (hready : s.engReady t k 9 1 x g) (hu : u = s.bayUse g.inst g.bufs) :
    ∃ (w : State) (r : Res), Runs (.copy t k) s (w.endStage t k r) ∧ StreamFrame s (w.endStage t k r) ∧ copyEnds u t k g r := by
  refine State.exists_ends_of_body rfl hready hu ?_
  extract_lets ws a b e sty dty skip src unit tiles works outs inside ex n
  have hreads : ∀ w ∈ works, ∀ r ∈ w.reads, r.failsByAccess := by
    refine failsByAccess_of_units (fun i w hw r hr => ?_) tiles
    simp only [unit] at hw
    split at hw
    · obtain rfl := List.mem_singleton.1 hw
      obtain rfl := List.mem_singleton.1 hr
      exact u.elRd_failsByAccess _ _
    · split at hw
      · cases hw
      · obtain rfl := List.mem_singleton.1 hw
        cases hr
  split
  next v err hrun =>
  have hv : v.beyondStreams = u.beyondStreams := State.beyondStreams_of_runWorks hrun
  extract_lets s1 s2 s3 s4
  have hs4 : s4.beyondStreams = u.beyondStreams := by
    simp only [s4, s3, s2, s1, State.countPoison_beyondStreams, State.bump_beyondStreams]
    exact ite_view (φ := State.beyondStreams) (s := u) _ (by simpa using hv) (by simpa using hv)
  split
  · next c =>
    have hc : accessStatus c := State.runWorks_status hreads (congrArg Prod.snd hrun)
    exact ⟨s4, _, rfl, hs4, rfl, hc.ne_format, fun h => absurd h hc.ne_ok⟩
  · split
    · exact ⟨s4, _, rfl, hs4, rfl, stPOISON_ne_stFORMAT, fun h => absurd h stPOISON_ne_stOK⟩
    · refine ⟨s4, _, rfl, hs4, rfl, stOK_ne_stFORMAT, fun _ hskip => ?_⟩
      simp [skip, ws, hskip, ex, a, b]

/-- What a GATHER_ROWS or SCATTER_ROWS stage over `q` indices into `rows` rows ends with (R547, R548). -/
def rowsEnd (q rows : Nat) (idx : Nat → Nat) (r : Res) : Prop :=
  r.detail = 0 ∧
    (r.status = stOK → (∀ n, n < q → idx n = 0xFFFFFFFF ∨ idx n < rows) ∧ r.result % 2 ^ 32 = q % 2 ^ 32) ∧
    (r.status = stFORMAT → ∃ p, p < q ∧ r.result = p ∧ idx p ≠ 0xFFFFFFFF ∧ rows ≤ idx p ∧
      ∀ n, n < p → idx n = 0xFFFFFFFF ∨ idx n < rows)

theorem State.rowsRun_endsBy (u : State) (sc : Bool) (t k : Nat) (g : Stage) :
    u.endsBy (u.rowsRun sc t k g) t k (rowsEnd ((u.descOf t k 9).cnt 0) (if sc then (u.descOf t k 7).cnt 0 else (u.descOf t k 5).cnt 0)
      (fun n => leNat (u.elN (u.descOf t k 9) n).data)) := by
  unfold State.rowsRun
  extract_lets src dst ix q idx rows pad unit tiles bad good works done pads moved n
  have hgood (i : Nat) (h : ¬ bad i = true) : idx i = 0xFFFFFFFF ∨ idx i < rows := by
    simp only [bad, Bool.and_eq_true, decide_eq_true_eq] at h
    omega
  have hreads : ∀ w ∈ works, ∀ r ∈ w.reads, r.failsByAccess := by
    refine failsByAccess_of_units (fun i w hw r hr => ?_) good
    simp only [unit] at hw
    split at hw <;> obtain rfl := List.mem_singleton.1 hw
    · obtain rfl := List.mem_singleton.1 hr
      exact u.elN_failsByAccess _ _
    · obtain rfl | hr := List.mem_cons.1 hr
      · exact u.elN_failsByAccess _ _
      · obtain rfl := List.mem_singleton.1 hr
        exact u.elN_failsByAccess _ _
  split
  next v err hrun =>
  have hv : v.beyondStreams = u.beyondStreams := State.beyondStreams_of_runWorks hrun
  extract_lets s1 s2 s3
  have hs3 : s3.beyondStreams = u.beyondStreams := by
    simpa only [s3, s2, s1, State.countPoison_beyondStreams, State.bump_beyondStreams] using hv
  split
  · next c =>
    have hc : accessStatus c := State.runWorks_status hreads (congrArg Prod.snd hrun)
    exact ⟨s3, _, rfl, hs3, rfl, fun h => absurd h hc.ne_ok, fun h => absurd h hc.ne_format⟩
  · split
    · next p hp =>
      obtain ⟨hbad, hmem, hfirst⟩ := List.find?_range_eq_some.1 hp
      have hbad' : idx p ≠ 0xFFFFFFFF ∧ rows ≤ idx p := by
        simpa only [bad, Bool.and_eq_true, decide_eq_true_eq] using hbad
      refine ⟨s3.err (bXCH + 0x1038), _, rfl, (s3.err_beyondStreams _).trans hs3, rfl, fun h => absurd h stOK_ne_stFORMAT.symm, fun _ => ?_⟩
      exact ⟨p, List.mem_range.1 hmem, rfl, hbad'.1, hbad'.2, fun i hi => hgood i (by simpa using hfirst i hi)⟩
    · next hnone =>
      have hall (i : Nat) (hi : i < q) : idx i = 0xFFFFFFFF ∨ idx i < rows :=
        hgood i (List.find?_eq_none.1 hnone i (List.mem_range.2 hi))
      split
      · exact ⟨s3, _, rfl, hs3, rfl, fun h => absurd h stPOISON_ne_stOK, fun h => absurd h stPOISON_ne_stFORMAT⟩
      · exact ⟨s3, _, rfl, hs3, rfl, fun _ => ⟨hall, by simp [put, q, ix]⟩, fun h => absurd h stOK_ne_stFORMAT⟩

/-- Settles O43. -/
theorem exchangeRows : Obligations.ExchangeRows := by
  refine fun t k x g s u hu => ⟨fun hready => exists_runs_copy hready hu, fun sc hready q rows idx hq hrows hidx => ?_⟩
  obtain rfl : idx = fun n => leNat (u.elN (u.descOf t k 9) n).data := funext hidx
  subst hq hrows
  cases sc with
  | true => exact State.exists_ends_of_body rfl hready hu (u.rowsRun_endsBy true t k g)
  | false => exact State.exists_ends_of_body rfl hready hu (u.rowsRun_endsBy false t k g)

end Sys2Proof.Machine
end

section
/-! O45 and O46: messages of the gather engines, and sampling (chapters 19, 20 and 24). -/

namespace Sys2Proof.Machine

/-! ### Gather messages -/

/-- R460, R574: a request is answered in its mode, and the answer begins with the request's identifier. -/
theorem exists_runs_gatherReq {m : RxMsg} {n : Nat} {s : State} (hm : s.has 3 0 m)
    (hn : (kindBays 5).find? (fun n => s.instRuns n) = some n) :
    ∃ (ty : Nat) (p : List Byte), (ty = if leNat ((m.body.drop 6).take 1) = 0 then 4 else 5) ∧ m.body.take 4 <+: p ∧
      Runs .gatherReq s (((s.popMsg m).bump (bGTH + 0x100) 1).gateMsg n { dst := m.src, toEp := m.srcEp, type := ty, payload := p }) := by
  have hruns : exec .gatherReq s = execGatherReq s := rfl
  unfold execGatherReq at hruns
  rw [hm] at hruns
  simp only [hn] at hruns
  by_cases hmode : leNat ((m.body.drop 6).take 1) = 0
  · rw [if_pos hmode] at hruns
    refine ⟨4, _, (if_pos hmode).symm, ?_, hruns⟩
    exact ⟨_, by simp only [List.append_assoc]; rfl⟩
  · rw [if_neg hmode] at hruns
    refine ⟨5, _, (if_neg hmode).symm, ?_, hruns⟩
    exact ⟨_, by simp only [List.append_assoc]; rfl⟩

theorem runs_gatherReq_none {s : State} (h : s.inMsg 3 0 = none) : Runs .gatherReq s s := by
  show execGatherReq s = _
  rw [execGatherReq, h]

theorem runs_gatherRsp_none {s : State} (h : s.inMsg 4 0 = none) : Runs .gatherRsp s s := by
  show execGatherRsp s = _
  rw [execGatherRsp, h]

theorem runs_pooledSum_none {s : State} (h : s.inMsg 5 0 = none) : Runs .pooledSum s s := by
  show execPooledSum s = _
  rw [execPooledSum, h]

theorem State.hotPlace_gth (s : State) (d : TblDesc) (inst v i : Nat) (row : List Byte) (pre : Bool) :
    (s.hotPlace d inst v i row pre).1.gth = s.gth := by
  unfold State.hotPlace
  extract_lets w0
  split <;> rfl

theorem State.hotFetched_gth (s : State) (d : TblDesc) (inst table v i : Nat) (row : List Byte) (pre : Bool) :
    (s.hotFetched d inst table v i row pre).gth = s.gth := by
  have hplace := s.hotPlace_gth d inst v i row
  unfold State.hotFetched
  split
  · rfl
  · split
    · dsimp only
      split
      · exact hplace true
      · simpa using hplace true
    · split
      · exact hplace false
      · rfl

theorem State.foldl_modFetch_slots {r : GthReq} (h : Nat → Fetch → Fetch) (l : List Nat) (s : State) :
    (l.foldl (fun s i => s.modFetch r (h i)) s).gth.slots = s.gth.slots :=
  foldl_view (φ := fun s : State => s.gth.slots) (f := fun s i => s.modFetch r (h i)) (fun _ _ => rfl) l s

theorem foldl_put_task (g : Got) (l : List Nat) (y : Fetch) : (l.foldl (fun y p => y.put p g) y).task = y.task :=
  foldl_view (φ := Fetch.task) (f := fun y p => y.put p g) (fun _ _ => rfl) l y

theorem foldl_put_stage (g : Got) (l : List Nat) (y : Fetch) : (l.foldl (fun y p => y.put p g) y).stage = y.stage :=
  foldl_view (φ := Fetch.stage) (f := fun y p => y.put p g) (fun _ _ => rfl) l y

section Response

variable {m : RxMsg} {s : State} {id : Nat} (hid : id = leNat ((m.body.drop 0).take 4))

include hid

theorem runs_gatherRsp_late (hm : s.has 4 0 m) (h : (s.popMsg m).slotFor id false = none) :
    Runs .gatherRsp s ((s.popMsg m).lateRsp id) := by
  subst hid
  show execGatherRsp s = _
  rw [execGatherRsp, hm]
  simp only [h]

theorem runs_pooledSum_late (hm : s.has 5 0 m) (h : (s.popMsg m).slotFor id true = none) :
    Runs .pooledSum s ((s.popMsg m).lateRsp id) := by
  subst hid
  show execPooledSum s = _
  rw [execPooledSum, hm]
  simp only [h]

/-- R460: an answer frees the read slot that it is for; the rows it brings change no slot. -/
theorem exists_runs_gatherRsp {n : Nat} {r : GthReq} (hm : s.has 4 0 m) (h : (s.popMsg m).slotFor id false = some (n, r)) :
    ∃ t, Runs .gatherRsp s t ∧ t.gth.slots = ((s.popMsg m).slotDone n).gth.slots := by
  subst hid
  have hruns : exec .gatherRsp s = execGatherRsp s := rfl
  unfold execGatherRsp at hruns
  rw [hm] at hruns
  simp only [h] at hruns
  split at hruns
  · exact ⟨_, hruns, rfl⟩
  · split at hruns
    · exact ⟨_, hruns, State.foldl_modFetch_slots _ _ _⟩
    · refine ⟨_, hruns, ?_⟩
      refine (foldl_view (φ := fun s : State => s.gth.slots) (fun s i => ?_) _ _).trans (State.foldl_modFetch_slots _ _ _)
      exact ite_view (φ := fun s : State => s.gth.slots) (s := s) _ (congrArg Gth.slots (s.hotFetched_gth _ _ _ _ _ _ _)) rfl

/-- R461: a partial sum frees its read slot and goes to the fetch of the request, which stays with its task and stage. -/
theorem exists_runs_pooledSum {n : Nat} {r : GthReq} (hm : s.has 5 0 m) (h : (s.popMsg m).slotFor id true = some (n, r)) :
    ∃ f, (∀ y : Fetch, (f y).task = y.task ∧ (f y).stage = y.stage) ∧
      Runs .pooledSum s (((s.popMsg m).slotDone n).modFetch r f) := by
  subst hid
  have hruns : exec .pooledSum s = execPooledSum s := rfl
  unfold execPooledSum at hruns
  rw [hm] at hruns
  simp only [h] at hruns
  refine ⟨_, fun y => ?_, hruns⟩
  repeat' split
  all_goals exact ⟨foldl_put_task _ _ y, foldl_put_stage _ _ y⟩

end Response

/-- Settles O45. -/
theorem gatherMessages : Obligations.GatherMessages :=
  ⟨fun _ _ _ => exists_runs_gatherReq,
    fun _ => ⟨runs_gatherReq_none, runs_gatherRsp_none, runs_pooledSum_none⟩,
    fun _ _ _ hid => ⟨runs_gatherRsp_late hid, runs_pooledSum_late hid, fun _ _ => exists_runs_gatherRsp hid,
      fun _ _ => exists_runs_pooledSum hid⟩⟩

/-! ### SAMPLE -/

section Sample

variable {t k : Nat} {x : Task} {g : Stage} {s u : State} {els : List El} (hu : u = s.bayUse g.inst g.bufs)
  (hready : s.engReady t k 6 1 x g) (hels : els = (List.range ((u.descOf t k 5).cnt 0)).map (u.elN (u.descOf t k 5)))

include hu hready hels

theorem runs_sample_unread {e : Nat} (he : els.findSome? El.err = some e) : Runs (.sample t k) s (u.endStage t k { status := e }) := by
  subst hu hels
  refine congrArg Host.Outcome.next ((State.eng_of_ready hready _).trans ?_)
  simp only [he]

variable (hread : els.findSome? El.err = none)

include hread

theorem exists_runs_sample_poisoned (hp : ∃ e ∈ els, e.poison ≠ []) :
    ∃ n, Runs (.sample t k) s ((u.countPoison n).endStage t k { status := stPOISON }) := by
  refine ⟨(els.flatMap El.poison).eraseDups.length, ?_⟩
  subst hu hels
  refine congrArg Host.Outcome.next ((State.eng_of_ready hready _).trans ?_)
  simp only [hread]
  refine if_pos (List.any_eq_true.2 ?_)
  obtain ⟨e, he, hne⟩ := hp
  exact ⟨e, he, by simpa using hne⟩

variable {ids done : List Nat} {v w : State} {fail : Option Nat} (hclean : ∀ e ∈ els, e.poison = [])
  (hids : ids = els.map (fun e => leNat e.data))
  (hloop : u.seqLoop x.gen g.inst x.waitOver ids (ids.drop g.work.length) g.work = (v, done, fail))
  (hw : w = v.modTask t (fun y => { modStage y k (fun h => { h with work := done }) with started := true }))

/-- What SAMPLE does once its sequences have taken their turns (R475). -/
def State.sampleEnd (w : State) (t k n : Nat) (x : Task) (g : Stage) (d : Desc) (done : List Nat) (fail : Option Nat) : State :=
  match fail with
  | some e => w.endStage t k { status := e }
  | none =>
    if done.length < n then w
    else
      let e := [n, 1, 1, 1, 1]
      let visits := tileVisits g.words e
      let val (i : List Nat) : List Byte := leBytes 16 (done.getD (i.getD 0 0) 0)
      let works := visits.map (fun j => Work.join ((tileEls g.words e j).map (fun i =>
        { reads := [], writes := if handsOut x k then [] else [(7, i.getD 0 0, val i, false)] })))
      let (w, err) := w.runWorks t k works
      match err with
      | some c => w.endStage t k { status := c }
      | none =>
        let hb := if handsOut x k then visits.map (fun j => w.handBytes g.words e j d.elem val) else []
        w.endStage t k (sampleRes (wd g.words 4 31 29) [stSTALE] (done.map entryOutcome)) hb

include hclean hids hloop hw

theorem runs_sample : Runs (.sample t k) s (w.sampleEnd t k ids.length x g (u.descOf t k 7) done fail) := by
  have hlen : ids.length = (u.descOf t k 5).cnt 0 := by simp [hids, hels]
  rw [hlen]
  subst hw hids hels hu
  refine congrArg Host.Outcome.next ((State.eng_of_ready hready _).trans ?_)
  simp only [hread, hloop]
  refine (if_neg ?_).trans ?_
  · simpa using hclean
  · cases fail <;> rfl

theorem exists_runs_sample_done (hf : fail = none) (hlen : ids.length ≤ done.length) :
    ∃ (y : State) (r : Res) (hb : List (List Byte)), Runs (.sample t k) s (y.endStage t k r hb) ∧
      (r.result ≠ 0 → r.result % 2 ^ 32 = done.length % 2 ^ 32) := by
  have hruns := runs_sample hu hready hels hread hclean hids hloop hw
  subst hf
  unfold State.sampleEnd at hruns
  extract_lets e visits val works at hruns
  dsimp only at hruns
  rw [if_neg (Nat.not_lt.2 hlen)] at hruns
  split at hruns
  · exact ⟨_, _, [], hruns, fun h => absurd rfl h⟩
  · refine ⟨_, _, _, hruns, ?_⟩
    simpa only [List.length_map] using (sampleRes_counts (wd g.words 4 31 29) [stSTALE] (done.map entryOutcome)).1

end Sample

theorem runs_smpSeqKill {p : Path} {id : Nat} {s : State} (h : s.wgate p (bSMP + 0x20) = true) :
    Runs (.smpSeqKill p id) s ((s.setReg (bSMP + 0x20) (BitVec.ofNat 64 (id % 2 ^ 16))).seqKill (id % 2 ^ 16)) :=
  if_pos h

/-! ### Logit pages -/

section LogitPage

variable {m : RxMsg} {s u : State} {id a n : Nat} {q : Seq} (hm : s.has 7 0 m) (hon : s.domOn 13 = true) (hu : u = s.popMsg m)
  (hid : id = leNat ((m.body.drop 0).take 4) % 2 ^ 16)

include hm hon hu hid

theorem runs_logitPage_unknown (h : u.seqCount u.gen ≤ id) : Runs .logitPage s (u.err (bSMP + 0x108)) := by
  show execLogitPage s = _
  rw [execLogitPage, hm]
  dsimp only
  rw [← hu, ← hid]
  have hon : u.domOn 13 = true := hu ▸ hon
  exact (if_neg (by simp [hon])).trans (if_pos (by simp [h]))

variable (ha : a = u.seqAddr u.gen id) (hq : q = Seq.ofBytes (u.mem.rds a 128)) (hknown : id < u.seqCount u.gen)
  (hread : u.rdErr a 128 = none)

include ha hq hknown hread

/-- R478: a page of a known sequence is stored where it goes on from what has come, and counted as an error otherwise. -/
theorem runs_logitPage_known (hn : n = leNat ((m.body.drop 0xC).take 4)) : Runs .logitPage s
    (if (q.state = 1 && leNat ((m.body.drop 4).take 2) = q.step && leNat ((m.body.drop 8).take 4) = q.received &&
        leNat ((m.body.drop 8).take 4) + n ≤ q.vocab && leNat ((m.body.drop 6).take 1) = q.fmt && 1 ≤ n &&
        16 + n * q.width ≤ m.body.length &&
        (u.accErr 0 ((q.logits + leNat ((m.body.drop 8).take 4) * q.width : Nat) : Int) (n * q.width)).isNone) = true then
      ((u.store (q.logits + leNat ((m.body.drop 8).take 4) * q.width) ((m.body.drop 16).take (n * q.width))).store (a + 0x38)
        (leBytes 4 (q.received + n))).bump (bSMP + 0x100) 1
    else u.err (bSMP + 0x108)) := by
  subst hn
  show execLogitPage s = _
  rw [execLogitPage, hm]
  dsimp only
  rw [← hu, ← hid, ← ha, ← hq]
  have hon : u.domOn 13 = true := hu ▸ hon
  refine (if_neg (by simp [hon])).trans ((if_neg (by simp [hread, Nat.not_le.2 hknown])).trans ?_)
  exact (apply_ite Host.Outcome.next _ _ _).symm

theorem runs_logitPage_idle (hst : q.state ≠ 1) : Runs .logitPage s (u.err (bSMP + 0x108)) := by
  have h := runs_logitPage_known hm hon hu hid ha hq hknown hread rfl
  rwa [if_neg (by simp [hst])] at h

theorem runs_logitPage_next (hn : n = leNat ((m.body.drop 0xC).take 4)) (hst : q.state = 1)
    (hstep : leNat ((m.body.drop 4).take 2) = q.step) (hfirst : leNat ((m.body.drop 8).take 4) = q.received)
    (hvocab : q.received + n ≤ q.vocab) (hfmt : leNat ((m.body.drop 6).take 1) = q.fmt) (hpos : 1 ≤ n)
    (hlen : 16 + n * q.width ≤ m.body.length)
    (hacc : u.accErr 0 ((q.logits + q.received * q.width : Nat) : Int) (n * q.width) = none) :
    Runs .logitPage s (((u.store (q.logits + q.received * q.width) ((m.body.drop 16).take (n * q.width))).store (a + 0x38)
      (leBytes 4 (q.received + n))).bump (bSMP + 0x100) 1) := by
  have h := runs_logitPage_known hm hon hu hid ha hq hknown hread hn
  rw [hfirst] at h
  rwa [if_pos (by simp only [hst, hstep, hvocab, hfmt, hpos, hlen, hacc, decide_true, Option.isNone_none, Bool.and_self])] at h

end LogitPage

/-- Settles O46. -/
theorem samplingRows : Obligations.SamplingRows := by
  refine ⟨fun t k x g s u els hu hready hels => ⟨fun _ => runs_sample_unread hu hready hels,
      exists_runs_sample_poisoned hu hready hels, fun hread hclean ids v done fail hids hloop w hw => ⟨fun e hf => ?_, fun hf hlen => ?_,
        exists_runs_sample_done hu hready hels hread hclean hids hloop hw⟩⟩,
    fun _ _ => rfl, fun _ _ _ => runs_smpSeqKill,
    fun m s hm hon u id a q n hu hid ha hq hn => ⟨runs_logitPage_unknown hm hon hu hid,
      runs_logitPage_idle hm hon hu hid ha hq, fun hk hr hst hs hf hv hfmt hp hl hacc =>
        runs_logitPage_next hm hon hu hid ha hq hk hr hn hst hs hf hv hfmt hp hl hacc⟩⟩
  · have hruns := runs_sample hu hready hels hread hclean hids hloop hw
    rwa [hf] at hruns
  · have hruns := runs_sample hu hready hels hread hclean hids hloop hw
    rw [hf] at hruns
    exact hruns.trans (congrArg Host.Outcome.next (if_pos hlen))

end Sys2Proof.Machine
end

section
/-! O47: deposits, builds, offers and their ends (chapter 21). -/

namespace Sys2Proof.Machine

/-! ### Deposits -/

section Deposit

variable {t k : Nat} {x : Task} {g : Stage} {s : State}

theorem exists_runs_deposit (hready : s.engReady t k 7 1 x g) :
    ∃ (w : State) (r : Res), Runs (.deposit t k) s (w.endStage t k r) ∧ (r.status ≠ stDAMAGED → r.detail = 0) := by
  have hruns : Runs (.deposit t k) s _ := congrArg Host.Outcome.next (State.eng_of_ready hready _)
  extract_lets hin d info sd e per ext item at hruns
  split at hruns
  · exact ⟨_, _, hruns, fun _ => rfl⟩
  · exact ⟨_, _, hruns, (sampleRes_counts _ _ _).2⟩

theorem exists_runs_depositSeq (hready : s.engReady t k 7 2 x g) :
    ∃ (w : State) (r : Res), Runs (.depositSeq t k) s (w.endStage t k r) ∧ (r.status ≠ stDAMAGED → r.detail = 0) := by
  have hruns : Runs (.depositSeq t k) s _ := congrArg Host.Outcome.next (State.eng_of_ready hready _)
  extract_lets hin d e ext n els outcome item at hruns
  split at hruns
  · exact ⟨_, _, hruns, fun _ => rfl⟩
  · exact ⟨_, _, hruns, (sampleRes_counts _ _ _).2⟩

end Deposit

/-! ### Layouts and builds -/

section Layout

variable {p : Nat} {s : State} (hdue : (s.pakPipe p).due = true) (hon : s.domOn 14 = true)

include hdue hon

theorem runs_layoutRead_good {fs : List PakField} (h : s.readLayout p = some fs) :
    Runs (.layoutRead p) s (s.setPakPipe p { fields := fs, ready := true }) := by
  refine (if_neg (by simp [hdue, hon])).trans ?_
  simp only [h]

theorem runs_layoutRead_bad (h : s.readLayout p = none) : Runs (.layoutRead p) s (s.setPakPipe p { bad := true }) := by
  refine (if_neg (by simp [hdue, hon])).trans ?_
  simp only [h]

end Layout

/-- R494: a batch that lost no field is stored, marked as built and queued for its destination. -/
theorem runs_batchBuildDone {e n w : Nat} {b : PakBatch} {im : Image} {s : State} (hb : s.pakBatch e = some b) (hinst : b.inst = some n)
    (hbuilt : b.built = false) (hrun : s.instRuns n = true)
    (hw : w = (match s.openBatch e with | some x => x.mains.length + x.reserves.length | none => b.batchSize))
    (him : im = s.buildImage b w) (hlost : im.lost = []) (hroom : s.jrnRoom 0 = true)
    (hacc : s.accErr 0 ((b.addr : Nat) : Int) im.bytes.length = none) {u : State} {k : Nat}
    (hu : u = (((s.store b.addr im.bytes).setPakBatch e (some { b with built := true, comp := im.comp, ranges := im.ranges })).bump
      (pakCtr n 1) 1).bump (pakCtr n 6) im.spilled) (hk : k = u.destKey b.pipe (b.id % 2 ^ 40)) :
    Runs (.batchBuildDone e) s ((u.setPakDest k { u.pakDest k with queue := (u.pakDest k).queue ++ [e] }).pakAssign) := by
  show execBatchBuildDone e s = _
  simp only [execBatchBuildDone, hb, hinst]
  have him' := (him.trans (congrArg (s.buildImage b) hw)).symm
  subst hu hk
  -- the model's `match` on the open batch is the one of `hw` only after unfolding both
  erw [him']
  refine (if_neg ?_).trans ?_
  · simp [hbuilt, hrun, hlost, hroom, hacc]
  · simp only [hlost, List.foldl_nil, hinst]

/-! ### Offers -/

theorem runs_offerStart_again {k : Nat} {s : State} (h : (s.pakDest k).cur.isSome = true) : Runs (.offerStart k) s (s.pushOffer k) :=
  if_pos h

theorem runs_offerStart {k e n : Nat} {rest : List Nat} {b c : PakBatch} {d : Dest} {s : State} (hcur : (s.pakDest k).cur = none)
    (hq : (s.pakDest k).queue = e :: rest) (hb : s.pakBatch e = some b) (hinst : b.inst = some n) (hok : s.instOk n = true)
    (hrun : s.running = true) (hflt : s.flt.state ≠ .c2Recovery) (hd : d = s.pakDest k)
    (hc : c = { b with inst := some n, offers := b.offers + 1 }) :
    Runs (.offerStart k) s
      ((((s.setPakBatch e (some c)).setPakDest k { dsn := (d.dsn + 1) % 2 ^ 32, queue := rest, cur := some { entry := e, dsn := d.dsn } }).stampOffer
        c d.dsn c.offers).pushOffer k) := by
  subst hd hc
  refine (if_neg (by simp [hcur])).trans ?_
  simp only [hq, hb, hinst, hok, if_true]
  exact if_neg (by simp [hrun, hflt])

section BatchAck

variable {m : RxMsg} {k : Nat} {s : State} (hm : s.has 8 1 m)

include hm

theorem runs_batchAck (h : s.ackedDest m = some k) (hroom : s.jrnRoom 1 = true) : Runs .batchAck s ((s.popMsg m).delivered k) := by
  show execBatchAck s = _
  rw [execBatchAck, hm]
  simp only [h, hroom, if_true]

theorem runs_batchAck_full (h : s.ackedDest m = some k) (hroom : s.jrnRoom 1 = false) : Runs .batchAck s s := by
  show execBatchAck s = _
  rw [execBatchAck, hm]
  simp only [h, hroom, Bool.false_eq_true, if_false]

theorem runs_batchAck_late (h : s.ackedDest m = none) : Runs .batchAck s ((s.popMsg m).bump (pakCtr 44 5) 1) := by
  show execBatchAck s = _
  rw [execBatchAck, hm]
  simp only [h]

end BatchAck

theorem runs_hostOfferDone {p : Nat} {o : Offer} {s : State} (hcur : (s.pakDest (16384 * p)).cur = some o) (hsent : o.sent = true)
    (hhost : s.pakHost p = true) (hup : s.hostUp = true) (hroom : s.jrnRoom 1 = true) :
    Runs (.hostOfferDone p) s (s.delivered (16384 * p)) := by
  show execHostOfferDone p s = _
  simp only [execHostOfferDone, hcur, hsent, hhost, hup, hroom, Bool.and_self, if_true]

theorem runs_holdTimeout {k : Nat} {s : State} (hroom : s.jrnRoom 1 = true) (h : (s.pakDest k).cur.isSome = true) :
    Runs (.holdTimeout k) s (s.endOffer k true) :=
  if_pos (by simp [h, hroom])

theorem runs_holdTimeout_none {k : Nat} {s : State} (h : (s.pakDest k).cur = none) : Runs (.holdTimeout k) s s :=
  if_neg (by simp [h])

theorem runs_pakHostHead {p : Path} {n v : Nat} {s : State} (hn : n < 256) (hw : s.wgate p (bPAK + 0x20000 + 8 * n) = true) :
    Runs (.pakHostHead p n v) s ((s.setReg (bPAK + 0x20000 + 8 * n) (BitVec.ofNat 64 (v % 2 ^ 32))).pushOffer (16384 * n)) :=
  if_pos (by simp [hn, hw])

theorem runs_stepPageDrop_none {ep ctr : Nat} {s : State} (h : s.stepHeld ep ctr = false) : Runs (.stepPageDrop ep ctr) s s :=
  if_pos (by simp [h])

theorem exists_runs_stepPageDrop {ep ctr : Nat} {s : State} (h : s.stepHeld ep ctr = true) :
    ∃ bay, Runs (.stepPageDrop ep ctr) s
      ((s.purge (fun (x : Nat × Nat × Nat) (d : Nat) => d = ep && x = (0, ctr, 1))).err (pakCtr bay 8)) :=
  ⟨_, if_neg (by simp [h])⟩

/-- Settles O47. -/
theorem packRowsHold : Obligations.PackRows :=
  ⟨fun _ _ _ _ _ => ⟨exists_runs_deposit, exists_runs_depositSeq⟩,
    fun _ _ hdue hon => ⟨fun _ => runs_layoutRead_good hdue hon, runs_layoutRead_bad hdue hon⟩,
    fun _ _ _ _ _ _ hb hinst hbuilt hrun hw him hlost hroom hacc _ _ => runs_batchBuildDone hb hinst hbuilt hrun hw him hlost hroom hacc,
    fun _ _ => runs_offerStart_again,
    fun _ _ _ _ _ _ hcur hq hb hinst hok hrun hflt _ _ => runs_offerStart hcur hq hb hinst hok hrun hflt,
    fun _ _ hm => ⟨fun _ => runs_batchAck hm, fun _ => runs_batchAck_full hm, runs_batchAck_late hm⟩,
    fun _ _ _ => runs_hostOfferDone,
    fun _ _ hroom => ⟨runs_holdTimeout hroom, runs_holdTimeout_none⟩,
    fun _ _ _ _ => runs_pakHostHead,
    fun _ _ _ => ⟨runs_stepPageDrop_none, exists_runs_stepPageDrop⟩⟩

end Sys2Proof.Machine
end

section
/-! O48 and O49: the sensor rows and the Azimuth test port (chapters 18 and 22). -/

namespace Sys2Proof.Machine

/-! ### Frames and packets -/

section Packets

variable {port vc num : Nat} {s : State} (hport : s.senPort port = true)

include hport

theorem runs_longPacket_badHeader {dt : Nat} {crc : Bool} {data : List Byte} :
    Runs (.longPacket port vc dt false crc data) s (s.err (senCtr 9)) :=
  (if_neg (by simp [hport])).trans (if_pos rfl)

/-- A packet whose header could be read goes to the layer of its data type. -/
theorem State.longPacket_eq (dt : Nat) (crc : Bool) (data : List Byte) :
    exec (.longPacket port vc dt true crc data) s = match (s.layersOf port vc).find? (fun l => s.layerDt l = dt && vc < 16) with
      | none => .next (s.bump (senCtr 11) 1)
      | some l =>
        match (s.layer l).openF with
        | none => .next s
        | some f =>
          if f.lines ≥ s.layerH l then .next s
          else
            let w := s.layerW l
            let u := s.whenB (!crc) (·.err (senCtr 10))
            let bytes := if crc then lineBytes dt w data
              else match f.good with
                | some y => u.mem.rds (u.lineAddr f y) (w * storedBytes dt)
                | none => List.replicate (w * storedBytes dt) 0
            let good := crc && data.length = cdiv (w * wireBits dt) 8
            .next ((u.putLine f f.lines bytes).setLayer l { s.layer l with openF := some { f with
              lines := f.lines + 1, bad := if good then f.bad else f.bad + 1, good := if good then some f.lines else f.good } }) := by
  refine (if_neg (by simp [hport])).trans ((if_neg ?_).trans ?_)
  · exact Bool.false_ne_true
  · rfl

theorem runs_longPacket_noLayer {dt : Nat} {crc : Bool} {data : List Byte} (h : ∀ l ∈ s.layersOf port vc, s.layerDt l ≠ dt) :
    Runs (.longPacket port vc dt true crc data) s (s.bump (senCtr 11) 1) := by
  have hnone : (s.layersOf port vc).find? (fun l => s.layerDt l = dt && vc < 16) = none :=
    List.find?_eq_none.2 fun l hl => by simp [h l hl]
  refine (State.longPacket_eq hport dt crc data).trans ?_
  simp only [hnone]

section Line

variable {dt l : Nat} {f : SFrame} {data : List Byte}
  (hl : (s.layersOf port vc).find? (fun l => s.layerDt l = dt && vc < 16) = some l) (hf : (s.layer l).openF = some f)
  (hlines : f.lines < s.layerH l)

include hl hf hlines

theorem runs_longPacket_line (hlen : data.length = cdiv (s.layerW l * wireBits dt) 8) :
    Runs (.longPacket port vc dt true true data) s
      ((s.putLine f f.lines (lineBytes dt (s.layerW l) data)).setLayer l
        { s.layer l with openF := some { f with lines := f.lines + 1, good := some f.lines } }) := by
  refine (State.longPacket_eq hport dt true data).trans ?_
  simp only [hl, hf]
  refine (if_neg (Nat.not_le.2 hlines)).trans ?_
  simp only [hlen, Bool.not_true, State.whenB, Bool.false_eq_true, if_false, if_true, decide_true, Bool.and_self]

theorem runs_longPacket_badLine {y : Nat} (hy : f.good = some y) :
    Runs (.longPacket port vc dt true false data) s
      (((s.err (senCtr 10)).putLine f f.lines ((s.err (senCtr 10)).mem.rds ((s.err (senCtr 10)).lineAddr f y) (s.layerW l * storedBytes dt))).setLayer
        l { s.layer l with openF := some { f with lines := f.lines + 1, bad := f.bad + 1 } }) := by
  refine (State.longPacket_eq hport dt false data).trans ?_
  simp only [hl, hf]
  refine (if_neg (Nat.not_le.2 hlines)).trans ?_
  simp only [hy, Bool.not_false, State.whenB, Bool.false_eq_true, if_false, if_true, Bool.false_and]

end Line

variable (hvc : vc < 16)

include hvc

theorem runs_frameStart : Runs (.frameStart port vc num) s ((s.layersOf port vc).foldl (fun s l => s.openFrame num l) s) :=
  if_pos (by simp [hport, hvc])

theorem runs_frameEnd : Runs (.frameEnd port vc num) s
    (((s.layersOf port vc).filter (fun l => (s.layer l).openF.any (fun f => f.csi = num))).foldl State.closeFrame s) :=
  if_pos (by simp [hport, hvc])

end Packets

theorem runs_frameLatch {l : Nat} {f : SFrame} {s : State} (hf : (s.layer l).openF = some f) (hl : s.latchLine f < f.lines) :
    Runs (.frameLatch l) s (s.latchFrame l) := by
  show execFrameLatch l s = _
  simp only [execFrameLatch, hf, hl, if_true]

/-! ### Time -/

theorem runs_tsInCapture {n : Nat} {rising : Bool} {s : State} (hn : n < 8) (hrun : s.instRuns 52 = true)
    (hedge : s.cf (bSEN + 0x5000 + 0x10 * n) 1 0 = 2 ∨ s.cf (bSEN + 0x5000 + 0x10 * n) 1 0 = (if rising then 0 else 1)) :
    Runs (.tsInCapture n rising) s
      (if 64 ≤ (tget [] s.sen.ts n).length then s.setBits (bSEN + 0x5800 + 8 * n) (2 ^ 31)
      else { s with sen := { s.sen with
        ts := tset [] s.sen.ts n (tget [] s.sen.ts n ++ [s.ns]), lastTs := tset none s.sen.lastTs n (some s.ns) } }) :=
  (if_pos (by simpa [hn, hrun] using hedge)).trans (apply_ite Host.Outcome.next _ _ _).symm

section Trigger

variable {t : Nat} {s : State} (ht : t < 4) (hrun : s.instRuns 52 = true)

include ht hrun

theorem runs_trigEdge_end {p : Nat × Bool} (hp : (s.trig t).pulse = some p) :
    Runs (.trigEdge t) s ((s.setTrig t { s.trig t with pulse := none }).trigLevel t (s.trigIdle t)) := by
  refine (if_neg (by simp [hrun, ht])).trans ?_
  simp only [hp]

variable (hp : (s.trig t).pulse = none)

include hp

theorem runs_trigEdge_begin (hon : s.cb (bSEN + 0x6000 + 0x20 * t) 63 = true) : Runs (.trigEdge t) s
    ((s.setTrig t { s.trig t with pulse := some (s.cf (bSEN + 0x6000 + 0x20 * t) 31 0, s.cb (bSEN + 0x6000 + 0x20 * t) 62) }).trigLevel
      t (!s.cb (bSEN + 0x6000 + 0x20 * t) 62)) := by
  refine (if_neg (by simp [hrun, ht])).trans ?_
  simp only [hp, hon, if_true]

theorem runs_trigEdge_off (hon : s.cb (bSEN + 0x6000 + 0x20 * t) 63 = false) : Runs (.trigEdge t) s s := by
  refine (if_neg (by simp [hrun, ht])).trans ?_
  simp only [hp, hon, Bool.false_eq_true, if_false]

end Trigger

/-! ### Fusion -/

/-- A group's next boundary and its sequence number. -/
def Group.at (x : Group) (k : Int) (q : Nat) : Prop := x.next = some k ∧ x.seq = q

/-- A group that waits for a boundary is read back as it was set. -/
theorem State.group_setGroup_at {s : State} {g : Nat} {x : Group} {k : Int} {q : Nat} (h : x.at k q) : ((s.setGroup g x).group g).at k q := by
  have hx : x ≠ {} := fun hd => by simpa [hd] using h.1
  have hread : (s.setGroup g x).group g = x := by
    simpa only [State.setGroup, State.group, tset, if_neg hx] using tget_tins_same s.sen.group g x
  rwa [hread]

theorem State.emitFused_at {s : State} {g : Nat} {f : Fused} {k : Int} {q : Nat} (h : (s.group g).at k q) :
    ((s.emitFused g f).group g).at k q := by
  have hput (u : State) (x : Group) (a b c d : Nat) (hx : x.at k q) : ((((u.setGroup g x).bump a b).bump c d).group g).at k q :=
    State.group_setGroup_at (s := u) hx
  unfold State.emitFused
  extract_lets gr s1 gr1 stale
  refine hput _ _ _ _ _ _ ?_
  show gr1.at k q
  have hs1 : (s1.group g).at k q := by
    simp only [s1]
    split
    · split
      · exact State.group_setGroup_at (x := { gr with ring := gr.ring.drop 1 }) h
      · exact h
    · exact h
  exact hs1

theorem State.takeEntry_sen (s : State) (p : Nat) : (s.takeEntry p).1.sen = s.sen := by
  unfold State.takeEntry
  extract_lets pl
  split <;> rfl

/-- R521, R523: when the window of a group's boundary closes, the group goes on to the next boundary with its next sequence number. -/
theorem exists_runs_fusionClose {g : Nat} {k : Int} {s : State} (hg : g < 8) (hk : (s.group g).next = some k) (hon : s.grpOn g = true)
    (hrun : s.instRuns 52 = true) :
    ∃ t, Runs (.fusionClose g) s t ∧ (t.group g).at (k + 1) (((s.group g).seq + 1) % 2 ^ 32) := by
  have hruns : exec (.fusionClose g) s = execFusionClose g s := rfl
  unfold execFusionClose at hruns
  extract_lets gr ms at hruns
  split at hruns
  · next h => exact absurd (h.symm.trans hk) (by simp)
  next k' h =>
  obtain rfl : k = k' := Option.some.inj (hk.symm.trans h)
  rw [if_neg (by simp [hg, hon, hrun])] at hruns
  extract_lets b now rest mine picks extra drop s1 s2 s3 all at hruns
  have hs3 : (s3.group g).at (k + 1) (((s.group g).seq + 1) % 2 ^ 32) := by
    have hs2 : (s2.group g).at (k + 1) (((s.group g).seq + 1) % 2 ^ 32) := State.group_setGroup_at ⟨rfl, rfl⟩
    simp only [s3, State.whenB]
    split
    · exact hs2
    · exact hs2
  have htake : ((s3.takeEntry (s3.cf (rGrp g) 57 50)).1.group g).at (k + 1) (((s.group g).seq + 1) % 2 ^ 32) := by
    have hsame : (s3.takeEntry (s3.cf (rGrp g) 57 50)).1.group g = s3.group g :=
      congrArg (fun x : Sen => tget ({} : Group) x.group g) (s3.takeEntry_sen (s3.cf (rGrp g) 57 50))
    rwa [hsame]
  split at hruns
  next v tk htk =>
  rw [htk] at htake
  split at hruns
  · exact ⟨_, hruns, htake⟩
  · split at hruns
    · exact ⟨_, hruns, htake⟩
    · exact ⟨_, hruns, State.emitFused_at (State.group_setGroup_at htake)⟩

/-! ### CAPTURE -/

section Capture

variable {t k : Nat} {x : Task} {g : Stage} {s u : State} (hu : u = s.bayUse g.inst g.bufs) (hready : s.engReady t k 8 1 x g)

include hu hready

theorem runs_capture : Runs (.capture t k) s (u.capRun t k x g) := by
  subst hu
  exact congrArg Host.Outcome.next (State.eng_of_ready hready _)

theorem runs_capture_waits (hfew : (u.capAvail g.words).length < (u.descOf t k 7).cnt 2) (hover : x.waitOver = false) :
    Runs (.capture t k) s u := by
  refine (runs_capture hu hready).trans (congrArg Host.Outcome.next (if_pos ?_))
  simp only [List.length_take, hover, Bool.not_false, Bool.and_true, decide_eq_true_eq]
  exact Nat.lt_of_le_of_lt (Nat.min_le_right _ _) hfew

/-- R527: with frames to take, and enough of them or no more time to wait, CAPTURE ends its stage. -/
theorem exists_runs_capture (hgo : (u.descOf t k 7).cnt 2 ≤ (u.capAvail g.words).length ∨ x.waitOver = true)
    (hsome : u.capAvail g.words ≠ []) (hcnt : (u.descOf t k 7).cnt 2 ≠ 0) :
    ∃ (w : State) (r : Res) (hb : List (List Byte)), Runs (.capture t k) s (w.endStage t k r hb) := by
  have hruns := runs_capture hu hready
  unfold State.capRun at hruns
  extract_lets ws o e av rs e' pixel visits works pois hb at hruns
  have he : e.getD 2 1 = (u.descOf t k 7).cnt 2 := rfl
  have hlen : av.length = min ((u.descOf t k 7).cnt 2) (u.capAvail g.words).length := List.length_take
  have hpos : 0 < (u.capAvail g.words).length := List.length_pos_iff.2 hsome
  rw [if_neg, if_neg] at hruns
  · split at hruns
    next v err hrun =>
    extract_lets s1 at hruns
    split at hruns
    · exact ⟨_, _, _, hruns⟩
    · exact ⟨_, _, _, hruns⟩
  · rw [List.isEmpty_iff_length_eq_zero, hlen]
    omega
  · rw [he, hlen]
    obtain hgo | hgo := hgo
    · simp [hgo]
    · simp [hgo]

end Capture

theorem runs_captureWaitExpiry {t : Nat} {x : Task} {s : State} (hx : s.task t = some x)
    (h : x.stages.any (fun g => g.kind = 8 && g.op = 1) = true) :
    Runs (.captureWaitExpiry t) s (s.modTask t (fun x => { x with waitOver := true })) := by
  show execCaptureWaitExpiry t s = _
  simp only [execCaptureWaitExpiry, hx]
  exact if_pos h

/-- Settles O48. -/
theorem sensorRows : Obligations.SensorRows := by
  refine ⟨fun port vc num s hport hvc => ⟨runs_frameStart hport hvc, runs_frameEnd hport hvc,
      fun _ _ _ => runs_longPacket_badHeader hport, fun _ _ _ => runs_longPacket_noLayer hport,
      fun _ _ _ _ hl hf hlines hlen => ⟨_, rfl, runs_longPacket_line hport hl hf hlines hlen⟩,
      fun _ _ _ _ _ hl hf hlines hy => ⟨_, rfl, runs_longPacket_badLine hport hl hf hlines hy⟩⟩,
    fun _ _ _ => runs_frameLatch,
    fun src off s => ⟨fun h => ⟨if_pos h, if_pos h⟩, fun h => if_neg (by simp [h]), rfl, rfl⟩,
    fun n rising s hn hrun hedge => ⟨fun hroom => ?_, fun hfull => ?_⟩,
    fun _ _ ht hrun => ⟨fun _ => runs_trigEdge_end ht hrun, runs_trigEdge_begin ht hrun, runs_trigEdge_off ht hrun⟩,
    fun g k s hg hk hon hrun => exists_runs_fusionClose hg hk hon hrun,
    fun t k x g s u hu hready => ⟨runs_capture_waits hu hready, fun henough hcnt => ?_, fun hover hsome hcnt => ?_⟩,
    fun _ _ _ => runs_captureWaitExpiry⟩
  · simpa only [if_neg (Nat.not_le.2 hroom)] using runs_tsInCapture hn hrun hedge
  · simpa only [if_pos hfull] using runs_tsInCapture hn hrun hedge
  · refine exists_runs_capture hu hready (.inl henough) (fun h => hcnt ?_) hcnt
    simpa [h] using henough
  · exact exists_runs_capture hu hready (.inr hover) hsome hcnt

/-! ### The Azimuth test port -/

theorem runs_glbAzmGo {p : Path} {s : State} (h : s.wgate p (bGLB + 0x830) = true) : Runs (.glbAzmGo p) s
    { s with azm := { s.azm with jobs := s.azm.jobs ++ [(s.halves (bGLB + 0x800) 4, s.halves (bGLB + 0x820) 2)] } } :=
  if_pos h

theorem runs_glbAzmGo_closed {p : Path} {s : State} (h : s.wgate p (bGLB + 0x830) = false) : Runs (.glbAzmGo p) s s :=
  if_neg (by simp [h])

theorem runs_azmBlockReady_idle {s : State} (h : s.azm.jobs = []) : Runs .azmBlockReady s s := by
  show execAzmBlockReady s = _
  simp only [execAzmBlockReady, h]

theorem runs_azmBlockReady {key c : List Nat} {js : List (List Nat × List Nat)} {s : State} (h : s.azm.jobs = (key, c) :: js)
    (hheld : s.azm.held = []) : Runs .azmBlockReady s { s with azm := { jobs := js, out := azimuth key c, held := [] } } := by
  show execAzmBlockReady s = _
  simp only [execAzmBlockReady, h, hheld, List.map_nil, List.filter_nil, List.foldl_nil]

/-- Settles O49. -/
theorem azimuthRows : Obligations.AzimuthRows :=
  ⟨fun _ _ => runs_glbAzmGo, fun _ _ => runs_glbAzmGo_closed, fun _ => runs_azmBlockReady_idle, fun _ _ _ _ => runs_azmBlockReady⟩

end Sys2Proof.Machine
end

section
/-! O50 and O51: training of the Nguorn ports, flits and replay (chapter 24). -/

namespace Sys2Proof.Machine

/-- A port set to anything but its reset value is read back. -/
theorem State.port_setPort_of_ne (s : State) (p : Nat) {x : Port} (h : x ≠ {}) : (s.setPort p x).port p = x := by
  simpa only [State.setPort, State.port, tset, if_neg h] using tget_tins_same s.ngl.port p x

/-- What holds of a port in RETRAIN as it is set holds of it as it is read back. -/
theorem State.port_setPort_retrain {s : State} {p : Nat} {x : Port} (q : Port → Prop) (h : x.state = .retrain) (hq : q x) :
    q ((s.setPort p x).port p) := by
  rwa [s.port_setPort_of_ne p fun hd => by simp [hd] at h]

/-! ### Training -/

section Training

variable {p : Nat} {s : State}

theorem runs_pmdTrainDone (h : (s.port p).state = .pmdTrain) : Runs (.pmdTrainDone p) s (s.portTo p .fecLock (s.port p).cause) :=
  if_pos h

theorem runs_fecLockDone (h : (s.port p).state = .fecLock) : Runs (.fecLockDone p) s (s.portTo p .flitSync (s.port p).cause) :=
  (if_pos (by simp [Port.isIn, h])).trans (congrArg Host.Outcome.next (if_neg (by simp [h])))

theorem runs_flitSyncDone (h : (s.port p).state = .flitSync) : Runs (.flitSyncDone p) s (s.portTo p .param (s.port p).cause) :=
  (if_pos (by simp [Port.isIn, h])).trans (congrArg Host.Outcome.next (if_neg (by simp [h])))

section Retrain

variable (h : (s.port p).state = .retrain)

include h

/-- A training step inside RETRAIN keeps the state's name. -/
theorem State.port_trainTo_retrain (st : PortState) (sub : Nat) :
    ((s.trainTo p st sub).port p).state = .retrain ∧ ((s.trainTo p st sub).port p).sub = sub := by
  have heq : s.trainTo p st sub = s.setPort p { s.port p with sub := sub, slot := 0, gotInit := false, peerSeen := false, sentSeen := false } :=
    if_pos h
  rw [heq]
  exact State.port_setPort_retrain (fun y => y.state = .retrain ∧ y.sub = sub) h ⟨h, rfl⟩

theorem exists_runs_fecLockDone_retrain (hsub : (s.port p).sub = 0) :
    ∃ t, Runs (.fecLockDone p) s t ∧ (t.port p).state = .retrain ∧ (t.port p).sub = 1 :=
  ⟨_, if_pos (by simp [Port.isIn, h, hsub]), State.port_trainTo_retrain h .flitSync 1⟩

theorem exists_runs_flitSyncDone_retrain (hsub : (s.port p).sub = 1) :
    ∃ t, Runs (.flitSyncDone p) s t ∧ (t.port p).state = .retrain ∧ (t.port p).sub = 2 :=
  ⟨_, if_pos (by simp [Port.isIn, h, hsub]), State.port_trainTo_retrain h .param 2⟩

theorem exists_runs_retrainAttemptTimeout (hleft : (s.port p).attempts < 2) :
    ∃ t, Runs (.retrainAttemptTimeout p) s t ∧ (t.port p).state = .retrain ∧ (t.port p).sub = 0 ∧
      (t.port p).attempts = (s.port p).attempts + 1 := by
  refine ⟨_, (if_neg (by simp [h])).trans (if_neg (by omega)), ?_⟩
  exact State.port_setPort_retrain (fun y => y.state = .retrain ∧ y.sub = 0 ∧ y.attempts = (s.port p).attempts + 1) h ⟨h, rfl, rfl⟩

theorem runs_retrainAttemptTimeout_last (hspent : 2 ≤ (s.port p).attempts) :
    Runs (.retrainAttemptTimeout p) s ((s.portTo p .detect 7).detectExit p) :=
  (if_neg (by simp [h])).trans (if_pos (by omega))

end Retrain

/-- The cause with which a state's limit ends the training; 0 where the state has none (R556). -/
def PortState.limitCause : PortState → Nat
  | .pmdTrain => 1
  | .fecLock => 2
  | .flitSync => 3
  | .param => 4
  | _ => 0

theorem runs_trainingTimeout {st : PortState} (h : (s.port p).state = st) (hc : st.limitCause ≠ 0) :
    Runs (.trainingTimeout p) s ((s.portTo p .detect st.limitCause).detectExit p) := by
  show execTrainingTimeout p s = _
  simp only [execTrainingTimeout, h]
  cases st with
  | pmdTrain | fecLock | flitSync | param => rfl
  | _ => exact absurd rfl hc

theorem runs_trainingTimeout_active (h : (s.port p).state = .active) : Runs (.trainingTimeout p) s s := by
  show execTrainingTimeout p s = _
  simp only [execTrainingTimeout, h, if_true]

section InitFlit

variable {ver kind port id count : Nat} {adv : List Nat} {seen : Bool} {ack : Option Nat} {cum : List Nat} {u : State}
  (hu : u = s.setPort p ((s.port p).used ack cum)) (h : (s.port p).state = .param)

include hu h

theorem runs_initFlit_refused (hbad : ver ≠ 1 ∨ (∃ v, v < 4 ∧ adv.getD v 0 < 8) ∨ 4096 < (adv.take 4).sum) :
    Runs (.initFlit p ver kind port id count adv seen ack cum) s ((u.portTo p .detect 4).detectExit p) := by
  subst hu
  refine (if_neg (by simp [Port.isIn, h])).trans (if_pos ?_)
  simp only [Bool.or_eq_true, decide_eq_true_eq, List.any_eq_true, List.mem_range]
  obtain hv | hv | hv := hbad
  · exact .inl (.inl (.inl hv))
  · exact .inl (.inl (.inr hv))
  · exact .inl (.inr hv)

variable (hver : ver = 1) (hadv : ∀ v, v < 4 → 8 ≤ adv.getD v 0) (hsum : (adv.take 4).sum ≤ 4096) {y : Port}
  (hy : y = { u.port p with
    peer := some { kind := kind, id := id, port := port, count := count }, gotInit := true, peerSeen := (u.port p).peerSeen || seen, adv := adv.take 4 })

include hver hadv hsum hy

/-- R557: a good INIT flit is taken; the port becomes ACTIVE once both ends have seen the other's. -/
theorem runs_initFlit : Runs (.initFlit p ver kind port id count adv seen ack cum) s
    (if (y.peerSeen && y.sentSeen) = true then (u.setPort p y).toActive p (adv.take 4) else u.setPort p y) := by
  have hany : ((List.range 4).any fun v => decide (adv.getD v 0 < 8)) = false :=
    List.any_eq_false.2 fun v hv => by simpa using hadv v (List.mem_range.1 hv)
  have hruns : exec (.initFlit p ver kind port id count adv seen ack cum) s = execInitFlit p ver kind port id count adv seen ack cum s := rfl
  unfold execInitFlit at hruns
  extract_lets x v bad z y' w at hruns
  have hbad : bad = false := by
    simp only [bad, hany]
    simp [hver, hsum, x, h]
  rw [if_neg (by simp [Port.isIn, x, h]), hbad, if_neg Bool.false_ne_true] at hruns
  obtain rfl : u = v := hu
  obtain rfl : y = y' := hy
  exact hruns.trans (apply_ite Host.Outcome.next _ _ _).symm

theorem runs_initFlit_active (hp : y.peerSeen = true) (hs : y.sentSeen = true) :
    Runs (.initFlit p ver kind port id count adv seen ack cum) s ((u.setPort p y).toActive p (adv.take 4)) := by
  have hruns := runs_initFlit (port := port) (seen := seen) hu h hver hadv hsum hy
  rwa [if_pos (by simp [hp, hs])] at hruns

theorem runs_initFlit_waits (hw : y.peerSeen = false ∨ y.sentSeen = false) :
    Runs (.initFlit p ver kind port id count adv seen ack cum) s (u.setPort p y) := by
  have hruns := runs_initFlit (port := port) (seen := seen) hu h hver hadv hsum hy
  rwa [if_neg (by obtain h | h := hw <;> simp [h])] at hruns

end InitFlit

end Training

/-- Settles O50. -/
theorem portTraining : Obligations.PortTraining := fun _ _ =>
  ⟨runs_pmdTrainDone, runs_fecLockDone, runs_flitSyncDone,
    fun h => ⟨exists_runs_fecLockDone_retrain h, exists_runs_flitSyncDone_retrain h, exists_runs_retrainAttemptTimeout h,
      runs_retrainAttemptTimeout_last h⟩,
    fun h => runs_trainingTimeout (st := .pmdTrain) h (by decide), fun h => runs_trainingTimeout (st := .fecLock) h (by decide),
    fun h => runs_trainingTimeout (st := .flitSync) h (by decide), fun h => runs_trainingTimeout (st := .param) h (by decide),
    runs_trainingTimeout_active,
    fun _ _ _ _ _ _ _ _ _ _ hu h => ⟨runs_initFlit_refused hu h, fun hver hadv hsum _ hy =>
      ⟨runs_initFlit_active hu h hver hadv hsum hy, runs_initFlit_waits hu h hver hadv hsum hy⟩⟩⟩

/-! ### The transmitter -/

section Transmit

variable {p : Nat} {x : Port} {s : State} (hx : s.port p = x)

include hx

theorem runs_flitSlotTx_param (h : x.state = .param) : Runs (.flitSlotTx p) s (s.paramSlot p) := by
  subst hx
  exact if_pos (by simp [Port.isIn, h])

theorem runs_flitSlotTx_flitSync (h : x.state = .flitSync) : Runs (.flitSlotTx p) s (s.sendFlit p 0 0 0 0 []) := by
  subst hx
  exact (if_neg (by simp [Port.isIn, h])).trans (if_pos (by simp [Port.isIn, h]))

variable (h : x.state = .active)

include h

/-- R566: in ACTIVE a slot sends the NAK that is due, then what is replayed, then new data. -/
theorem State.flitSlotTx_active : exec (.flitSlotTx p) s =
    if x.nakDue then .next (((s.sendFlit p 3 0 0 x.expected []).setPort p { x with nakDue := false }).bump (nglCtr p 4) 1)
    else match x.replay with
      | some i => .next (s.replaySlot p i)
      | none =>
        if x.canSend 0 then .next (s.sendData p 0)
        else match s.rrPick p x with
          | some (v, left) => .next ((s.setPort p { x with rrVc := v, rrLeft := left }).sendData p v)
          | none => .next (s.sendFlit p 0 0 0 0 []) := by
  subst hx
  exact (if_neg (by simp [Port.isIn, h])).trans ((if_neg (by simp [Port.isIn, h])).trans (if_neg (by simp [h])))

theorem runs_flitSlotTx_nak (hn : x.nakDue = true) : Runs (.flitSlotTx p) s
    (((s.sendFlit p 3 0 0 x.expected []).setPort p { x with nakDue := false }).bump (nglCtr p 4) 1) :=
  (State.flitSlotTx_active hx h).trans (if_pos hn)

variable (hn : x.nakDue = false)

include hn

theorem runs_flitSlotTx_replay {i : Nat} (hr : x.replay = some i) : Runs (.flitSlotTx p) s (s.replaySlot p i) := by
  refine (State.flitSlotTx_active hx h).trans ?_
  simp only [hn, hr, Bool.false_eq_true, if_false]

variable (hr : x.replay = none)

include hr

theorem runs_flitSlotTx_ctrl (hc : x.canSend 0 = true) : Runs (.flitSlotTx p) s (s.sendData p 0) := by
  refine (State.flitSlotTx_active hx h).trans ?_
  simp only [hn, hr, hc, Bool.false_eq_true, if_false, if_true]

variable (hc : x.canSend 0 = false)

include hc

theorem runs_flitSlotTx_idle (hp : s.rrPick p x = none) : Runs (.flitSlotTx p) s (s.sendFlit p 0 0 0 0 []) := by
  refine (State.flitSlotTx_active hx h).trans ?_
  simp only [hn, hr, hc, hp, Bool.false_eq_true, if_false]

theorem runs_flitSlotTx_data {v left : Nat} (hp : s.rrPick p x = some (v, left)) :
    Runs (.flitSlotTx p) s ((s.setPort p { x with rrVc := v, rrLeft := left }).sendData p v) := by
  refine (State.flitSlotTx_active hx h).trans ?_
  simp only [hn, hr, hc, hp, Bool.false_eq_true, if_false]

end Transmit

/-! ### The receiver -/

section Receive

variable {p : Nat} {x y : Port} {s : State} {vc seq nak : Nat} {payload : List Byte} {ack : Option Nat} {cum : List Nat} (hx : s.port p = x)

include hx

section Inactive

variable (h : x.state ≠ .active)

include h

theorem runs_dataFlitRx_inactive : Runs (.dataFlitRx p vc seq payload ack cum) s s := by
  subst hx
  exact if_pos h

theorem runs_nakRx_inactive : Runs (.nakRx p nak ack cum) s s := by
  subst hx
  exact if_pos h

theorem runs_idleFlitRx_inactive : Runs (.idleFlitRx p ack cum) s s := by
  subst hx
  exact if_neg h

theorem runs_retryExhausted_inactive : Runs (.retryExhausted p) s s := by
  subst hx
  exact if_neg (by simp [h])

end Inactive

theorem runs_replayTimer_empty (hr : x.retry = []) : Runs (.replayTimer p) s s := by
  subst hx
  exact if_neg (by simp [hr])

theorem runs_retryExhausted_empty (hr : x.retry = []) : Runs (.retryExhausted p) s s := by
  subst hx
  exact if_neg (by simp [hr])

section FecWarn

variable {n : Nat} (hst : x.state ≠ .disabled)

include hst

theorem runs_fecWarn (hn : s.cf (bNGL + 0x10) 31 0 < n) : Runs (.fecWarn p n) s (s.faultC0 0x0F (uPort p) n) := by
  subst hx
  exact if_pos (by simp [hst, hn])

omit hx hst in
theorem runs_fecWarn_below (hn : n ≤ s.cf (bNGL + 0x10) 31 0) : Runs (.fecWarn p n) s s :=
  if_neg (by simp [hn])

end FecWarn

variable (h : x.state = .active)

include h

theorem runs_idleFlitRx : Runs (.idleFlitRx p ack cum) s (s.setPort p (x.used ack cum)) := by
  subst hx
  exact if_pos h

theorem runs_badFlit : Runs (.badFlit p) s ((s.setPort p x.wantNak).err (nglCtr p 3)) := by
  subst hx
  exact if_pos h

theorem runs_nakRepeat (hn : x.nakFor = some x.expected) : Runs (.nakRepeat p) s (s.setPort p { x with nakDue := true }) := by
  subst hx
  exact if_pos (by simp [h, hn])

theorem runs_replayTimer (hr : x.retry ≠ []) : Runs (.replayTimer p) s (s.startReplay p 0) := by
  subst hx
  exact if_pos (by simp [h, hr])

theorem runs_retryExhausted (hr : x.retry ≠ []) : Runs (.retryExhausted p) s (s.toRetrain p 5 0x0D) := by
  subst hx
  exact if_pos (by simp [h, hr])

variable (hy : y = x.used ack cum)

include hy

theorem runs_dataFlitRx_other (hseq : seq ≠ y.expected) : Runs (.dataFlitRx p vc seq payload ack cum) s (s.setPort p y.wantNak) := by
  subst hx hy
  exact (if_neg (by simp [h])).trans (if_pos hseq)

theorem runs_dataFlitRx_expected (hseq : seq = y.expected) : Runs (.dataFlitRx p vc seq payload ack cum) s
    ((s.setPort p { y with expected := (seq + 1) % 4096, ackValid := true, nakFor := none, nakDue := false, rx := y.rx.set (vc % 4) (y.rx.getD (vc % 4) [] ++ (payload ++ List.replicate 232 0).take 232) }).bump
      (nglCtr p 1) 1) := by
  subst hx hy hseq
  exact (if_neg (by simp [h])).trans (if_neg (by simp))

theorem runs_nakRx_unknown (hnak : ∀ f ∈ y.retry, f.seq ≠ nak) : Runs (.nakRx p nak ack cum) s (s.setPort p y) := by
  subst hx hy
  have hfind : (((s.port p).used ack cum).retry.findIdx? fun f => decide (f.seq = nak)) = none :=
    List.findIdx?_eq_none_iff.2 fun f hf => by simpa using hnak f hf
  refine (if_neg (by simp [h])).trans ?_
  simp only [hfind]

theorem runs_nakRx_oldest {f : Flit} {fs : List Flit} (hretry : y.retry = f :: fs) (hf : f.seq = nak) (hreplay : y.replay = none) :
    Runs (.nakRx p nak ack cum) s ((s.setPort p y).startReplay p 0) := by
  subst hx hy
  have hfind : (((s.port p).used ack cum).retry.findIdx? fun f => decide (f.seq = nak)) = some 0 := by
    simp [hretry, hf, List.findIdx?_cons]
  refine (if_neg (by simp [h])).trans ?_
  simp only [hfind, hreplay, Option.isSome_none, Bool.false_eq_true, if_false]

end Receive

/-- Settles O51. -/
theorem flits : Obligations.Flits := fun _ _ _ hx =>
  ⟨fun h => ⟨runs_flitSlotTx_nak hx h, fun _ hn hr => runs_flitSlotTx_replay hx h hn hr, runs_flitSlotTx_ctrl hx h, runs_flitSlotTx_idle hx h,
      fun _ _ hn hr hc hp => runs_flitSlotTx_data hx h hn hr hc hp, fun _ _ _ _ _ _ hy => ⟨runs_dataFlitRx_other hx h hy, runs_dataFlitRx_expected hx h hy⟩,
      fun _ _ => runs_idleFlitRx hx h, runs_badFlit hx h, runs_nakRepeat hx h,
      fun hr => ⟨runs_replayTimer hx h hr, runs_retryExhausted hx h hr⟩,
      fun hr => ⟨runs_replayTimer_empty hx hr, runs_retryExhausted_empty hx hr⟩,
      fun _ _ _ _ hy => ⟨runs_nakRx_unknown hx h hy, fun _ _ => runs_nakRx_oldest hx h hy⟩⟩,
    fun h _ _ _ _ _ => ⟨runs_dataFlitRx_inactive hx h, runs_nakRx_inactive hx h, runs_idleFlitRx_inactive hx h,
      runs_retryExhausted_inactive hx h⟩,
    runs_flitSlotTx_flitSync hx, runs_flitSlotTx_param hx,
    fun _ hst => ⟨runs_fecWarn hx hst, runs_fecWarn_below⟩⟩

end Sys2Proof.Machine
end

section
/-! O52 and O53: messages, echoes, and the steps and beats of the shuffle domain (chapters 24 and 25). -/

namespace Sys2Proof.Machine

/-! ### Messages -/

/-- A port that is ACTIVE and holds a whole header in the buffer of a channel has a message to look at. -/
theorem Port.not_lacks_header {x : Port} {v : Nat} {b : List Byte} (hst : x.state = .active) (hv : v < 4) (hhead : 8 ≤ b.length) :
    ¬(x.state ≠ .active || v ≥ 4 || b.length < 8) = true := by
  simp only [Bool.or_eq_true, decide_eq_true_eq]
  rintro ((h | h) | h)
  · exact h hst
  · omega
  · omega

theorem not_badLength {len : Nat} (hmod : len % 8 = 0) (hmin : 8 ≤ len) (hmax : len ≤ 16777216) :
    ¬(len % 8 ≠ 0 || len < 8 || len > 16777216) = true := by
  simp only [Bool.or_eq_true, decide_eq_true_eq]
  omega

/-- The message of length `len` and type `ty` that stands at the front of the buffer `b` of port `p`. -/
def frontMsg (p len ty : Nat) (b : List Byte) : RxMsg :=
  { port := p, type := ty, poison := bit (leNat ((b.drop 1).take 1)) 0, srcEp := bit (leNat ((b.drop 8).take 2)) 15, src := leNat ((b.drop 8).take 2) % 2 ^ 14, body := (b.take len).drop 16 }

section MessageRx

variable {p v len : Nat} {b : List Byte} {s : State} (hst : (s.port p).state = .active) (hv : v < 4)
  (hb : (s.port p).rx.getD v [] = b) (hhead : 8 ≤ b.length) (hlen : len = leNat ((b.drop 4).take 4))

include hst hv hb hhead hlen

theorem runs_messageRx_badLength (hbad : len % 8 ≠ 0 ∨ len < 8 ∨ 16777216 < len) : Runs (.messageRx p v) s (s.toRetrain p 6 0x0E) := by
  subst hb hlen
  refine (if_neg (Port.not_lacks_header hst hv hhead)).trans (if_pos ?_)
  simp only [Bool.or_eq_true, decide_eq_true_eq]
  obtain h | h | h := hbad
  · exact .inl (.inl h)
  · exact .inl (.inr h)
  · exact .inr h

variable (hmod : len % 8 = 0) (hmin : 8 ≤ len) (hmax : len ≤ 16777216)

include hmod hmin hmax

theorem runs_messageRx_partial (hshort : b.length < len) : Runs (.messageRx p v) s s := by
  subst hb hlen
  exact (if_neg (Port.not_lacks_header hst hv hhead)).trans ((if_neg (not_badLength hmod hmin hmax)).trans (if_pos hshort))

variable (hwhole : len ≤ b.length) {u : State} (hu : u = s.setPort p ((s.port p).eat v len)) {ty : Nat} (hty : ty = leNat ((b.drop 0).take 1))

include hwhole hu hty

/-- R570: what becomes of a whole message, by its type. -/
theorem State.messageRx_whole : exec (.messageRx p v) s =
    if ty = 0 then .next u
    else if ty > 8 || ty = 1 || msgVc ty ≠ v || len < max 16 (msgMin ty) then .next (u.msgDiscard p)
    else if leNat ((b.drop 10).take 2) ≠ u.devId then .next (u.msgDiscard p)
    else
      let m := frontMsg p len ty b
      let sub := leNat (m.body.take 2)
      let known := ty ≠ 8 || (1 ≤ sub && sub ≤ 4) || (0x100 ≤ sub && sub ≤ 0x109)
      let pol := match u.vlt.policy with | some q => leNat (q.drop 6 |>.take 2) | none => 0
      let foreign := (ty = 2 && leNat (m.body.take 2) ≠ u.cf (bNGL + 0x8100) 47 32) ||
        (ty = 8 && 0x100 ≤ sub && sub ≤ 0x107 && leNat ((m.body.drop 8).take 2) ≠ u.cf (bNGL + 0x8100) 47 32)
      if !known || (ty = 8 && sub = 2 && !bit pol 3) || (ty = 7 && !m.srcEp) || foreign then .next (u.msgDiscard p)
      else .next { u with ngl := { u.ngl with inbox := u.ngl.inbox ++ [m] } } := by
  subst hb hlen hu hty
  exact (if_neg (Port.not_lacks_header hst hv hhead)).trans ((if_neg (not_badLength hmod hmin hmax)).trans (if_neg (Nat.not_lt.2 hwhole)))

theorem runs_messageRx_pad (h : ty = 0) : Runs (.messageRx p v) s u :=
  (State.messageRx_whole hst hv hb hhead hlen hmod hmin hmax hwhole hu hty).trans (if_pos h)

theorem runs_messageRx_undefined (h : ty = 1 ∨ 8 < ty) : Runs (.messageRx p v) s (u.msgDiscard p) := by
  refine (State.messageRx_whole hst hv hb hhead hlen hmod hmin hmax hwhole hu hty).trans ((if_neg ?_).trans (if_pos ?_))
  · omega
  · obtain h | h := h <;> simp [h]

variable (h3 : ty = 3) (hvc : msgVc 3 = v) (hown : 32 ≤ len)

include h3 hvc hown

/-- A gather request of full length comes to the test of its destination. -/
theorem State.messageRx_gather : exec (.messageRx p v) s =
    if leNat ((b.drop 10).take 2) ≠ u.devId then .next (u.msgDiscard p)
    else .next { u with ngl := { u.ngl with
      inbox := u.ngl.inbox ++ [frontMsg p len 3 b] } } := by
  have hwholeEq := State.messageRx_whole hst hv hb hhead hlen hmod hmin hmax hwhole hu hty
  subst h3
  refine hwholeEq.trans ((if_neg (by decide)).trans ((if_neg ?_).trans ?_))
  · simpa [msgMin, hvc] using hown
  · exact congrArg (@ite _ _ _ _) (if_neg (by simp))

theorem runs_messageRx_mine (hdst : leNat ((b.drop 10).take 2) = u.devId) : Runs (.messageRx p v) s { u with ngl := { u.ngl with
    inbox := u.ngl.inbox ++ [frontMsg p len 3 b] } } :=
  (State.messageRx_gather hst hv hb hhead hlen hmod hmin hmax hwhole hu hty h3 hvc hown).trans (if_neg (by simp [hdst]))

theorem runs_messageRx_other (hdst : leNat ((b.drop 10).take 2) ≠ u.devId) : Runs (.messageRx p v) s (u.msgDiscard p) :=
  (State.messageRx_gather hst hv hb hhead hlen hmod hmin hmax hwhole hu hty h3 hvc hown).trans (if_pos hdst)

end MessageRx

section Unreach

variable {ep : Bool} {d : Nat} {tr : List Nat} {s : State} (htr : s.route ep d = some tr)

include htr

theorem runs_unreachTimeout_reachable (h : (s.member tr 0).isSome = true) : Runs (.unreachTimeout ep d) s s := by
  show execUnreachTimeout ep d s = _
  simp only [execUnreachTimeout, htr]
  obtain ⟨m, hm⟩ := Option.isSome_iff_exists.1 h
  exact if_pos (by simp [hm])

theorem runs_unreachTimeout_alone (h : s.member tr 0 = none) (hwait : s.ngl.wait = []) :
    Runs (.unreachTimeout ep d) s { s with ngl := { s.ngl with
      dom := { s.ngl.dom with unreach := ((if ep then 2048 + d else d) :: s.ngl.dom.unreach).eraseDups } } } := by
  show execUnreachTimeout ep d s = _
  simp only [execUnreachTimeout, htr]
  refine (if_neg (by simp [h])).trans ?_
  simp only [hwait, List.filter_nil, List.nil_append, List.foldl_nil]

end Unreach

/-! ### Echoes -/

theorem runs_echoReq {m : RxMsg} {s : State} (hm : s.has 8 3 m) : Runs .echoReq s
    ((s.popMsg m).gateMsg (uPort m.port) (ctrlMsg m.srcEp m.src 4 (leBytes 8 (m.fld 0 8) ++ leBytes 8 s.ns))) := by
  show execEchoReq s = _
  rw [execEchoReq, hm]

theorem runs_echoReq_none {s : State} (h : s.inMsg 8 3 = none) : Runs .echoReq s s := by
  show execEchoReq s = _
  rw [execEchoReq, h]

section EchoRsp

variable {m : RxMsg} {tok tm : Nat} {s : State} (hm : s.has 8 4 m) (hsent : s.ngl.dom.echoSent = some (tok, tm))

include hm hsent

/-- R604: an answer gives a round trip where it carries the token in flight and comes from the held root. -/
theorem runs_echoRsp : Runs .echoRsp s
    (if (tok = m.fld 0 8 && m.src = s.ngl.dom.heldRoot && !m.srcEp) = true then (s.popMsg m).setDomn
      { s.ngl.dom with echoSent := none, rtts := ((s.ns - tm) :: s.ngl.dom.rtts).take 16 } else s.popMsg m) := by
  show execEchoRsp s = _
  rw [execEchoRsp, hm]
  have hsent' : (s.popMsg m).ngl.dom.echoSent = some (tok, tm) := hsent
  simp only [hsent']
  exact (apply_ite Host.Outcome.next _ _ _).symm

theorem runs_echoRsp_mine (htok : tok = m.fld 0 8) (hsrc : m.src = s.ngl.dom.heldRoot) (hep : m.srcEp = false) :
    Runs .echoRsp s ((s.popMsg m).setDomn { s.ngl.dom with echoSent := none, rtts := ((s.ns - tm) :: s.ngl.dom.rtts).take 16 }) := by
  have hruns := runs_echoRsp hm hsent
  rwa [if_pos (by simp [htok, hsrc, hep])] at hruns

theorem runs_echoRsp_other (htok : tok ≠ m.fld 0 8) : Runs .echoRsp s (s.popMsg m) := by
  have hruns := runs_echoRsp hm hsent
  rwa [if_neg (by simp [htok])] at hruns

end EchoRsp

theorem runs_echoSend {s : State} (hsrc : s.timeSrc = 3) (hheld : s.ngl.dom.rootHeld = true) (hst : s.ngl.dom.state ≠ .root)
    (hroot : s.ngl.dom.heldRoot ≠ s.devId) : Runs .echoSend s ((s.setDomn { s.ngl.dom with
      echoTok := (s.ngl.dom.echoTok + 1) % 2 ^ 64, echoSent := some (s.ngl.dom.echoTok, s.ns) }).domSend
        (ctrlMsg false s.ngl.dom.heldRoot 3 (leBytes 8 s.ngl.dom.echoTok))) :=
  if_pos (by simp [hsrc, hheld, hst, hroot])

theorem runs_echoSend_off {s : State} (hsrc : s.timeSrc ≠ 3) : Runs .echoSend s s :=
  if_neg (by simp [hsrc])

/-- Settles O52. -/
theorem messages : Obligations.Messages :=
  ⟨fun _ _ _ _ _ hst hv hb hhead hlen => ⟨runs_messageRx_badLength hst hv hb hhead hlen, fun hmod hmin hmax =>
      ⟨runs_messageRx_partial hst hv hb hhead hlen hmod hmin hmax, fun hwhole _ _ hu hty =>
        ⟨runs_messageRx_pad hst hv hb hhead hlen hmod hmin hmax hwhole hu hty,
          runs_messageRx_undefined hst hv hb hhead hlen hmod hmin hmax hwhole hu hty,
          runs_messageRx_mine hst hv hb hhead hlen hmod hmin hmax hwhole hu hty,
          runs_messageRx_other hst hv hb hhead hlen hmod hmin hmax hwhole hu hty⟩⟩⟩,
    fun _ _ _ _ htr => ⟨runs_unreachTimeout_reachable htr, runs_unreachTimeout_alone htr⟩,
    fun _ _ => runs_echoReq,
    fun _ _ _ _ hm hsent => ⟨runs_echoRsp_mine hm hsent, runs_echoRsp_other hm hsent⟩,
    fun _ => runs_echoReq_none, fun _ => runs_echoSend, fun _ => runs_echoSend_off⟩

/-! ### Steps -/

section Steps

variable {s : State} {d : Domn} (hd : s.ngl.dom = d)

include hd

theorem runs_stepTokenIssue (hst : d.state = .root) (hdone : ∀ i, i < s.epCount → i ∈ d.doneEps) {e n : Nat} (hcur : d.cur = (e, n)) :
    Runs .stepTokenIssue s (s.issueToken (if n + 1 = s.cf (rDom 6) 63 32 then ((e + 1) % 2 ^ 16, 0) else (e, n + 1))) := by
  subst hd
  have hall : (List.range s.epCount).all (fun i => s.ngl.dom.doneEps.contains i) = true :=
    List.all_eq_true.2 fun i hi => List.contains_iff_mem.2 (hdone i (List.mem_range.1 hi))
  show execStepTokenIssue s = _
  simp only [execStepTokenIssue, hst, hall, hcur, decide_true, Bool.and_self, if_true]

theorem runs_stepTokenIssue_other (hst : d.state ≠ .root) : Runs .stepTokenIssue s s := by
  subst hd
  exact if_neg (by simp [hst])

theorem runs_stepTokenIssue_waits {i : Nat} (hi : i < s.epCount) (hmiss : i ∉ d.doneEps) : Runs .stepTokenIssue s s := by
  subst hd
  refine if_neg fun h => hmiss ?_
  have hall := (Bool.and_eq_true_iff.1 h).2
  simpa using List.all_eq_true.1 hall i (List.mem_range.2 hi)

theorem runs_rootBeatSend (hst : d.state = .root) : Runs .rootBeatSend s (s.domSendAll (s.beatMsg false) s.others) := by
  subst hd
  exact if_pos hst

theorem runs_rootBeatSend_other (hst : d.state ≠ .root) : Runs .rootBeatSend s s := by
  subst hd
  exact if_neg hst

section Token

variable {m : RxMsg} {e n : Nat} (hm : s.has 2 0 m) (he : e = leNat ((m.body.drop 2).take 2)) (hn : n = leNat ((m.body.drop 8).take 8))

include hm he hn

/-- R593: a token is taken from the held root alone, and only where it is newer than the current one. -/
theorem runs_stepToken : Runs .stepToken s
    (if (d.state = .isIn && !m.srcEp && d.rootHeld && m.src = d.heldRoot &&
        (match d.token with | none => true | some c => stepLt c (e, n))) = true then
      ((s.popMsg m).setDomn { d with
        token := some (e, n), tokenT := leNat ((m.body.drop 0x10).take 8), deadline := leNat ((m.body.drop 0x18).take 8), lease := true }).bump
          (fabCtr 2) 1
    else (s.popMsg m).domIgnore) := by
  subst hd he hn
  show execStepToken s = _
  rw [execStepToken, hm]
  exact (apply_ite Host.Outcome.next _ _ _).symm

theorem runs_stepToken_taken (hst : d.state = .isIn) (hep : m.srcEp = false) (hheld : d.rootHeld = true) (hsrc : m.src = d.heldRoot)
    (hnew : d.token = none ∨ ∃ c, d.token = some c ∧ stepLt c (e, n) = true) :
    Runs .stepToken s (((s.popMsg m).setDomn { d with
      token := some (e, n), tokenT := leNat ((m.body.drop 0x10).take 8), deadline := leNat ((m.body.drop 0x18).take 8), lease := true }).bump
        (fabCtr 2) 1) := by
  have hruns := runs_stepToken hd hm he hn
  refine Eq.trans hruns (congrArg Host.Outcome.next (if_pos ?_))
  obtain h | ⟨c, h, hlt⟩ := hnew
  · simp [hst, hep, hheld, hsrc, h]
  · simp [hst, hep, hheld, hsrc, h, hlt]

theorem runs_stepToken_foreign (h : d.state ≠ .isIn ∨ m.srcEp = true ∨ d.rootHeld = false ∨ m.src ≠ d.heldRoot) :
    Runs .stepToken s (s.popMsg m).domIgnore := by
  have hruns := runs_stepToken hd hm he hn
  rwa [if_neg (by obtain h | h | h | h := h <;> simp [h])] at hruns

theorem runs_stepToken_old {c : Nat × Nat} (hc : d.token = some c) (hlt : stepLt c (e, n) = false) :
    Runs .stepToken s (s.popMsg m).domIgnore := by
  have hruns := runs_stepToken hd hm he hn
  rwa [if_neg (by simp [hc, hlt])] at hruns

end Token

section StepDone

variable {m : RxMsg} (hm : s.has 8 0x100 m)

include hm

/-- R591: a STEP_DONE for the current step marks the endpoints that its sender is. -/
theorem exists_runs_stepDone (hst : d.state = .root) (hep : m.srcEp = true) (htok : d.token = some (m.fld 2 2, m.fld 8 8)) :
    ∃ l, Runs .stepDone s ((s.popMsg m).setDomn { d with doneEps := l }) ∧
      ∀ i, i ∈ l ↔ i ∈ d.doneEps ∨ (i < s.epCount ∧ s.domEp i = m.src) := by
  subst hd
  refine ⟨(s.ngl.dom.doneEps ++ (List.range s.epCount).filter (fun i => s.domEp i = m.src)).eraseDups, ?_, fun i => ?_⟩
  · show execStepDone s = _
    rw [execStepDone, hm]
    refine if_pos ?_
    rw [Bool.and_eq_true, Bool.and_eq_true]
    exact ⟨⟨decide_eq_true hst, hep⟩, decide_eq_true htok⟩
  · simp [List.mem_eraseDups]

theorem runs_stepDone_other (htok : d.token ≠ some (m.fld 2 2, m.fld 8 8)) : Runs .stepDone s (s.popMsg m) := by
  subst hd
  show execStepDone s = _
  rw [execStepDone, hm]
  refine if_neg fun h => htok ?_
  rw [Bool.and_eq_true] at h
  exact of_decide_eq_true h.2

end StepDone

/-- R591: a deadline that finds endpoints missing names the first of them, once. -/
theorem runs_stepDeadline {i : Nat} (hi : i < s.epCount) (hmiss : i ∉ d.doneEps) (hfirst : ∀ j, j < i → j ∈ d.doneEps)
    (hst : d.state = .root) (hlate : d.late = false) :
    Runs .stepDeadline s ((s.setDomn { d with late := true, lateEp := i }).err (fabCtr 3)) := by
  subst hd
  have hfind : (List.range s.epCount).find? (fun i => !s.ngl.dom.doneEps.contains i) = some i :=
    List.find?_range_eq_some.2 ⟨by simpa using hmiss, List.mem_range.2 hi, fun j hj => by simpa using hfirst j hj⟩
  show execStepDeadline s = _
  simp only [execStepDeadline, hfind]
  exact if_pos (by simp [hst, hlate])

theorem runs_stepDeadline_late (hlate : d.late = true) : Runs .stepDeadline s s := by
  subst hd
  show execStepDeadline s = _
  simp only [execStepDeadline]
  split
  · rfl
  · exact if_neg (by simp [hlate])

/-! ### Beats and leases -/

section Beat

variable {m : RxMsg} (hm : s.has 8 0x101 m)

include hm

/-- R595: what a beat does, by the state that its receiver is in. -/
theorem State.rootBeat_eq : exec .rootBeat s =
    if d.state = .root then .next (if m.fld 2 2 > s.domTerm then (s.popMsg m).depose else (s.popMsg m).domIgnore)
    else if d.state = .out || m.srcEp then .next (s.popMsg m).domIgnore
    else if d.state = .joining && d.accepts (m.fld 2 2) m.src then .next (((s.popMsg m).holdRoot (m.fld 2 2) m.src).beatSync (m.fld 16 8))
    else if d.state ≠ .joining && d.rootHeld && m.src = d.heldRoot then
      .next (((s.popMsg m).setDomn { d with lease := true }).beatSync (m.fld 16 8))
    else .next (s.popMsg m).domIgnore := by
  subst hd
  show execRootBeat s = _
  rw [execRootBeat, hm]
  rfl

theorem runs_rootBeat_deposed (hst : d.state = .root) (hterm : s.domTerm < m.fld 2 2) : Runs .rootBeat s (s.popMsg m).depose :=
  (State.rootBeat_eq hd hm).trans ((if_pos hst).trans (congrArg Host.Outcome.next (if_pos hterm)))

theorem runs_rootBeat_root (hst : d.state = .root) (hterm : m.fld 2 2 ≤ s.domTerm) : Runs .rootBeat s (s.popMsg m).domIgnore :=
  (State.rootBeat_eq hd hm).trans ((if_pos hst).trans (congrArg Host.Outcome.next (if_neg (Nat.not_lt.2 hterm))))

theorem runs_rootBeat_out (hst : d.state = .out) : Runs .rootBeat s (s.popMsg m).domIgnore :=
  (State.rootBeat_eq hd hm).trans ((if_neg (by simp [hst])).trans (if_pos (by simp [hst])))

variable (hep : m.srcEp = false)

include hep

theorem runs_rootBeat_joining (hst : d.state = .joining) (hacc : d.accepts (m.fld 2 2) m.src = true) :
    Runs .rootBeat s (((s.popMsg m).holdRoot (m.fld 2 2) m.src).beatSync (m.fld 16 8)) :=
  (State.rootBeat_eq hd hm).trans ((if_neg (by simp [hst])).trans ((if_neg (by simp [hst, hep])).trans (if_pos (by simp [hst, hacc]))))

theorem runs_rootBeat_member (hst : d.state = .isIn ∨ d.state = .claiming ∨ d.state = .deposed) (hheld : d.rootHeld = true)
    (hsrc : m.src = d.heldRoot) : Runs .rootBeat s (((s.popMsg m).setDomn { d with lease := true }).beatSync (m.fld 16 8)) := by
  have hroot : d.state ≠ .root := by obtain h | h | h := hst <;> simp [h]
  have hout : d.state ≠ .out := by obtain h | h | h := hst <;> simp [h]
  have hjoin : d.state ≠ .joining := by obtain h | h | h := hst <;> simp [h]
  exact (State.rootBeat_eq hd hm).trans ((if_neg hroot).trans ((if_neg (by simp [hout, hep])).trans
    ((if_neg (by simp [hjoin])).trans (if_pos (by simp [hjoin, hheld, hsrc])))))

end Beat

theorem runs_leaseExpiry (h : d.lease = true) : Runs .leaseExpiry s
    ((((s.setDomn { d with lease := false }).setBits (bNGL + 0x8150) 1).event 4).faultC0 0x16 uDomain) := by
  subst hd
  exact if_pos h

theorem runs_leaseExpiry_none (h : d.lease = false) : Runs .leaseExpiry s s := by
  subst hd
  exact if_neg (by simp [h])

end Steps

/-- Settles O53. -/
theorem stepsAndBeats : Obligations.StepsAndBeats := fun _ _ hd =>
  ⟨fun hst hdone _ _ => runs_stepTokenIssue hd hst hdone,
    fun hst => ⟨runs_stepTokenIssue_other hd hst, runs_rootBeatSend_other hd hst⟩,
    fun _ => runs_stepTokenIssue_waits hd, runs_rootBeatSend hd,
    fun _ _ _ hm he hn => ⟨runs_stepToken_taken hd hm he hn, runs_stepToken_foreign hd hm he hn,
      fun _ => runs_stepToken_old hd hm he hn⟩,
    fun _ hm hst hep => ⟨exists_runs_stepDone hd hm hst hep, runs_stepDone_other hd hm⟩,
    fun _ => runs_stepDeadline hd, runs_stepDeadline_late hd,
    fun _ hm => ⟨runs_rootBeat_deposed hd hm, runs_rootBeat_root hd hm, runs_rootBeat_out hd hm,
      fun hst hep => runs_rootBeat_joining hd hm hep hst, fun hst hep => runs_rootBeat_member hd hm hep hst⟩,
    runs_leaseExpiry hd, runs_leaseExpiry_none hd⟩

end Sys2Proof.Machine
end

section
/-! O54 and O55: claims of the root role, members, and table pulls (chapter 25). -/

namespace Sys2Proof.Machine

/-! ### Claims of the root role -/

section Claims

variable {s : State} {d : Domn} (hd : s.ngl.dom = d)

include hd

theorem runs_claimSend_again (hst : d.state = .claiming) (hlease : d.lease = false) (hclaimed : d.claimed = true) :
    Runs .claimSend s
      (s.domSendAll (fun x => ctrlMsg false x 0x102 (s.rootBody s.domTerm d.cur)) (s.others.filter (fun x => !d.acks.contains x))) := by
  subst hd
  exact (if_pos (by simp [hst, hlease])).trans (if_pos hclaimed)

theorem runs_claimSend_leased (hst : d.state = .claiming) (hlease : d.lease = true) : Runs .claimSend s s := by
  subst hd
  exact (if_neg (by simp [hlease])).trans (if_neg (by simp [hst]))

/-- R596: the first claim goes to the devices and to the endpoints, and makes the claimant ROOT where it is a quorum by itself. -/
theorem exists_runs_claimSend_first (hst : d.state = .claiming) (hlease : d.lease = false) (hclaimed : d.claimed = false) :
    ∃ u : State, u.ngl.dom.claimed = true ∧ Runs .claimSend s (if u.quorum then u.enterRoot else u) := by
  subst hd
  refine ⟨_, ?_, (if_pos (by simp [hst, hlease])).trans (if_neg (by simp [hclaimed]))⟩
  rfl

section RootClaim

variable {m : RxMsg} (hm : s.has 8 0x102 m) {u : State} (hu : u = s.popMsg m)

include hm hu

/-- R597, R598: what a claim meets, by the role and the state of the device. -/
theorem State.rootClaim_eq : exec .rootClaim s =
    (let nack (x : State) (h q : Nat) : State :=
      x.domSend (ctrlMsg m.srcEp m.src 0x104 (leBytes 2 x.domNum ++ leBytes 2 h ++ leBytes 2 q ++ leBytes 2 0))
    if s.domRole = 0 then .next u
    else if d.state = .root then .next (nack (if m.fld 2 2 > s.domTerm then u.depose else u)
      s.domTerm s.devId)
    else if d.state = .deposed then .next (nack u s.domTerm d.heldRoot)
    else if d.accepts (m.fld 2 2) m.src then
      .next ((u.holdRoot (m.fld 2 2) m.src).domSend
        (ctrlMsg m.srcEp m.src 0x103 ((u.holdRoot (m.fld 2 2) m.src).rootBody (m.fld 2 2) (u.holdRoot (m.fld 2 2) m.src).ngl.dom.cur)))
    else .next (nack u d.heldTerm d.heldRoot)) := by
  subst hd hu
  show execRootClaim s = _
  rw [execRootClaim, hm]
  rfl

theorem runs_rootClaim_outsider (h : s.domRole = 0) : Runs .rootClaim s u :=
  (State.rootClaim_eq hd hm hu).trans (if_pos h)

section Member

variable (hrole : s.domRole ≠ 0)

include hrole

theorem runs_rootClaim_refused (hst : d.state = .root) (hterm : m.fld 2 2 ≤ s.domTerm) :
    Runs .rootClaim s (u.domSend (ctrlMsg m.srcEp m.src 0x104 (leBytes 2 s.domNum ++ leBytes 2 s.domTerm ++ leBytes 2 s.devId ++ leBytes 2 0))) := by
  have hclaim := State.rootClaim_eq hd hm hu
  simp only [hrole, hst, if_false, if_true, if_neg (Nat.not_lt.2 hterm)] at hclaim
  subst hu
  exact hclaim

theorem exists_runs_rootClaim_deposed (hst : d.state = .root) (hterm : s.domTerm < m.fld 2 2) :
    ∃ msg, Runs .rootClaim s (u.depose.domSend msg) ∧ msg.type = 8 := by
  have hclaim := State.rootClaim_eq hd hm hu
  simp only [hrole, hst, if_false, if_true, if_pos hterm] at hclaim
  exact ⟨_, hclaim, rfl⟩

variable (hst : d.state = .isIn ∨ d.state = .joining ∨ d.state = .claiming ∨ d.state = .out)

include hst

theorem runs_rootClaim_acked (hacc : d.accepts (m.fld 2 2) m.src = true) {w : State} (hw : w = u.holdRoot (m.fld 2 2) m.src) :
    Runs .rootClaim s (w.domSend (ctrlMsg m.srcEp m.src 0x103 (w.rootBody (m.fld 2 2) w.ngl.dom.cur))) := by
  have hroot : d.state ≠ .root := by obtain h | h | h | h := hst <;> simp [h]
  have hdep : d.state ≠ .deposed := by obtain h | h | h | h := hst <;> simp [h]
  subst hw
  exact (State.rootClaim_eq hd hm hu).trans ((if_neg hrole).trans ((if_neg hroot).trans ((if_neg hdep).trans (if_pos hacc))))

theorem runs_rootClaim_nacked (hacc : d.accepts (m.fld 2 2) m.src = false) :
    Runs .rootClaim s (u.domSend (ctrlMsg m.srcEp m.src 0x104
      (leBytes 2 s.domNum ++ leBytes 2 d.heldTerm ++ leBytes 2 d.heldRoot ++ leBytes 2 0))) := by
  have hroot : d.state ≠ .root := by obtain h | h | h | h := hst <;> simp [h]
  have hdep : d.state ≠ .deposed := by obtain h | h | h | h := hst <;> simp [h]
  have hclaim := (State.rootClaim_eq hd hm hu).trans ((if_neg hrole).trans ((if_neg hroot).trans ((if_neg hdep).trans (if_neg (by simp [hacc])))))
  subst hu
  exact hclaim

end Member

end RootClaim

/-- The domain's record once the acknowledgement of `src` with the step `t` has been counted (R596). -/
def Domn.acked (d : Domn) (src : Nat) (t : Nat × Nat) : Domn :=
  { d with
    acks := if d.acks.contains src then d.acks else d.acks ++ [src]
    best := if t = (0, 0) then d.best else match d.best with
      | none => some t
      | some b => if stepLt b t then some t else some b }

omit hd in
theorem Domn.mem_acks_acked (d : Domn) (src : Nat) (t : Nat × Nat) : src ∈ (d.acked src t).acks := by
  unfold Domn.acked
  dsimp only
  split
  · exact List.contains_iff_mem.1 ‹_›
  · exact List.mem_append_right _ (List.mem_singleton_self _)

omit hd in
theorem Domn.mem_acks_acked_of_mem (d : Domn) (src : Nat) (t : Nat × Nat) {x : Nat} (hx : x ∈ d.acks) : x ∈ (d.acked src t).acks := by
  unfold Domn.acked
  dsimp only
  split
  · exact hx
  · exact List.mem_append_left _ hx

section RootAck

variable {m : RxMsg} (hm : s.has 8 0x103 m)

include hm

omit hd in
theorem runs_rootAck_ignored (h : m.fld 2 2 ≠ s.domTerm ∨ m.src ∉ s.others ∨ m.srcEp = true) : Runs .rootAck s (s.popMsg m) := by
  show execRootAck s = _
  rw [execRootAck, hm]
  refine if_neg fun hok => ?_
  simp only [Bool.and_eq_true, decide_eq_true_eq, Bool.not_eq_true'] at hok
  obtain ⟨⟨⟨hterm, hsrc⟩, hep⟩, -⟩ := hok
  obtain h | h | h := h
  · exact h hterm
  · exact h (List.contains_iff_mem.1 hsrc)
  · exact Bool.false_ne_true (hep.symm.trans h)

/-- R596: the acknowledgement counts its sender, and a quorum makes the claimant ROOT. -/
theorem exists_runs_rootAck (hterm : m.fld 2 2 = s.domTerm) (hsrc : m.src ∈ s.others) (hep : m.srcEp = false) (hst : d.state = .claiming)
    (hclaimed : d.claimed = true) : ∃ u : State, m.src ∈ u.ngl.dom.acks ∧ (∀ x ∈ d.acks, x ∈ u.ngl.dom.acks) ∧
      Runs .rootAck s (if u.quorum then u.enterRoot else u) := by
  subst hd
  refine ⟨(s.popMsg m).setDomn (s.ngl.dom.acked m.src (m.fld 4 2, m.fld 8 8)), s.ngl.dom.mem_acks_acked m.src _,
    fun x => s.ngl.dom.mem_acks_acked_of_mem m.src _, ?_⟩
  show execRootAck s = _
  rw [execRootAck, hm]
  refine (if_pos (by simpa [hep] using ⟨⟨hterm, hsrc⟩, .inl ⟨hst, hclaimed⟩⟩)).trans ?_
  exact congrArg (fun b => Host.Outcome.next (State.whenB _ (b && _) _)) (decide_eq_true hst)

end RootAck

theorem runs_rootNack {m : RxMsg} (hm : s.has 8 0x104 m) (hst : d.state = .claiming) :
    Runs .rootNack s ((s.popMsg m).domSet .deposed) := by
  subst hd
  show execRootNack s = _
  rw [execRootNack, hm]
  exact if_pos hst

theorem runs_rootNack_other {m : RxMsg} (hm : s.has 8 0x104 m) (hst : d.state ≠ .claiming) : Runs .rootNack s (s.popMsg m) := by
  subst hd
  show execRootNack s = _
  rw [execRootNack, hm]
  exact if_neg hst

/-! ### Joining, leaving and member status -/

theorem runs_joinSend (hst : d.state = .joining) : Runs .joinSend s
    (s.domSendAll (fun x => ctrlMsg false x 0x105 (leBytes 2 s.domNum ++ leBytes 2 d.heldTerm ++ leBytes 4 0)) s.others) := by
  subst hd
  exact if_pos hst

theorem runs_joinSend_other (hst : d.state ≠ .joining) : Runs .joinSend s s := by
  subst hd
  exact if_neg hst

theorem runs_join_other {m : RxMsg} (hm : s.has 8 0x105 m) (hst : d.state ≠ .root) : Runs .join s (s.popMsg m) := by
  subst hd
  show execJoin s = _
  rw [execJoin, hm]
  exact if_neg hst

theorem runs_join {m : RxMsg} (hm : s.has 8 0x105 m) (hst : d.state = .root) {u : State}
    (hu : u = (s.popMsg m).setDomn { d with left := d.left.filter (fun x => decide (x ≠ m.src)) }) :
    Runs .join s ((u.domSend (u.beatMsg m.srcEp m.src)).domSend (u.tokenMsg m.srcEp m.src)) := by
  subst hd hu
  show execJoin s = _
  rw [execJoin, hm]
  exact if_pos hst

theorem exists_runs_leave {m : RxMsg} (hm : s.has 8 0x106 m) :
    ∃ l, Runs .leave s ((s.popMsg m).setDomn { d with left := l }) ∧ m.src ∈ l ∧ ∀ x ∈ d.left, x ∈ l := by
  subst hd
  refine ⟨(s.ngl.dom.left ++ [m.src]).eraseDups, ?_, by simp [List.mem_eraseDups], fun x hx => by simp [List.mem_eraseDups, hx]⟩
  show execLeave s = _
  rw [execLeave, hm]
  rfl

theorem exists_runs_memberStatSend (hst : d.state = .isIn ∨ d.state = .root) :
    ∃ f, Runs .memberStatSend s (s.domSendAll f s.others) ∧ ∀ x, (f x).dst = x ∧ (f x).type = 8 := by
  subst hd
  refine ⟨_, if_pos ?_, fun x => ⟨rfl, rfl⟩⟩
  obtain h | h := hst <;> simp [h]

theorem runs_memberStatSend_joining (hst : d.state = .joining) : Runs .memberStatSend s s := by
  subst hd
  exact if_neg (by simp [hst])

/-- R600: the status of a member replaces its entry of the table, filled up with zeros. -/
theorem exists_runs_memberStat {m : RxMsg} {i dv : Nat} (hm : s.has 8 0x107 m)
    (hfind : s.memberTbl.find? (fun e => e.2 = m.src) = some (i, dv)) (hst : d.state = .root) (hep : m.srcEp = false)
    (hreach : s.reachable (put (s.cf (rDom 7) 43 7) 7 37 + 128 * i) = true) :
    ∃ b, b.length = 128 ∧ Runs .memberStat s ((s.popMsg m).store (put (s.cf (rDom 7) 43 7) 7 37 + 128 * i) b) := by
  subst hd
  refine ⟨((m.body.drop 16).take (16 * min 8 (m.fld 2 2)) ++ List.replicate 128 0).take 128, by simp, ?_⟩
  have hfind' : (s.popMsg m).memberTbl.find? (fun e => e.2 = m.src) = some (i, dv) := hfind
  have hreach' : (s.popMsg m).reachable (put ((s.popMsg m).cf (rDom 7) 43 7) 7 37 + 128 * i) = true := hreach
  have hst' : (s.popMsg m).ngl.dom.state = .root := hst
  show execMemberStat s = _
  rw [execMemberStat, hm]
  simp only [hfind', hreach', hst', hep]
  rfl

end Claims

/-- Settles O54. -/
theorem claimsAndMembers : Obligations.ClaimsAndMembers := fun _ _ hd =>
  ⟨runs_claimSend_again hd, runs_claimSend_leased hd, exists_runs_claimSend_first hd,
    fun _ hm _ hu => ⟨runs_rootClaim_outsider hd hm hu, runs_rootClaim_refused hd hm hu, exists_runs_rootClaim_deposed hd hm hu,
      fun hrole hst => ⟨fun hacc _ => runs_rootClaim_acked hd hm hu hrole hst hacc, runs_rootClaim_nacked hd hm hu hrole hst⟩⟩,
    fun _ hm => ⟨runs_rootAck_ignored hm, exists_runs_rootAck hd hm⟩,
    fun _ hm => ⟨runs_rootNack hd hm, runs_rootNack_other hd hm⟩,
    runs_joinSend hd, runs_joinSend_other hd,
    fun _ hm => ⟨runs_join_other hd hm, fun hst _ => runs_join hd hm hst⟩,
    fun _ => exists_runs_leave hd, exists_runs_memberStatSend hd, runs_memberStatSend_joining hd,
    fun _ _ _ => exists_runs_memberStat hd⟩

/-! ### Table pulls -/

section PullGo

variable {p : Path} {n a : Nat} {s : State} (ha : a = bNGL + 0xB000 + 0x20 * n) (hn : n < 8) (hgate : s.wgate p (a + 0x18) = true)

theorem runs_nglFabPullGo_busy (hbusy : (s.pull n).state = .busy) : Runs (.nglFabPullGo p n) s s :=
  if_neg (by simp [hbusy])

include ha hn hgate

variable (hidle : (s.pull n).state ≠ .busy) {q : Pull} (hdev : q.dev = wfld (s.reg a) 58 48) (htable : q.table = wfld (s.reg a) 43 32)
  (hversion : q.version = wfld (s.reg a) 31 0) (hfirst : q.first = wfld (s.reg (a + 8)) 63 32) (hcount : q.count = wfld (s.reg (a + 8)) 31 0)
  (hdest : q.dest = wfld (s.reg (a + 16)) 43 0) (hrows : q.rows = 0) (hreason : q.reason = 0)

include hidle hdev htable hversion hfirst hcount hdest hrows hreason

/-- R608: a pull starts with what its registers ask, and asks for it where it is of any rows. -/
theorem runs_nglFabPullGo (hstate : q.state = if wfld (s.reg (a + 8)) 31 0 = 0 then .done else .busy) : Runs (.nglFabPullGo p n) s
    (if q.count = 0 then s.setPull n q else (s.setPull n q).domSend (pullMsg q.dev q.table q.version q.first q.count)) := by
  obtain ⟨state, reason, dev, table, version, first, count, dest, rows⟩ := q
  dsimp only at hdev htable hversion hfirst hcount hdest hrows hreason hstate
  subst hdev htable hversion hfirst hcount hdest hrows hreason hstate ha
  exact if_pos (by simp [hn, hgate, hidle])

theorem runs_nglFabPullGo_empty (hzero : q.count = 0) (hstate : q.state = .done) : Runs (.nglFabPullGo p n) s (s.setPull n q) := by
  have hruns := runs_nglFabPullGo ha hn hgate hidle hdev htable hversion hfirst hcount hdest hrows hreason (by rw [← hcount, if_pos hzero, hstate])
  rwa [if_pos hzero] at hruns

theorem runs_nglFabPullGo_asks (hpos : q.count ≠ 0) (hstate : q.state = .busy) : Runs (.nglFabPullGo p n) s
    ((s.setPull n q).domSend (pullMsg q.dev q.table q.version q.first q.count)) := by
  have hruns := runs_nglFabPullGo ha hn hgate hidle hdev htable hversion hfirst hcount hdest hrows hreason (by rw [← hcount, if_neg hpos, hstate])
  rwa [if_neg hpos] at hruns

end PullGo

section TableChunk

variable {m : RxMsg} {n : Nat} {q : Pull} {s u : State} (hm : s.has 6 0 m) (hu : u = (s.popMsg m).bump (fabCtr 7) 1)
  {first count stride : Nat} {b : List Byte} (hfirst : first = leNat ((m.body.drop 8).take 4)) (hcount : count = leNat ((m.body.drop 12).take 4))

include hm hu hfirst hcount

theorem runs_tableChunk_unknown
    (hpull : u.pullFor m (leNat ((m.body.drop 0).take 2)) (leNat ((m.body.drop 4).take 4)) first count = none) : Runs .tableChunk s u := by
  subst hu hfirst hcount
  show execTableChunk s = _
  rw [execTableChunk, hm]
  simp only [hpull]

theorem runs_tableChunk (hstride : stride = leNat ((m.body.drop 16).take 4)) (hb : b = (m.body.drop 24).take (stride * count))
    (hpull : u.pullFor m (leNat ((m.body.drop 0).take 2)) (leNat ((m.body.drop 4).take 4)) first count = some (n, q))
    (hpoison : m.poison = false) (hacc : u.accErr 0 ((q.dest + (first - q.first) * stride : Nat) : Int) b.length = none) :
    Runs .tableChunk s ((u.store (q.dest + (first - q.first) * stride) b).setPull n
      { q with rows := q.rows + count, state := if q.rows + count ≥ q.count then .done else .busy }) := by
  subst hu hb hfirst hcount hstride
  show execTableChunk s = _
  rw [execTableChunk, hm]
  simp only [hpull, hacc, hpoison]
  rfl

end TableChunk

theorem runs_tablePullNak_unknown {m : RxMsg} {s : State} (hm : s.has 8 0x109 m)
    (hpull : (s.popMsg m).pullFor m (m.fld 0 2) (m.fld 4 4) (m.fld 8 4) 0 = none) : Runs .tablePullNak s (s.popMsg m) := by
  show execTablePullNak s = _
  rw [execTablePullNak, hm]
  simp only [hpull]

theorem runs_tablePullNak {m : RxMsg} {s : State} (hm : s.has 8 0x109 m) {n : Nat} {q : Pull}
    (hpull : (s.popMsg m).pullFor m (m.fld 0 2) (m.fld 4 4) (m.fld 8 4) 0 = some (n, q)) :
    Runs .tablePullNak s ((s.popMsg m).setPull n { q with state := .failed, reason := m.fld 2 1 }) := by
  show execTablePullNak s = _
  rw [execTablePullNak, hm]
  simp only [hpull]

theorem runs_pullTimeout {n : Nat} {s : State} (hn : n < 8) (hbusy : (s.pull n).state = .busy) :
    Runs (.pullTimeout n) s (s.setPull n { s.pull n with state := .failed, reason := 4 }) :=
  if_pos (by simp [hn, hbusy])

theorem runs_pullTimeout_idle {n : Nat} {s : State} (hidle : (s.pull n).state ≠ .busy) : Runs (.pullTimeout n) s s :=
  if_neg (by simp [hidle])

/-! ### The service of pulls -/

theorem State.pullRows_of_not_held {s : State} {table version : Nat} (h : s.heldBase table version = none) (d : TblDesc) (known : Bool)
    (first count : Nat) : s.pullRows d known table version first count = .error 1 := by
  rw [State.pullRows, h]

/-- The chunks of a list, put together again, are the list. -/
theorem flatten_chunks {α : Type} {k : Nat} (hk : 1 ≤ k) {fuel : Nat} {l : List α} (h : l.length ≤ fuel) :
    (chunks k fuel l).flatten = l := by
  induction fuel generalizing l with
  | zero => simp [chunks, List.length_eq_zero_iff.1 (Nat.le_zero.1 h)]
  | succ fuel ih =>
    cases l with
    | nil => rfl
    | cons x xs =>
      have hdrop : ((x :: xs).drop k).length ≤ fuel := by
        rw [List.length_drop]
        omega
      show ((x :: xs).take k :: chunks k fuel ((x :: xs).drop k)).flatten = x :: xs
      rw [List.flatten_cons, ih hdrop, List.take_append_drop]

theorem runs_tablePull_refused {m : RxMsg} {s : State} (hm : s.has 8 0x108 m) (hheld : s.heldBase (m.fld 0 2 % 4096) (m.fld 4 4) = none) :
    Runs .tablePull s ((s.popMsg m).domSend (ctrlMsg m.srcEp m.src 0x109
      (leBytes 2 (m.fld 0 2 % 4096) ++ leBytes 1 1 ++ leBytes 1 0 ++ leBytes 4 (m.fld 4 4) ++ leBytes 4 (m.fld 8 4) ++ leBytes 4 0))) := by
  have hheld' : (s.popMsg m).heldBase (m.fld 0 2 % 4096) (m.fld 4 4) = none := hheld
  show execTablePull s = _
  rw [execTablePull, hm]
  simp only [State.pullRows_of_not_held hheld']

section TablePull

variable {m : RxMsg} {b : List Byte} {d : TblDesc} {rows : List (List Byte)} {s u : State} (hm : s.has 8 0x108 m) (hu : u = s.popMsg m)
  (hread : u.issueRead (u.tblDescAddr u.gen (m.fld 0 2 % 4096)) = .ok b) (hdesc : d = TblDesc.ofBytes b) (hlen : b.length = 64)
  (hgood : tblBad b = false) (hknown : m.fld 0 2 % 4096 < u.cf (bGTH + 0x10) 56 44)
  (hrows : u.pullRows d true (m.fld 0 2 % 4096) (m.fld 4 4) (m.fld 8 4) (m.fld 12 4) = .ok rows)
  {k : Nat} {cs : List (List (List Byte))} (hk : k = max 1 (65536 / max 1 d.rowStride)) (hcs : cs = chunks k (rows.length + 1) rows)

include hm hu hread hdesc hlen hgood hknown hrows hk hcs

theorem runs_tablePull : Runs .tablePull s (((List.range cs.length).foldl (fun s i =>
    s.domSend (chunkMsg m.src m.srcEp (m.fld 0 2 % 4096) (m.fld 4 4) (m.fld 8 4 + k * i) d.rowStride i (cs.getD i []))) u).bump
      (fabCtr 8) 1) := by
  subst hu hdesc hk hcs
  have htable : (decide (m.fld 0 2 % 4096 < (s.popMsg m).cf (bGTH + 0x10) 56 44) && decide (b.length = 64) && !tblBad b) = true := by
    simp [hknown, hlen, hgood]
  show execTablePull s = _
  rw [execTablePull, hm]
  simp only [hread, htable, hrows]

end TablePull

/-- Settles O55. -/
theorem tablePulls : Obligations.TablePulls :=
  ⟨fun _ _ _ _ ha hn hgate => ⟨runs_nglFabPullGo_busy, fun hidle _ hdev htable hversion hfirst hcount hdest hrows hreason =>
      ⟨runs_nglFabPullGo_empty ha hn hgate hidle hdev htable hversion hfirst hcount hdest hrows hreason,
        runs_nglFabPullGo_asks ha hn hgate hidle hdev htable hversion hfirst hcount hdest hrows hreason⟩⟩,
    fun _ _ _ _ _ hm hu _ _ _ _ hfirst hcount hstride hb => ⟨runs_tableChunk_unknown hm hu hfirst hcount,
      runs_tableChunk hm hu hfirst hcount hstride hb⟩,
    fun _ _ hm => ⟨runs_tablePullNak_unknown hm, fun _ _ => runs_tablePullNak hm⟩,
    fun _ _ hn => ⟨runs_pullTimeout hn, runs_pullTimeout_idle⟩,
    fun _ _ => runs_tablePull_refused,
    fun _ _ _ _ _ _ hm hu hread hdesc hlen hgood hknown hrows _ _ hk hcs =>
      ⟨runs_tablePull hm hu hread hdesc hlen hgood hknown hrows hk hcs,
        hcs ▸ flatten_chunks (by omega) (Nat.le_succ _)⟩⟩

end Sys2Proof.Machine
end

section
/-! O56 and O57: the host link, its window and reads, the coherent cache and DOE (chapter 26). -/

namespace Sys2Proof.Machine

/-! ### Known host memory -/

theorem State.hostRd_eq_tget (s : State) (a : Nat) : s.hostRd a = tget (Config.hostByte a) s.host a := by
  rw [State.hostRd]
  induction s.host with
  | nil => rfl
  | cons e l ih =>
    obtain ⟨k, v⟩ := e
    by_cases h : k = a
    · simp [tget, h]
    · simpa [List.find?_cons, tget, h] using ih

/-- Known host memory once the first `n` bytes of `b` have been written from `a` on. -/
def hostPut (b : List Byte) (a n : Nat) (l : Tbl Byte) : Tbl Byte := (List.range n).foldl (fun l i => tins l (a + i) (b.getD i 0)) l

theorem hostPut_succ (b : List Byte) (a n : Nat) (l : Tbl Byte) : hostPut b a (n + 1) l = tins (hostPut b a n l) (a + n) (b.getD n 0) := by
  simp [hostPut, List.range_succ]

theorem tget_hostPut_in (d : Byte) (b : List Byte) (a : Nat) (l : Tbl Byte) {n i : Nat} (hi : i < n) :
    tget d (hostPut b a n l) (a + i) = b.getD i 0 := by
  induction n with
  | zero => omega
  | succ n ih =>
    rw [hostPut_succ]
    by_cases h : i = n
    · subst h
      exact tget_tins_same _ _ _
    · exact (tget_tins_ne _ _ (by omega)).trans (ih (by omega))

theorem tget_hostPut_out (d : Byte) (b : List Byte) (a : Nat) (l : Tbl Byte) {n x : Nat} (hx : x < a ∨ a + n ≤ x) :
    tget d (hostPut b a n l) x = tget d l x := by
  induction n with
  | zero => rfl
  | succ n ih =>
    rw [hostPut_succ]
    exact (tget_tins_ne _ _ (by omega)).trans (ih (by omega))

section HostBytes

variable {s t : State} {b : List Byte} {a n : Nat} (h : t.host = hostPut b a n s.host)

include h

theorem State.hostRd_of_hostPut_in {i : Nat} (hi : i < n) : t.hostRd (a + i) = b.getD i 0 := by
  rw [State.hostRd_eq_tget, h]
  exact tget_hostPut_in _ _ _ _ hi

theorem State.hostRd_of_hostPut_out {x : Nat} (hx : x < a ∨ a + n ≤ x) : t.hostRd x = s.hostRd x := by
  rw [State.hostRd_eq_tget, State.hostRd_eq_tget, h]
  exact tget_hostPut_out _ _ _ _ hx

end HostBytes

/-! ### Resets of the link -/

/-- What the end of a host transfer leaves alone: the committed configuration, the memory and the link. -/
def State.besideTasks (s : State) : Stg × Mem × Hif := (s.stg, s.mem, s.hif)

theorem State.modTask_besideTasks (s : State) (t : Nat) (f : Task → Task) : (s.modTask t f).besideTasks = s.besideTasks := by
  unfold State.modTask
  split <;> rfl

theorem State.hostTransfersFenced_besideTasks (s : State) :
    s.hostTransfersFenced.besideTasks = { s with hif := { s.hif with reads := [] } }.besideTasks := by
  unfold State.hostTransfersFenced
  extract_lets s1 s2
  have h1 : s1.besideTasks = s.besideTasks :=
    foldl_view (φ := State.besideTasks) (fun s t => show ((s.modTask t _).dropStreamsOf t).besideTasks = _ from State.modTask_besideTasks s t _) _ s
  have h2 : s2.besideTasks = s.besideTasks :=
    (foldl_view (φ := State.besideTasks) (fun s t => State.modTask_besideTasks s t _) _ s1).trans h1
  exact congrArg (fun x : Stg × Mem × Hif => (x.1, x.2.1, { x.2.2 with reads := [] })) h2

theorem State.errN_besideTasks (s : State) (a n : Nat) : (s.errN a n).besideTasks = s.besideTasks :=
  foldl_view (φ := State.besideTasks) (fun s _ => show (s.err a).besideTasks = s.besideTasks from rfl) _ s

/-- R621: what a reset of the interface leaves of its link and of its configuration. -/
theorem State.hifReset_hif (s : State) (link : Bool) : (s.hifReset link).hif =
    { training := link, linkUp := s.hif.linkUp && !link, flit := s.hif.flit && !link, cxlCache := s.hif.cxlCache && !link,
      cxlMem := s.hif.cxlMem && !link, rate := if link then 0 else s.hif.rate, width := if link then 0 else s.hif.width,
      bar2Log2 := s.cf (bHIF + 0x20) 63 56, bar2Taken := true, nextTag := s.hif.nextTag } := by
  unfold State.hifReset
  extract_lets s1 s2 s3
  have h : s3.besideTasks = { s with hif := { s.hif with reads := [] } }.besideTasks :=
    (s1.errN_besideTasks _ _).trans s.hostTransfersFenced_besideTasks
  have hhif : s3.hif = { s.hif with reads := [] } := congrArg (fun x => x.2.2) h
  have hcf : s3.cf (bHIF + 0x20) 63 56 = s.cf (bHIF + 0x20) 63 56 := State.cf_congr (congrArg Prod.fst h) _ _ _
  simp only [hhif, hcf]

theorem State.hifReset_mem (s : State) (link : Bool) : (s.hifReset link).mem = s.mem :=
  congrArg (fun x => x.2.1) ((State.errN_besideTasks _ _ _).trans s.hostTransfersFenced_besideTasks)

section Reset

variable {s : State} (hlink : s.hif.linkUp = true)

include hlink

theorem runs_hotReset : Runs .hotReset s (s.hifReset true) := if_pos hlink

theorem runs_linkDown : Runs .linkDown s (s.hifReset true) := if_pos hlink

theorem runs_functionLevelReset : Runs .functionLevelReset s (s.hifReset false) := if_pos hlink

theorem exists_runs_linkReset {c : Instr} (hc : c = .hotReset ∨ c = .linkDown) :
    ∃ t, Runs c s t ∧ t.hif.linkUp = false ∧ t.hif.training = true := by
  have hup : (s.hifReset true).hif.linkUp = false := by rw [State.hifReset_hif]; exact Bool.and_false _
  have htrain : (s.hifReset true).hif.training = true := by rw [State.hifReset_hif]
  obtain rfl | rfl := hc
  · exact ⟨_, runs_hotReset hlink, hup, htrain⟩
  · exact ⟨_, runs_linkDown hlink, hup, htrain⟩

theorem exists_runs_functionLevelReset :
    ∃ t, Runs .functionLevelReset s t ∧ t.hif.linkUp = true ∧ t.hif.rate = s.hif.rate ∧ t.hif.width = s.hif.width := by
  refine ⟨_, runs_functionLevelReset hlink, ?_⟩
  rw [State.hifReset_hif, hlink]
  exact ⟨rfl, rfl, rfl⟩

theorem exists_runs_reset {c : Instr} (hc : c = .hotReset ∨ c = .linkDown ∨ c = .functionLevelReset) : ∃ t, Runs c s t ∧
    t.hif.mse = false ∧ t.hif.bme = false ∧ t.hif.d3hot = false ∧ t.hif.msixEn = false ∧ t.hif.cc = [] ∧ t.hif.ccPend = [] ∧
      t.hif.evict = [] ∧ t.hif.reads = [] ∧ t.hif.bar2Log2 = s.cf (bHIF + 0x20) 63 56 ∧ SameMem s t := by
  have hruns : ∃ link, Runs c s (s.hifReset link) := by
    obtain rfl | rfl | rfl := hc
    · exact ⟨_, runs_hotReset hlink⟩
    · exact ⟨_, runs_linkDown hlink⟩
    · exact ⟨_, runs_functionLevelReset hlink⟩
  obtain ⟨link, hruns⟩ := hruns
  refine ⟨_, hruns, ?_⟩
  rw [State.hifReset_hif]
  exact ⟨rfl, rfl, rfl, rfl, rfl, rfl, rfl, rfl, rfl, fun a => congrArg (Mem.rd · a) (s.hifReset_mem link)⟩

/-! ### The function, its vectors and configuration requests -/

theorem runs_d3hotEntry : Runs .d3hotEntry s { s with hif := { s.hif with d3hot := true } } := if_pos hlink

theorem runs_msixVectorUnmask_function : Runs (.msixVectorUnmask none) s { s with hif := { s.hif with msixMask := false } }.msixFlush :=
  if_pos hlink

theorem runs_configRequest_retry (hretry : s.configRetry = true) (w : Bool) (r : CfgReg) (v : Nat) :
    Runs (.configRequest w r v) s (s.emit .retryStatus) :=
  (if_neg (by simp [hlink])).trans (if_pos hretry)

variable (hready : s.configRetry = false)

include hready

theorem runs_configRequest_read (r : CfgReg) (v : Nat) : Runs (.configRequest false r v) s (s.emit (.config (s.cfgRead r))) :=
  (if_neg (by simp [hlink])).trans (if_neg (by simp [hready]))

theorem runs_configRequest_write (r : CfgReg) (v : Nat) : Runs (.configRequest true r v) s ((s.cfgWrite r v).emit (.config 0)) :=
  (if_neg (by simp [hlink])).trans (if_neg (by simp [hready]))

end Reset

/-! ### The window -/

section Window

variable {s : State} {w : Bool} {off n : Nat} {data : List Byte} {poison : Bool} {a : Nat} (hdom : s.domOn 1 = true)
  (hlink : s.hif.linkUp = true)

include hdom hlink

theorem runs_bar2Access_unsupported (h : s.hif.d3hot = true ∨ s.hif.mse = false) :
    Runs (.bar2Access w off data n poison) s (s.emit .unsupported) :=
  (if_neg (by simp [hdom, hlink])).trans (if_pos (by obtain h | h := h <;> simp [h]))

variable (ha : a = put (s.cf (bHIF + 0x20) 43 28) 28 16 + off)

include ha

theorem runs_bar2Access (hd3 : s.hif.d3hot = false) (hmse : s.hif.mse = true) (hbar : s.hif.bar2Log2 ≠ 0)
    (hoff : off < 2 ^ s.hif.bar2Log2) : Runs (.bar2Access w off data n poison) s (s.winAccess w a data n poison) := by
  subst ha
  exact (if_neg (by simp [hdom, hlink])).trans (if_neg (by simp [hd3, hmse, hbar, hoff]))

theorem runs_cxlMemRequest {h : Nat} (hmem : s.hif.cxlMem = true) (hhdm : s.hif.hdmCommitted = true) (hh : h = s.hif.hdmBase + off)
    (hoff : off < s.hif.hdmSize) : Runs (.cxlMemRequest w h data n poison) s (s.winAccess w a data n poison) := by
  subst ha hh
  refine (if_pos (by simp [hdom, hlink, hmem, hhdm, hoff])).trans ?_
  rw [Nat.add_sub_cancel_left]
  rfl

end Window

section WinAccess

variable {s : State} {w : Bool} {data : List Byte} {poison : Bool} {a n d : Nat} (hpos : 0 < n) (hmax : n ≤ 64)
  (hline : a / 64 = (a + n - 1) / 64) (hregion : region a = some (.hbm d))

include hpos hmax hline hregion

/-- R617: what an access of the window within one line does, by whether its stack is READY. -/
theorem State.winAccess_hbm : s.winAccess w a data n poison =
    if !s.dieReady d then (if w then s else s.emit .abort)
    else if w then { s with mem := s.mem.storeP a ((data ++ leBytes n 0).take n) poison }
    else (s.countPoison (if s.mem.poisoned a then 1 else 0)).emit (.window (s.mem.rds a n) (s.mem.poisoned a)) := by
  rw [State.winAccess, if_neg (by simp [hline]; omega), hregion]

theorem State.winAccess_unready (hready : s.dieReady d = false) : s.winAccess w a data n poison = if w then s else s.emit .abort :=
  (State.winAccess_hbm hpos hmax hline hregion).trans (if_pos (by simp [hready]))

variable (hready : s.dieReady d = true)

include hready

theorem State.winAccess_write : s.winAccess true a data n poison = { s with mem := s.mem.storeP a ((data ++ leBytes n 0).take n) poison } :=
  (State.winAccess_hbm hpos hmax hline hregion).trans (if_neg (by simp [hready]))

theorem State.winAccess_read : s.winAccess false a data n poison =
    (s.countPoison (if s.mem.poisoned a then 1 else 0)).emit (.window (s.mem.rds a n) (s.mem.poisoned a)) :=
  (State.winAccess_hbm hpos hmax hline hregion).trans (if_neg (by simp [hready]))

end WinAccess

theorem State.countPoison_mem_outs (s : State) (n : Nat) : (s.countPoison n).mem = s.mem ∧ (s.countPoison n).outs = s.outs := by
  unfold State.countPoison
  split <;> exact ⟨rfl, rfl⟩

/-! ### Host reads -/

section HostRead

variable {s : State} {tag : Nat} {h : HostRead} {data : List Byte} (hlink : s.hif.linkUp = true) (hread : tget none s.hif.reads tag = some h)

include hread

section Completion

include hlink

/-- R619: data of a completion that come in full become known host memory. -/
theorem exists_runs_hostReadCompletion : ∃ t, Runs (.hostReadCompletion tag .ok data) s t ∧ t.hif.reads = (s.setRead tag none).hif.reads ∧
    (h.len ≤ data.length → ∀ i, i < h.len → t.hostRd (h.addr + i) = data.getD i 0) ∧
    ∀ a, (a < h.addr ∨ h.addr + h.len ≤ a) → t.hostRd a = s.hostRd a := by
  have hlen : ((data ++ leBytes h.len 0).take h.len).length = h.len := by simp [length_leBytes]
  refine ⟨({ s.setRead tag none with host := hostPut ((data ++ leBytes h.len 0).take h.len) h.addr h.len s.host }).bump (bHIF + 0x1000) h.len,
    ?_, rfl, fun hdata i hi => ?_, fun a => State.hostRd_of_hostPut_out rfl⟩
  · refine (if_neg (by simp [hlink])).trans ?_
    rw [hread]
    dsimp only
    rw [hlen]
    rfl
  · rw [State.hostRd_of_hostPut_in rfl hi]
    have hi' : i < data.length := by omega
    simp [List.getD_eq_getElem?_getD, List.getElem?_append_left hi', hi]

theorem runs_hostReadCompletion_refused : Runs (.hostReadCompletion tag .refused data) s ((s.setRead tag none).readFail h stADDR_RANGE) := by
  refine (if_neg (by simp [hlink])).trans ?_
  rw [hread]

theorem runs_hostReadCompletion_poisoned :
    Runs (.hostReadCompletion tag .poisoned data) s (((s.setRead tag none).err (bHIF + 0x1020)).readFail h stPOISON) := by
  refine (if_neg (by simp [hlink])).trans ?_
  rw [hread]

end Completion

theorem exists_runs_completionTimeout : ∃ u : State, u.hif.quarantine = s.hif.quarantine ++ [tag] ∧ u.hif.reads = (s.setRead tag none).hif.reads ∧
    Runs (.completionTimeout tag) s ((u.err (bHIF + 0x1010)).readFail h stTIMEOUT) := by
  refine ⟨{ s.setRead tag none with hif := { (s.setRead tag none).hif with quarantine := s.hif.quarantine ++ [tag] } }, rfl, rfl, ?_⟩
  show execCompletionTimeout tag s = _
  rw [execCompletionTimeout, hread]
  rfl

end HostRead

theorem exists_runs_hostReadCompletion_unasked {s : State} {tag : Nat} (st : CplStatus) (data : List Byte) (hlink : s.hif.linkUp = true)
    (hread : tget none s.hif.reads tag = none) :
    ∃ u : State, u.host = s.host ∧ Runs (.hostReadCompletion tag st data) s (u.bump (bHIF + 0x1018) 1) := by
  refine ⟨{ s with hif := { s.hif with quarantine := s.hif.quarantine.filter (fun t => decide (t ≠ tag)) } }, rfl, ?_⟩
  refine (if_neg (by simp [hlink])).trans ?_
  rw [hread]

theorem runs_completionTimeout_none {s : State} {tag : Nat} (hread : tget none s.hif.reads tag = none) : Runs (.completionTimeout tag) s s := by
  show execCompletionTimeout tag s = _
  rw [execCompletionTimeout, hread]

/-- Settles O56. -/
theorem hostLink : Obligations.HostLink := by
  refine ⟨fun s hlink => ⟨fun c => exists_runs_linkReset hlink, exists_runs_functionLevelReset hlink, fun c => exists_runs_reset hlink,
      runs_d3hotEntry hlink, runs_msixVectorUnmask_function hlink, runs_configRequest_retry hlink,
      fun hready r v => ⟨runs_configRequest_read hlink hready r v, runs_configRequest_write hlink hready r v⟩⟩,
    fun s v hbar => if_pos hbar, fun s w off n data poison a hdom hlink ha => ?_,
    fun s tag h data hlink hread => ⟨exists_runs_hostReadCompletion hlink hread, runs_hostReadCompletion_refused hlink hread,
      runs_hostReadCompletion_poisoned hlink hread⟩,
    fun s tag st data => exists_runs_hostReadCompletion_unasked st data,
    fun s tag => ⟨fun h => exists_runs_completionTimeout, runs_completionTimeout_none, _, rfl, fun x => by simp⟩⟩
  refine ⟨runs_bar2Access_unsupported hdom hlink, fun hd3 hmse hbar hoff hpos hmax hline d hregion => ?_,
    fun h => runs_cxlMemRequest hdom hlink ha⟩
  have hruns (w : Bool) := runs_bar2Access (w := w) (n := n) (data := data) (poison := poison) hdom hlink ha hd3 hmse hbar hoff
  refine ⟨fun hready => ⟨?_, ?_⟩, fun hready => ?_, fun hready =>
    ⟨s.countPoison (if s.mem.poisoned a then 1 else 0), ?_, State.countPoison_mem_outs s _⟩⟩
  · exact Eq.trans (hruns true) (congrArg Host.Outcome.next ((State.winAccess_unready hpos hmax hline hregion hready).trans (if_pos rfl)))
  · exact Eq.trans (hruns false) (congrArg Host.Outcome.next ((State.winAccess_unready hpos hmax hline hregion hready).trans (if_neg Bool.false_ne_true)))
  · simpa only [State.winAccess_write hpos hmax hline hregion hready] using hruns true
  · exact State.winAccess_read hpos hmax hline hregion hready ▸ hruns false

/-! ### Snoops of the coherent cache -/

/-- An entry just written is there, be the table sorted or not. -/
theorem tget_tset_some {α : Type} [DecidableEq α] (t : Tbl (Option α)) (i : Nat) (x : α) : tget none (tset none t i (some x)) i = some x := by
  rw [tset, if_neg (by simp)]
  exact tget_tins_same _ _ _

section Snoop

variable {s : State} {l : Nat} (hcache : s.hif.cxlCache = true) (hlink : s.hif.linkUp = true) (hdom : s.domOn 1 = true)

include hcache hlink hdom

/-- R626: a snoop looks at the eviction buffer, then at the pending lines, then at the cache. -/
theorem State.snoop_eq (kind : Nat) : s.snoop kind l =
    let u := s.bump (bHIF + 0x1038) 1
    match s.hif.evict.find? (fun e => e.line = l && !e.forwarded) with
    | some e => (({ u with hif := { u.hif with
        evict := u.hif.evict.map (fun (x : CcEvict) => if x.line = l then { x with forwarded := true } else x) } }).bump (bHIF + 0x1040) 1).emit
          (.cxl "RspIFwdM" l e.data)
    | none => match tget none s.hif.ccPend l with
      | some p => ({ u with hif := { u.hif with ccPend := tset none u.hif.ccPend l (some { p with snooped := true }) } }).emit (.cxl "RspIHitI" l [])
      | none => match s.ccLine l with
        | none => u.emit (.cxl "RspIHitI" l [])
        | some x => match kind with
          | 0 => (u.setCc l (some { x with st := .shared })).emit (if x.st = .modified then .cxl "RspSFwdM" l x.data else .cxl "RspSHitSE" l [])
          | 1 => (u.setCc l none).emit (if x.st = .modified then .cxl "RspIFwdM" l x.data else .cxl "RspIHitSE" l [])
          | _ => u.emit (if x.st = .modified then .cxl "RspVFwdV" l x.data else .cxl "RspVHitV" l []) := by
  unfold State.snoop
  rw [if_neg (by simp [hcache, hlink, hdom])]
  rfl

section NotEvicted

variable (hevict : s.hif.evict.find? (fun e => e.line = l && !e.forwarded) = none)

include hevict

section Modified

variable {x : CcLine} (hpend : tget none s.hif.ccPend l = none) (hline : s.ccLine l = some x) (hmod : x.st = .modified)

include hpend hline hmod

theorem exists_runs_snpdata : ∃ t, Runs (.snpdata l) s t ∧ t.ccLine l = some { x with st := .shared } ∧
    t.outs = (.cxl "RspSFwdM" l x.data) :: s.outs := by
  refine ⟨((s.bump (bHIF + 0x1038) 1).setCc l (some { x with st := .shared })).emit (.cxl "RspSFwdM" l x.data), ?_, ?_, rfl⟩
  · show Host.Outcome.next (s.snoop 0 l) = _
    rw [State.snoop_eq hcache hlink hdom]
    simp only [hevict, hpend, hline, hmod, if_true]
  · exact tget_tset_some s.hif.cc l _

theorem exists_runs_snpinv : ∃ t, Runs (.snpinv l) s t ∧ t.hif.cc = (s.setCc l none).hif.cc ∧
    t.outs = (.cxl "RspIFwdM" l x.data) :: s.outs := by
  refine ⟨((s.bump (bHIF + 0x1038) 1).setCc l none).emit (.cxl "RspIFwdM" l x.data), ?_, by simp [State.setCc], rfl⟩
  show Host.Outcome.next (s.snoop 1 l) = _
  rw [State.snoop_eq hcache hlink hdom]
  simp only [hevict, hpend, hline, hmod, if_true]

theorem exists_runs_snpcur : ∃ t, Runs (.snpcur l) s t ∧ t.ccLine l = some x ∧ t.outs = (.cxl "RspVFwdV" l x.data) :: s.outs := by
  refine ⟨(s.bump (bHIF + 0x1038) 1).emit (.cxl "RspVFwdV" l x.data), ?_, by simpa [State.ccLine] using hline, rfl⟩
  show Host.Outcome.next (s.snoop 2 l) = _
  rw [State.snoop_eq hcache hlink hdom]
  simp only [hevict, hpend, hline, hmod, if_true]

end Modified

theorem State.snoop_pending {p : CcPend} (hpend : tget none s.hif.ccPend l = some p) (kind : Nat) :
    (s.snoop kind l).outs = (.cxl "RspIHitI" l []) :: s.outs ∧ tget none (s.snoop kind l).hif.ccPend l = some { p with snooped := true } := by
  rw [State.snoop_eq hcache hlink hdom]
  simp only [hevict, hpend]
  exact ⟨rfl, tget_tset_some s.hif.ccPend l _⟩

end NotEvicted

theorem State.snoop_evicted {e : CcEvict} (hevict : s.hif.evict.find? (fun e => e.line = l && !e.forwarded) = some e) (kind : Nat) :
    (s.snoop kind l).outs = (.cxl "RspIFwdM" l e.data) :: s.outs ∧ ∀ y ∈ (s.snoop kind l).hif.evict, y.line = l → y.forwarded = true := by
  rw [State.snoop_eq hcache hlink hdom]
  simp only [hevict]
  refine ⟨rfl, fun y hy hyl => ?_⟩
  obtain ⟨x, -, rfl⟩ := List.mem_map.1 (show y ∈ s.hif.evict.map (fun (x : CcEvict) => if x.line = l then { x with forwarded := true } else x) from hy)
  by_cases h : x.line = l
  · rw [if_pos h]
  · rw [if_neg h] at hyl
    exact absurd hyl h

end Snoop

/-- What holds of the state after a snoop of each kind holds after each of the three commands. -/
theorem exists_runs_snoop {s : State} {l : Nat} {P : State → Prop} (h : ∀ kind, P (s.snoop kind l)) {c : Instr}
    (hc : c = .snpdata l ∨ c = .snpinv l ∨ c = .snpcur l) : ∃ t, Runs c s t ∧ P t := by
  obtain rfl | rfl | rfl := hc
  · exact ⟨_, rfl, h 0⟩
  · exact ⟨_, rfl, h 1⟩
  · exact ⟨_, rfl, h 2⟩

/-! ### Answers of the host -/

theorem runs_cxlGo_unasked {s : State} {l : Nat} {ex : Bool} {data : List Byte} (hpend : tget none s.hif.ccPend l = none) :
    Runs (.cxlGo l ex data) s s := by
  show execCxlGo l ex data s = _
  rw [execCxlGo, hpend]

section CxlGo

variable {s : State} {l : Nat} {ex : Bool} {data : List Byte} {p : CcPend} (hpend : tget none s.hif.ccPend l = some p) (hmerge : p.merge = [])
  (hlen : data.length = 64)

/-- The state once the line `l` has come with `data` and waits no longer. -/
def State.lineCame (s : State) (l : Nat) (data : List Byte) : State :=
  { s with
    host := hostPut data (64 * l) 64 s.host
    hif := { s.hif with ccPend := tset none s.hif.ccPend l none } }

theorem State.lineCame_host (s : State) (l : Nat) (data : List Byte) : (s.lineCame l data).host = hostPut data (64 * l) 64 s.host := by
  simp only [State.lineCame]

include hpend hmerge hlen

theorem State.cxlGo_eq : exec (.cxlGo l ex data) s =
    if p.snooped then .next (s.lineCame l data)
    else match s.ccInstall l { st := if p.own || ex then .exclusive else .shared, data := data } with
      | none => .next s
      | some u => .next (u.lineCame l data) := by
  have hdata : (data ++ leBytes 64 0).take 64 = data := by rw [← hlen, List.take_left]
  show execCxlGo l ex data s = _
  rw [execCxlGo, hpend]
  simp only [hmerge, List.foldl_nil, hdata, List.isEmpty_nil, Bool.not_true]
  rfl

theorem exists_runs_cxlGo_snooped (hsnoop : p.snooped = true) : ∃ t, Runs (.cxlGo l ex data) s t ∧ t.hif.cc = s.hif.cc ∧
    t.hif.ccPend = tset none s.hif.ccPend l none ∧ ∀ i, i < 64 → t.hostRd (64 * l + i) = data.getD i 0 :=
  ⟨s.lineCame l data, (State.cxlGo_eq hpend hmerge hlen).trans (if_pos hsnoop), rfl, rfl,
    fun _ hi => State.hostRd_of_hostPut_in (State.lineCame_host s l data) hi⟩

variable (hsnoop : p.snooped = false)

include hsnoop

theorem exists_runs_cxlGo_installed {u : State}
    (hu : s.ccInstall l { st := if p.own || ex then .exclusive else .shared, data := data } = some u) :
    ∃ t, Runs (.cxlGo l ex data) s t ∧ t.hif.cc = u.hif.cc ∧ t.hif.ccPend = tset none u.hif.ccPend l none := by
  refine ⟨u.lineCame l data, (State.cxlGo_eq hpend hmerge hlen).trans ((if_neg (by simp [hsnoop])).trans ?_), rfl, rfl⟩
  rw [hu]

theorem runs_cxlGo_waits (hu : s.ccInstall l { st := if p.own || ex then .exclusive else .shared, data := data } = none) :
    Runs (.cxlGo l ex data) s s := by
  refine (State.cxlGo_eq hpend hmerge hlen).trans ((if_neg (by simp [hsnoop])).trans ?_)
  rw [hu]

end CxlGo

theorem State.line_ne_of_mem_evictFree {s : State} {l : Nat} {y : CcEvict} (h : y ∈ (s.evictFree l).hif.evict) : y.line ≠ l := by
  simpa using (List.mem_filter.1 h).2

theorem exists_runs_goWritepull {s : State} {l : Nat} {e : CcEvict} (h : s.hif.evict.find? (fun e => e.line = l) = some e) :
    ∃ t, Runs (.goWritepull l) s t ∧ (∀ y ∈ t.hif.evict, y.line ≠ l) ∧
      t.outs = (if e.forwarded then .cxl "Bogus" l [] else .cxl "WritePullData" l e.data) :: s.outs := by
  refine ⟨(s.evictFree l).emit (if e.forwarded then .cxl "Bogus" l [] else .cxl "WritePullData" l e.data), ?_,
    fun _ => State.line_ne_of_mem_evictFree, rfl⟩
  show execGoWritepull l s = _
  rw [execGoWritepull, h]

/-! ### The flush -/

/-- What the cache tells the host of a line that it gives up (R628). -/
def State.evictOut (s : State) (e : Nat × Option CcLine) : State :=
  match e.2 with
  | some x => if x.st = .modified then s.emit (.cxl "DirtyEvict" e.1 x.data) else s.emit (.cxl "CleanEvictNoData" e.1 [])
  | none => s

theorem State.evictOut_host (s : State) (e : Nat × Option CcLine) : (s.evictOut e).host = s.host := by
  unfold State.evictOut
  split
  · split <;> rfl
  · rfl

theorem State.mem_outs_evictOut {s : State} (e : Nat × Option CcLine) {o : Out} (h : o ∈ s.outs) : o ∈ (s.evictOut e).outs := by
  unfold State.evictOut
  split
  · split <;> exact List.mem_cons_of_mem _ h
  · exact h

theorem State.mem_outs_foldl_evictOut {s : State} (l : List (Nat × Option CcLine)) {o : Out} (h : o ∈ s.outs) :
    o ∈ (l.foldl State.evictOut s).outs := by
  induction l generalizing s with
  | nil => exact h
  | cons e l ih => exact ih (State.mem_outs_evictOut e h)

/-- R628: a flush writes back every Modified line. -/
theorem State.dirtyEvict_mem_outs_foldl_evictOut {s : State} {l : List (Nat × Option CcLine)} {n : Nat} {x : CcLine} (h : (n, some x) ∈ l)
    (hmod : x.st = .modified) : Out.cxl "DirtyEvict" n x.data ∈ (l.foldl State.evictOut s).outs := by
  induction l generalizing s with
  | nil => cases h
  | cons e l ih =>
    obtain rfl | h := List.mem_cons.1 h
    · refine State.mem_outs_foldl_evictOut l ?_
      simp [State.evictOut, hmod, State.emit]
    · exact ih h

theorem runs_ccFlushDone_idle {s : State} (h : s.hif.flushing = false) : Runs .ccFlushDone s s := if_pos (by simp [h])

theorem exists_runs_ccFlushDone {s : State} (h : s.hif.flushing = true) : ∃ t, Runs .ccFlushDone s t ∧ t.hif.cc = [] ∧ t.hif.flushing = false ∧
    t.host = s.host ∧ ∀ l x, (l, some x) ∈ s.hif.cc → x.st = .modified → Out.cxl "DirtyEvict" l x.data ∈ t.outs :=
  ⟨{ s.hif.cc.foldl State.evictOut s with hif := { (s.hif.cc.foldl State.evictOut s).hif with cc := [], flushing := false } },
    if_neg (by simp [h]), rfl, rfl, foldl_view (φ := State.host) State.evictOut_host _ s,
    fun _ _ => State.dirtyEvict_mem_outs_foldl_evictOut⟩

/-! ### DOE and SPDM -/

section Doe

variable {s : State} {data : List Byte} (hlink : s.hif.linkUp = true) (hready : s.configRetry = false)

include hlink hready

theorem runs_doeObject_spdm (hlen : data.length ≤ 4096) : Runs (.doeObject .spdm data) s { s with hif := { s.hif with doe := some data } } :=
  (if_neg (by simp [hlink, hready])).trans (if_pos hlen)

theorem runs_doeObject_other : Runs (.doeObject .other data) s (s.emit (.doe [])) := if_neg (by simp [hlink, hready])

theorem runs_doeObject_discovery : Runs (.doeObject .discovery data) s (s.emit (.doe (doeDiscovery data))) := if_neg (by simp [hlink, hready])

end Doe

theorem exists_runs_spdmRequest_doe {s : State} {req : List Byte} (h : s.hif.doe = some req) :
    ∃ t, Runs (.spdmRequest true) s t ∧ t.hif.doe = none ∧ t.outs = (.doe (s.spdm req)) :: s.outs ∧ t.vlt.spdm = s.spdmNext req := by
  refine ⟨({ s with hif := { s.hif with doe := none }, vlt := { s.vlt with spdm := s.spdmNext req } }).emit (.doe (s.spdm req)), ?_, rfl, rfl, rfl⟩
  show execSpdmRequest true s = _
  rw [execSpdmRequest, if_pos rfl, h]

theorem runs_spdmRequest_message {s : State} {m : RxMsg} (hm : s.has 8 2 m) {req a : List Byte}
    (hreq : req = (m.body.drop 16).take (m.fld 0 4)) (ha : a = s.spdm req) :
    Runs (.spdmRequest false) s ({ s.popMsg m with vlt := { (s.popMsg m).vlt with spdm := (s.popMsg m).spdmNext req } }.gateMsg
      (uPort m.port) (ctrlMsg m.srcEp m.src 2 (leBytes 4 a.length ++ leBytes 4 0 ++ a))) := by
  subst ha hreq
  show execSpdmRequest false s = _
  rw [execSpdmRequest, if_neg Bool.false_ne_true, hm]

/-- Settles O57. -/
theorem hostCacheAndDoe : Obligations.HostCacheAndDoe :=
  ⟨fun _ _ hcache hlink hdom =>
      ⟨fun _ hevict hpend hline hmod => ⟨exists_runs_snpdata hcache hlink hdom hevict hpend hline hmod,
          exists_runs_snpinv hcache hlink hdom hevict hpend hline hmod, exists_runs_snpcur hcache hlink hdom hevict hpend hline hmod⟩,
        fun _ hevict _ => exists_runs_snoop (State.snoop_evicted hcache hlink hdom hevict),
        fun _ hevict hpend _ => exists_runs_snoop (State.snoop_pending hcache hlink hdom hevict hpend)⟩,
    fun _ _ _ _ => ⟨runs_cxlGo_unasked, fun _ hpend hmerge hlen => ⟨exists_runs_cxlGo_snooped hpend hmerge hlen,
      fun hsnoop _ => exists_runs_cxlGo_installed hpend hmerge hlen hsnoop, runs_cxlGo_waits hpend hmerge hlen⟩⟩,
    fun s l => ⟨fun _ => exists_runs_goWritepull, s.evictFree l, rfl, fun _ => State.line_ne_of_mem_evictFree, rfl⟩,
    fun _ _ => ⟨fun h => if_pos h, fun h => if_neg (by simp [h])⟩,
    fun _ => ⟨runs_ccFlushDone_idle, exists_runs_ccFlushDone⟩,
    fun _ _ hlink hready => ⟨runs_doeObject_spdm hlink hready, runs_doeObject_other hlink hready, runs_doeObject_discovery hlink hready⟩,
    fun _ => rfl, fun _ _ => exists_runs_spdmRequest_doe,
    fun _ _ hm _ _ => runs_spdmRequest_message hm⟩

end Sys2Proof.Machine
end

section
/-! O58: faults, the release gate and recovery (chapter 27). -/

namespace Sys2Proof.Machine

/-! ### Health faults and watchdogs -/

section HealthFault

variable {s : State} {u : Nat} {pair : Fin 4} {g r : Bool}

theorem runs_healthFaultConfirm_good (hpair : pair = 1) : Runs (.healthFaultConfirm u pair g r) s s := if_pos (by simp [hpair])

theorem runs_healthFaultConfirm_unfit (h : s.domOn (unitDom u) = false ∨ (s.funit u).state ≠ .healthy) :
    Runs (.healthFaultConfirm u pair g r) s s :=
  if_pos (by obtain h | h := h <;> simp [h])

variable (hrun : s.mainRunning = true) (hunit : unitAssigned u = true) (hdom : s.domOn (unitDom u) = true)
  (hhealthy : (s.funit u).state = .healthy) (hinj : (s.funit u).inj = false) (hpair : pair ≠ 1) {code : Nat} {t : State}
  (hcode : code = if pair = 2 then 1 else 2) (ht : t = s.setUnit u { s.funit u with pair := pair.val })

include hrun hunit hdom hhealthy hinj hpair hcode ht

/-- R640, R641: a confirmed fault goes the way of its unit's class. -/
theorem State.healthFaultConfirm_eq {cls : Nat} : unitClass u = some cls → exec (.healthFaultConfirm u pair g r) s =
    match cls with
    | 0 => .next ({ t with flt := { t.flt with telUntrusted := true } }.faultC0 code u)
    | 1 => .next (t.faultUnit code u 0 { void := pair.val ≠ 2 && g && r })
    | 2 => .next (t.faultC2 code u 0 { void := pair.val ≠ 2 && g && r })
    | _ => .next (t.faultC3 code u) := by
  intro hcls
  have hval : (if pair.val = 2 then 1 else 2) = code := by
    rw [hcode]
    exact ite_congr (propext (Fin.ext_iff (b := 2)).symm) (fun _ => rfl) (fun _ => rfl)
  subst ht
  refine (if_neg (by simp [hrun, hunit, hdom, hhealthy, hpair])).trans ?_
  simp only [hcls, hinj, Bool.false_eq_true, if_false, hval] <;> rfl

end HealthFault

theorem runs_watchdogExpiry {s : State} {n : Nat} (hrun : s.running = true) (hn : n < 54) (hok : s.instOk n = true) (hwork : s.tasksOn n ≠ []) :
    Runs (.watchdogExpiry n) s (s.faultUnit 0x1C n) :=
  if_pos (by simp [hrun, hn, hok, hwork])

theorem runs_watchdogExpiry_idle {s : State} {n : Nat} (hidle : s.tasksOn n = []) : Runs (.watchdogExpiry n) s s :=
  if_neg (by simp [hidle])

/-! ### The release gate -/

theorem runs_releaseGatePass_report {s : State} {u : Nat} {x : Report} {es : List (Nat × Eff)} (h : s.flt.gate = (u, .report x) :: es) :
    Runs .releaseGatePass s ({ s with flt := { s.flt with gate := es } }.applyReport x) := by
  show execReleaseGatePass s = _
  rw [execReleaseGatePass, h]

theorem runs_releaseGatePass_msg {s : State} {u : Nat} {m : Msg} {es : List (Nat × Eff)} (h : s.flt.gate = (u, .msg m) :: es) :
    Runs .releaseGatePass s ({ s with flt := { s.flt with gate := es } }.sendMsg u m) := by
  show execReleaseGatePass s = _
  rw [execReleaseGatePass, h]

theorem runs_releaseGatePass_empty {s : State} (h : s.flt.gate = []) : Runs .releaseGatePass s s := by
  show execReleaseGatePass s = _
  rw [execReleaseGatePass, h]

/-! ### Recovery and injection -/

section Recovery

variable {s : State} {u : Nat}

theorem runs_recoverySelfTestDone_unasked (h : (s.funit u).state = .healthy ∨ (s.funit u).state = .permanent) (b : Bool) :
    Runs (.recoverySelfTestDone u b) s s :=
  if_pos (by obtain h | h := h <;> simp [h])

theorem runs_fltUnfence_other {p : Path} (h : (s.funit u).state ≠ .permanent) : Runs (.fltUnfence p u) s s := if_neg (by simp [h])

variable (hunit : unitAssigned u = true)

include hunit

theorem runs_fltUnfence {p : Path} (hgate : s.wgate p (bFLT + 0x68) = true) (h : (s.funit u).state = .permanent) :
    Runs (.fltUnfence p u) s ((s.setUnit u { s.funit u with state := .recovering }).refreshFlt) :=
  if_pos (by simp [hgate, hunit, h])

theorem runs_fltInject {p : Path} {wire : Bool} (hgate : s.wgate p (bFLT + 0x70) = true) (hdom : s.domOn (unitDom u) = true)
    (hhealthy : (s.funit u).state = .healthy) :
    Runs (.fltInject p u wire) s (s.setUnit u { s.funit u with inj := true, pair := if wire then 0 else 2 }) :=
  if_pos (by simp [hgate, hunit, hdom, hhealthy])

section SelfTest

variable (hst : (s.funit u).state = .fenced ∨ (s.funit u).state = .recovering) (hscope : u ∉ s.tel.units) (hport : u < 0x80 ∨ 0x8F < u)

include hst hscope hport

/-- R647: the self-test of a fenced unit that is neither a port nor in the scope of a self-test during work. -/
theorem State.recoverySelfTestDone_eq (pass : Bool) : exec (.recoverySelfTestDone u pass) s =
    if pass then .next (s.selfTestPass u) else .next ((s.setUnit u { s.funit u with state := .permanent }).refreshFlt) := by
  refine if_neg ?_
  obtain h | h := hst <;> simp [hunit, hscope, h] <;> omega

theorem runs_recoverySelfTestDone_pass : Runs (.recoverySelfTestDone u true) s (s.selfTestPass u) :=
  (State.recoverySelfTestDone_eq hunit hst hscope hport true).trans (if_pos rfl)

theorem runs_recoverySelfTestDone_fail :
    Runs (.recoverySelfTestDone u false) s ((s.setUnit u { s.funit u with state := .permanent }).refreshFlt) :=
  (State.recoverySelfTestDone_eq hunit hst hscope hport false).trans (if_neg Bool.false_ne_true)

end SelfTest

end Recovery

theorem blindToReports_ldg : BlindToReports State.ldg :=
  ⟨fun _ _ => rfl, fun _ _ => rfl, fun _ _ => rfl, fun _ _ => rfl, fun _ _ => rfl⟩

theorem State.refreshFlt_ldg (s : State) : s.refreshFlt.ldg = s.ldg := by
  unfold State.refreshFlt
  split <;> rfl

theorem runs_c2RecoveryDone_other {s : State} (h : s.flt.state ≠ .c2Recovery) : Runs .c2RecoveryDone s s := if_pos h

/-- R647: with a broken journal the domain starts anew and no pipeline is resumed. -/
theorem exists_runs_c2RecoveryDone_broken {s : State} (h : s.flt.state = .c2Recovery) (hbroken : s.journalIntact = false) :
    ∃ u : State, u.ldg = { s.ldg with stopped := s.pwr.sleepEntry } ∧ Runs .c2RecoveryDone s ((u.err (bFLT + 0x1048)).startRole) := by
  have hruns : exec .c2RecoveryDone s = execC2RecoveryDone s := rfl
  unfold execC2RecoveryDone at hruns
  rw [if_neg (by simp [h])] at hruns
  simp only [hbroken, Bool.not_false, Bool.false_eq_true, if_false] at hruns
  exact ⟨_, (blindToReports_ldg.logPut _ _).trans (State.refreshFlt_ldg _), hruns⟩

/-- Settles O58. -/
theorem faultRows : Obligations.FaultRows := by
  refine ⟨fun s u pair g r hrun hunit hdom hhealthy hinj => ⟨runs_healthFaultConfirm_good, fun hpair code t hcode ht => ?_⟩,
    fun _ _ _ _ _ => runs_healthFaultConfirm_unfit, fun _ _ => runs_watchdogExpiry, fun _ _ => runs_watchdogExpiry_idle,
    fun _ _ _ _ h _ hw => hw ▸ ⟨fun _ he => runs_releaseGatePass_report (he ▸ h), fun _ he => runs_releaseGatePass_msg (he ▸ h)⟩,
    fun _ => runs_releaseGatePass_empty,
    fun _ _ hunit => ⟨fun hst hscope hport => ⟨runs_recoverySelfTestDone_pass hunit hst hscope hport,
        runs_recoverySelfTestDone_fail hunit hst hscope hport⟩, runs_recoverySelfTestDone_unasked,
      fun _ => runs_fltUnfence hunit, fun _ => runs_fltUnfence_other, fun _ _ => runs_fltInject hunit⟩,
    fun _ _ _ _ hunit => ⟨if_neg (by simp [hunit]), if_neg (by simp [hunit])⟩,
    fun _ _ => ⟨fun h => if_pos h, fun h => if_neg (by simp [h])⟩,
    fun _ => ⟨runs_c2RecoveryDone_other, exists_runs_c2RecoveryDone_broken⟩⟩
  have heq {cls : Nat} := State.healthFaultConfirm_eq (g := g) (r := r) (cls := cls) hrun hunit hdom hhealthy hinj hpair hcode ht
  exact ⟨fun h => heq h, fun h => heq h, fun h => heq h, fun h => heq h⟩

end Sys2Proof.Machine
end

section
/-! O59: self-tests during work and the trace (chapter 28). -/

namespace Sys2Proof.Machine

/-! ### Requests for a self-test -/

/-- The state in which a request for a self-test begins: busy, with no result yet. -/
def State.bistBegun (s : State) : State :=
  { s with tel := { s.tel with bistBusy := true, bistStatus := 0, bistPassed := false, bistStep := 0, bistRecal := 0 } }

theorem State.bistEnd_tel (s : State) (status : Nat) (passed : Bool) (step recal : Nat) : (s.bistEnd status passed step recal).tel =
    { s.tel with
      bistBusy := false, bistPhase := .idle, bistStatus := status, bistPassed := passed, bistStep := step, bistRecal := recal
      scope := [], bistIsl := 0, bistLane := none, inelig := [] } := rfl

/-- R670: what the request for a recalibration of lane `n` notes. -/
def State.recalAsked (s : State) (n : Nat) : State :=
  { s with tel := { s.tel with bistLane := some n, recalOut := if (s.lane n).los then 2 else 0 } }

/-- R670: the start of a recalibration; a lane without signal has none. -/
def State.recalBegin (s : State) (n : Nat) : State :=
  if (s.lane n).los then s.recalAsked n else (s.recalAsked n).setLane n { s.lane n with recal := true }

theorem State.recalBegin_tel (s : State) (n : Nat) : (s.recalBegin n).tel = (s.recalAsked n).tel :=
  ite_view (φ := State.tel) (s := s.recalAsked n) _ rfl rfl

theorem State.lane_recalBegin {s : State} {n : Nat} (h : (s.lane n).los = false) : ((s.recalBegin n).lane n).recal = true := by
  have hne : ({ s.lane n with recal := true } : Lane) ≠ {} := fun heq => by simpa using congrArg Lane.recal heq
  have hlane : (s.recalBegin n).lane n = { s.lane n with recal := true } := by
    rw [State.recalBegin, if_neg (by simp [h])]
    show tget {} (tset {} s.clk.lane n _) n = _
    rw [tset, if_neg hne]
    exact tget_tins_same _ _ _
  rw [hlane]

section Request

variable {s : State} {p : Path} (hgate : s.wgate p rBist = true) {valid : Bool} {units doms : List Nat} {f : State → State}

include hgate

theorem State.bistReq_of_busy (hbusy : s.tel.bistBusy = true) : s.bistReq p valid units doms f = s.setBits (bTEL + 0x210) (2 ^ 60) := by
  rw [State.bistReq, if_neg (by simp [hgate]), if_pos hbusy]

section Idle

variable (hidle : s.tel.bistBusy = false)

include hidle

theorem State.bistReq_of_invalid (h : valid = false) : s.bistReq p valid units doms f = s.bistEnd stINVALID := by
  rw [State.bistReq, if_neg (by simp [hgate]), if_neg (by simp [hidle]), if_pos (by simp [h])]

variable (hvalid : valid = true)

include hvalid

theorem State.bistReq_of_fenced (h : units.any s.fencedU = true) : s.bistReq p valid units doms f = s.bistEnd stFENCED := by
  rw [State.bistReq, if_neg (by simp [hgate]), if_neg (by simp [hidle]), if_neg (by simp [hvalid]), if_pos (by rw [h, Bool.true_or])]

theorem State.bistReq_of_fit (hunits : ∀ u ∈ units, s.fencedU u = false) (hdoms : ∀ d ∈ doms, s.domOn d = true) :
    s.bistReq p valid units doms f = f s.bistBegun := by
  have hfit : ¬(units.any s.fencedU || doms.any (fun d => !s.domOn d)) = true := by
    simp only [Bool.or_eq_true, List.any_eq_true, Bool.not_eq_true', not_or, not_exists, not_and, Bool.not_eq_true, Bool.not_eq_false]
    exact ⟨hunits, hdoms⟩
  rw [State.bistReq, if_neg (by simp [hgate]), if_neg (by simp [hidle]), if_neg (by simp [hvalid]), if_neg hfit]
  rfl

end Idle

theorem runs_bist_busy (hbusy : s.tel.bistBusy = true) {n : Nat} {c : Instr}
    (hc : c = .instanceTest p n ∨ c = .islandTest p n ∨ c = .serdesRecal p n) : Runs c s (s.setBits (bTEL + 0x210) (2 ^ 60)) := by
  obtain rfl | rfl | rfl := hc <;> exact congrArg Host.Outcome.next (State.bistReq_of_busy hgate hbusy)

variable (hidle : s.tel.bistBusy = false) {n : Nat}

include hidle

theorem exists_runs_instanceTest_invalid (hn : 0x35 < n) :
    ∃ t, Runs (.instanceTest p n) s t ∧ t.tel.bistBusy = false ∧ t.tel.bistStatus = stINVALID :=
  ⟨s.bistEnd stINVALID, congrArg Host.Outcome.next (State.bistReq_of_invalid hgate hidle (decide_eq_false (Nat.not_le.2 hn))), rfl, rfl⟩

theorem exists_runs_instanceTest_fenced (hn : n ≤ 0x35) (hfenced : s.fencedU n = true) :
    ∃ t, Runs (.instanceTest p n) s t ∧ t.tel.bistBusy = false ∧ t.tel.bistStatus = stFENCED :=
  ⟨s.bistEnd stFENCED, congrArg Host.Outcome.next (State.bistReq_of_fenced hgate hidle (decide_eq_true hn) (by simp [hfenced])), rfl, rfl⟩

/-- R669: the test of one unit drains it where it has a sibling, and waits otherwise. -/
theorem exists_runs_instanceTest (hn : n ≤ 0x35) (hhealthy : s.fencedU n = false) (hdom : s.domOn (bayDom n) = true) :
    ∃ t, Runs (.instanceTest p n) s t ∧ t.tel.bistBusy = true ∧ t.tel.scope = [n] ∧ (t.tel.bistPhase = .drain → t.tel.inelig = [n]) ∧
      (t.tel.bistPhase = .wait → t.tel.inelig = []) ∧ (t.tel.bistPhase = .drain ∨ t.tel.bistPhase = .wait) ∧ SameRegs s t ∧ SameMem s t := by
  refine ⟨s.bistBegun.bistStart [n] 0, congrArg Host.Outcome.next
    (State.bistReq_of_fit hgate hidle (decide_eq_true hn) (by simpa using hhealthy) (by simpa using hdom)), rfl, rfl, ?_, ?_, ?_,
    fun _ => rfl, fun _ => rfl⟩
  · exact fun h => if_pos (Decidable.byContradiction fun hno => by simp [State.bistStart, hno] at h)
  · exact fun h => if_neg fun hdrain => by simp [State.bistStart, hdrain] at h
  · by_cases h : [n].all (s.bistBegun.hasSibling [n]) = true
    · exact .inl (if_pos h)
    · exact .inr (if_neg h)

theorem exists_runs_islandTest (hlo : 0x4F ≤ n) (hhi : n ≤ 0x58) (hhealthy : s.fencedU n = false)
    (hall : ∀ i, i < 54 → uIsland (bayIsland i) = n → s.fencedU i = false ∧ s.domOn (bayDom i) = true) :
    ∃ t, Runs (.islandTest p n) s t ∧ t.tel.bistBusy = true ∧ ∀ i, i ∈ t.tel.scope ↔ i < 54 ∧ uIsland (bayIsland i) = n := by
  have hscope (i : Nat) : i ∈ (List.range 54).filter (fun i => uIsland (bayIsland i) = n) ↔ i < 54 ∧ uIsland (bayIsland i) = n := by simp
  refine ⟨s.bistBegun.bistStart ((List.range 54).filter (fun i => uIsland (bayIsland i) = n)) (n - 0x40), congrArg Host.Outcome.next
    (State.bistReq_of_fit hgate hidle (by simp [hlo, hhi]) (fun u hu => ?_) (fun d hd => ?_)), rfl, hscope⟩
  · obtain rfl | hu := List.mem_cons.1 hu
    · exact hhealthy
    · obtain ⟨hlt, hisl⟩ := (hscope u).1 hu
      exact (hall u hlt hisl).1
  · obtain ⟨i, hi, rfl⟩ := List.mem_map.1 hd
    obtain ⟨hlt, hisl⟩ := (hscope i).1 hi
    exact (hall i hlt hisl).2

theorem exists_runs_serdesRecal_invalid (hn : 24 ≤ n) :
    ∃ t, Runs (.serdesRecal p n) s t ∧ t.tel.bistBusy = false ∧ t.tel.bistStatus = stINVALID :=
  ⟨s.bistEnd stINVALID, congrArg Host.Outcome.next (State.bistReq_of_invalid hgate hidle (decide_eq_false (Nat.not_lt.2 hn))), rfl, rfl⟩

/-- R670: the recalibration of a lane without signal ends at once, and another starts. -/
theorem exists_runs_serdesRecal (hn : n < 24) (hdom : s.domOn (if n < 8 then 4 else if n < 16 then 5 else 2) = true) :
    ∃ t, Runs (.serdesRecal p n) s t ∧ t.tel.bistBusy = true ∧ t.tel.bistLane = some n ∧
      t.tel.recalOut = (if (s.lane n).los then 2 else 0) ∧ ((s.lane n).los = false → (t.lane n).recal = true) := by
  refine ⟨s.bistBegun.recalBegin n, congrArg Host.Outcome.next (State.bistReq_of_fit hgate hidle (decide_eq_true hn) (by simp)
    (by simpa using hdom)), ?_, ?_, ?_, State.lane_recalBegin (s := s.bistBegun)⟩
  · rw [State.recalBegin_tel]
    rfl
  · rw [State.recalBegin_tel]
    rfl
  · rw [State.recalBegin_tel]
    rfl

end Request

/-! ### The course of a self-test -/

theorem runs_bistDrained_busy {s : State} (h : ∃ n ∈ s.tel.scope, s.tasksOn n ≠ []) : Runs .bistDrained s s := by
  obtain ⟨n, hn, hwork⟩ := h
  refine if_neg fun hok => hwork ?_
  exact List.isEmpty_iff.1 (List.all_eq_true.1 (Bool.and_eq_true_iff.1 hok).2 n hn)

/-- The units `l` pass to the state `st`. -/
def State.unitsTo (s : State) (l : List Nat) (st : UnitState) : State := l.foldl (fun s u => s.setUnit u { s.funit u with state := st }) s

theorem State.unitsTo_tel (s : State) (l : List Nat) (st : UnitState) : (s.unitsTo l st).tel = s.tel :=
  foldl_view (φ := State.tel) (fun s u => show (s.setUnit u _).tel = s.tel from rfl) _ s

section Drain

variable {s : State} (hbusy : s.tel.bistBusy = true) (hphase : s.tel.bistPhase = .drain ∨ s.tel.bistPhase = .wait)

include hbusy hphase

theorem exists_runs_bistDrained (h : ∀ n ∈ s.tel.scope, s.tasksOn n = []) :
    ∃ t, Runs .bistDrained s t ∧ t.tel.bistPhase = .test ∧ t.tel.inelig = s.tel.scope := by
  refine ⟨_, if_pos ?_, rfl, congrArg Tel.scope (s.unitsTo_tel s.tel.units .recovering)⟩
  have hidle : s.tel.scope.all (fun n => (s.tasksOn n).isEmpty) = true := List.all_eq_true.2 fun n hn => by simp [h n hn]
  obtain hp | hp := hphase <;> simp only [hbusy, hp, hidle] <;> decide

theorem runs_bistDeferred : Runs .bistDeferred s (s.bistEnd stDEFERRED).retryWaiting :=
  if_pos (by obtain hp | hp := hphase <;> simp [hbusy, hp])

end Drain

section Test

variable {s : State} (hphase : s.tel.bistPhase = .test)

include hphase

theorem runs_bistDrained_test : Runs .bistDrained s s := if_neg (by simp [hphase])

theorem runs_bistDeferred_test : Runs .bistDeferred s s := if_neg (by simp [hphase])

variable (hbusy : s.tel.bistBusy = true) {u : State}
  (hu : u = s.tel.scope.foldl (fun s n => (s.dropBanks n).bayLose n)
    (s.tel.units.foldl (fun s u => s.setUnit u { s.funit u with state := .healthy }) s))

include hbusy hu

/-- R669: the end of a test restores the units of its scope, then reports those that failed. -/
theorem State.bistTestDone_eq {fails bad : List (Nat × Nat)} : bad = fails.filter (fun f => s.tel.units.contains f.1) →
    exec (.bistTestDone fails) s = .next (bad.foldl (fun (s : State) f => s.faultUnit 0x01 f.1 f.2) (match bad with
      | [] => u.bistEnd stOK true
      | f :: _ => u.bistEnd stOK false f.2)).retryWaiting := by
  intro hbad
  have hscope : (s.unitsTo s.tel.units .healthy).tel.scope = s.tel.scope := congrArg Tel.scope (s.unitsTo_tel s.tel.units .healthy)
  rw [← hscope] at hu
  subst hu hbad
  refine if_pos ?_
  simp [hbusy, hphase]

theorem runs_bistTestDone_passed : Runs (.bistTestDone []) s (u.bistEnd stOK true).retryWaiting :=
  State.bistTestDone_eq hphase hbusy hu (bad := []) rfl

theorem runs_bistTestDone_failed {f : Nat × Nat} (hf : f.1 ∈ s.tel.units) :
    Runs (.bistTestDone [f]) s (((u.bistEnd stOK false f.2).faultUnit 0x01 f.1 f.2).retryWaiting) := by
  have hdone := State.bistTestDone_eq hphase hbusy hu (fails := [f]) (bad := [f]) (by simp [hf])
  show exec (.bistTestDone [f]) s = _
  simpa only [List.foldl_cons, List.foldl_nil] using hdone

end Test

theorem runs_serdesRecalDone_none {s : State} (h : s.tel.bistLane = none) (eyeH eyeW : Nat) : Runs (.serdesRecalDone eyeH eyeW) s s := by
  show execSerdesRecalDone eyeH eyeW s = _
  rw [execSerdesRecalDone, h]

section RecalDone

variable {s : State} {l eyeH eyeW : Nat} {u : State} (hlane : s.tel.bistLane = some l) (hu : u = s.sliceSwap l eyeH eyeW)

include hlane hu

/-- R670: the request ends with the recalibration, unless a swap still waits for the retry machine. -/
theorem State.serdesRecalDone_eq : exec (.serdesRecalDone eyeH eyeW) s =
    if (u.lane l).swapDue && !u.frozen l then .next u
    else .next ((u.setLane l { u.lane l with recal := false }).bistEnd stOK false 0 u.tel.recalOut) := by
  subst hu
  show execSerdesRecalDone eyeH eyeW s = _
  rw [execSerdesRecalDone, hlane]
  rfl

theorem runs_serdesRecalDone_waits (hdue : (u.lane l).swapDue = true) (hfree : u.frozen l = false) : Runs (.serdesRecalDone eyeH eyeW) s u :=
  (State.serdesRecalDone_eq hlane hu).trans (if_pos (by simp [hdue, hfree]))

theorem exists_runs_serdesRecalDone (h : (u.lane l).swapDue = false ∨ u.frozen l = true) :
    ∃ v : State, Runs (.serdesRecalDone eyeH eyeW) s (v.bistEnd stOK false 0 u.tel.recalOut) :=
  ⟨_, (State.serdesRecalDone_eq hlane hu).trans (if_neg (by obtain h | h := h <;> simp [h]))⟩

end RecalDone

/-! ### The trace -/

/-- R665, R666: the oldest record is written at its place, and what a full or frozen trace still held is dropped. -/
theorem exists_runs_traceRecordWrite {s : State} {r : TraceRec} {rs : List TraceRec} (hq : s.tel.queue = r :: rs) (hfull : s.tel.full = false)
    (hfrozen : s.tel.frozen = false) :
    ∃ t, Runs .traceRecordWrite s t ∧ tget [] t.tel.buf (s.tel.seq % 524288) = r.bytes s.tel.seq ∧ t.tel.seq = (s.tel.seq + 1) % 2 ^ 32 ∧
      (∀ i, i ≠ s.tel.seq % 524288 → tget [] t.tel.buf i = tget [] s.tel.buf i) ∧
      (t.tel.full = true ↔ s.cb (bTEL + 0x100) 63 = true ∧ 524288 ≤ s.tel.sinceRun + 1) ∧
      (t.tel.full = false → t.tel.frozen = false → t.tel.queue = rs) := by
  have hruns : exec .traceRecordWrite s = execTraceRecordWrite s := rfl
  rw [execTraceRecordWrite, hq] at hruns
  simp only [hfull, hfrozen, Bool.or_self, Bool.false_eq_true, if_false] at hruns
  refine ⟨_, hruns, ?_, rfl, fun i hi => ?_, ?_, fun h1 h2 => ?_⟩
  · have hbytes : r.bytes s.tel.seq ≠ [] := fun h => by simpa [TraceRec.bytes, length_leBytes] using congrArg List.length h
    dsimp only [traceSlots]
    rw [tset, if_neg hbytes]
    exact tget_tins_same _ _ _
  · dsimp only [traceSlots]
    exact tget_tset_ne _ _ hi.symm
  · simp [traceSlots]
  · exact if_neg (by rw [Bool.or_eq_true]; exact fun h => h.elim (fun h => Bool.false_ne_true (h1.symm.trans h)) (fun h => Bool.false_ne_true (h2.symm.trans h)))

theorem runs_traceRecordWrite_empty {s : State} (hq : s.tel.queue = []) : Runs .traceRecordWrite s s := by
  show execTraceRecordWrite s = _
  rw [execTraceRecordWrite, hq]

section TraceCtl

variable {s : State} {p : Path} (hgate : s.wgate p (bTEL + 0x108) = true)

include hgate

theorem runs_telTraceCtl_stop : Runs (.telTraceCtl p false) s (s.setReg (bTEL + 0x108) 0) :=
  (if_neg (by simp [hgate])).trans (if_neg Bool.false_ne_true)

/-- R666: run written to a stopped trace lets it go on at its next number. -/
theorem exists_runs_telTraceCtl_restart (hstopped : s.tel.full = true ∨ s.tel.frozen = true) :
    ∃ t, Runs (.telTraceCtl p true) s t ∧ t.tel.full = false ∧ t.tel.frozen = false ∧
      t.tel.sinceRun = 0 ∧ t.tel.postLeft = none ∧ t.tel.seq = s.tel.seq ∧ t.tel.buf = s.tel.buf := by
  have hstop : (s.tel.full || s.tel.frozen) = true := Bool.or_eq_true_iff.2 hstopped
  exact ⟨_, (if_neg (by simp [hgate])).trans (if_pos (by simp [hstop])), rfl, rfl, rfl, if_pos hstop, rfl, rfl⟩

end TraceCtl

/-- Settles O59. -/
theorem testAndTrace : Obligations.TestAndTrace :=
  ⟨fun _ _ _ hgate => ⟨fun hbusy _ => runs_bist_busy hgate hbusy, fun hidle =>
      ⟨exists_runs_instanceTest_invalid hgate hidle, exists_runs_instanceTest_fenced hgate hidle, exists_runs_instanceTest hgate hidle,
        exists_runs_islandTest hgate hidle, exists_runs_serdesRecal_invalid hgate hidle, exists_runs_serdesRecal hgate hidle⟩⟩,
    fun _ hbusy => ⟨fun hphase => ⟨exists_runs_bistDrained hbusy hphase, runs_bistDrained_busy, runs_bistDeferred hbusy hphase⟩,
      fun hphase => ⟨runs_bistDrained_test hphase, runs_bistDeferred_test hphase, fun _ hu =>
        ⟨runs_bistTestDone_passed hphase hbusy hu, fun _ => runs_bistTestDone_failed hphase hbusy hu⟩⟩⟩,
    fun _ => ⟨runs_serdesRecalDone_none, fun _ _ _ _ hlane hu => ⟨runs_serdesRecalDone_waits hlane hu, exists_runs_serdesRecalDone hlane hu⟩⟩,
    fun _ _ _ => exists_runs_traceRecordWrite, fun _ => runs_traceRecordWrite_empty,
    fun _ _ _ => ⟨fun h => if_pos h, fun h => if_neg (by simp [h])⟩,
    fun _ _ hgate => ⟨runs_telTraceCtl_stop hgate, exists_runs_telTraceCtl_restart hgate⟩⟩

end Sys2Proof.Machine
end

section
/-! O60: the debug port (chapter 28). -/

namespace Sys2Proof.Machine

/-- R674: an open port writes a line of a READY stack. -/
theorem runs_memwrite {s : State} {tag a d : Nat} {b : List Byte} (hport : s.portRuns = true) (hopen : s.dbgOpen = true) (hline : a % 64 = 0)
    (hregion : region a = some (.hbm d)) (hready : s.dieReady d = true) :
    Runs (.memwrite tag a b) s ((s.store a ((b ++ leBytes 64 0).take 64)).respond tag stOK) := by
  have hreach : s.reachable a = true := by simp only [State.reachable, hregion, hready]
  have hok : lineOk a = true := by simp [lineOk, hline, hregion]
  show Host.Outcome.next (s.debugOp tag (lineOk a) _) = _
  rw [State.debugOp, if_neg (by simp [hport]), if_neg (by simp [hopen]), if_neg (by simp [hok]), if_neg (by simp [hreach])]

/-- A state in which the debug port is open and HBM die 0 READY. Its poison table is out of order, which
`State.canonical` does not rule out: the bit of line 0 stands behind that of line 5, where a deletion in key order does
not come. -/
def poisonOutOfOrder : State :=
  { pins := { porst := true, straps := some { dbgEn := true } }
    mem := { poison := [(5, true), (0, true)], stack := (List.range 4).map (fun i => (i, { state := .ready })) } }

theorem poisonOutOfOrder_canonical : poisonOutOfOrder.canonical :=
  ⟨⟨rfl, nofun⟩, ⟨rfl, nofun⟩, rfl, rfl⟩

/-- The write of line 0 leaves its poison bit set. -/
theorem poisonOutOfOrder_stays_poisoned :
    (poisonOutOfOrder.mem.store 0 ((List.replicate 64 0 ++ leBytes 64 0).take 64)).poisoned 0 = true := by decide

/-- Refutes O60: the write of a whole line clears the line's poison bit only in a poison table that is in key order, and
the statement's `State.canonical` orders the bytes, the registers, the flash and the host memory but not that table. In
`poisonOutOfOrder` the line written stays poisoned. -/
theorem not_debugRows : ¬ Obligations.DebugRows := by
  rintro ⟨hrows, -⟩
  have hport : poisonOutOfOrder.portRuns = true := by decide
  have hopen : poisonOutOfOrder.dbgOpen = true := by decide
  have hready : poisonOutOfOrder.dieReady 0 = true := by decide
  obtain ⟨-, -, hopened⟩ := hrows poisonOutOfOrder 0 hport
  obtain ⟨-, -, -, -, hlines⟩ := hopened hopen
  obtain ⟨-, hwrite⟩ := hlines 0 0 rfl rfl
  obtain ⟨u, hruns, hclean, -⟩ := (hwrite hready).2 (List.replicate 64 0) poisonOutOfOrder_canonical rfl
  have hstate := Host.Outcome.next.inj ((runs_memwrite hport hopen rfl rfl hready).symm.trans hruns)
  have hmem : poisonOutOfOrder.mem.store 0 ((List.replicate 64 0 ++ leBytes 64 0).take 64) = u.mem := congrArg State.mem hstate
  rw [← hmem, poisonOutOfOrder_stays_poisoned] at hclean
  exact Bool.noConfusion hclean

end Sys2Proof.Machine
end
